-- ==== Sys2Proof/Word.lean ====
section
/-! DEFINITION. The word types of the block: bytes, register words, thread registers, and the sparse stores that hold
memory, register banks and every per-unit state (a list of key and value pairs in one canonical form). -/
namespace Sys2Proof

/-- One byte of memory. -/
abbrev Byte := BitVec 8

/-- One register word (R2). -/
abbrev W32 := BitVec 32

/-- One thread register (R194) or 64-bit register (R3). -/
abbrev W64 := BitVec 64

/-- A sparse store: keys strictly rising, and no entry equal to what an unlisted key reads as. -/
abbrev Sparse (α : Type) := List (Nat × α)

end Sys2Proof
end

