-- ==== Sys2Proof/Container.lean ====
section
/-! DEFINITION. What comes with a command from outside the block: the contents of a model container (R426: the spec gives the
container no format), and the values that resident kernels hand to attention and sampling. -/
namespace Sys2Proof

/-- One object of a model, sliced over the 96 fields (R94, R552): its number, granules per field, first granule, where the
container places it, its hint and the hint's parameters (R95), its substitute's number, and the index of its first unit in
each field part of the model's image (R173). -/
structure ObjSpec where
  number : Nat
  granules : Nat
  base : Nat
  cellar : Bool
  hint : Nat
  tier : Nat
  stream : Nat
  index : Nat
  window : Nat
  cyclic : Bool
  deadlineUs : Nat
  substitute : Nat
  unit : Nat
deriving DecidableEq, Repr

/-- A FOLD of a container's fold plan (R236): the unified address of a successor's tile image, its FMT, and one fp32 scale a row. -/
structure LoadFold where
  dst : Nat
  fmt : Nat
  scales : List Nat
deriving DecidableEq, Repr

/-- A field's part of the model's embedding object (R316): the unified address of its part of row 0, and the bytes of a row's part. -/
structure EmbedPart where
  addr : Nat
  rowBytes : Nat
deriving DecidableEq, Repr

-- Log entry 77 (DESIGN CHOICE).
/-- The container's header: whether it verifies, the model's shape (R252, R281, R301), whether it is score-only (R552), its
objects, its fold plan, and the parts of its embedding. -/
structure ModelSpec where
  ok : Bool
  layers : Nat
  kvHeads : Nat
  group : Nat
  dim : Nat
  vocab : Nat
  scoreOnly : Bool
  objs : List ObjSpec
  folds : List LoadFold
  embeds : List EmbedPart
deriving DecidableEq, Repr

/-- The attention work of one position of a sequence and a pair (R282 to R285, R293): the key and value to be written, the softmax
scale, and the group's query rows; vectors are bf16, element 0 lowest. -/
structure KvWork where
  slot : Nat
  pair : Nat
  pos : Nat
  key : Nat
  value : Nat
  scale : Nat
  queries : List Nat
  /-- a query row holds poison -/
  poison : Bool
deriving DecidableEq, Repr

/-- A kernel's announcement of an expert (R104): its layer, expert and object, and how many other members of the slice group hold a
slice. -/
structure Announcement where
  layer : Nat
  expert : Nat
  object : Nat
  peers : Nat
deriving DecidableEq, Repr

/-- A resident kernel that firmware loads for a step at a field (R200): its cores and threads a core, ARG, ENTRY and stack as for a JOB (R198),
the words of its program, and the slots whose rows it works for. -/
structure KernelWork where
  cores : Nat
  threads : Nat
  arg : Nat
  entry : Nat
  stackKib : Nat
  words : List Nat
  rows : List Nat
deriving DecidableEq, Repr

/-- What a step brings a field beside its token (R200, R280): the KV work of its rows and the kernels that it runs. -/
structure StepWork where
  rows : List KvWork
  kernels : List KernelWork
deriving DecidableEq, Repr

/-- One query head's partial (R285): m, l and O. -/
structure AttHead where
  m : Nat
  l : Nat
  o : List Nat
deriving DecidableEq, Repr

/-- A partial record (R285). -/
structure AttVal where
  heads : List AttHead
  void : Bool
  holed : Bool
  empty : Bool
deriving DecidableEq, Repr

/-- A page of a row of another wafer (R291): its pair, its active positions, whether it is holed, its bytes. -/
structure RingPage where
  pair : Nat
  active : Nat
  holed : Bool
  data : Nat
deriving DecidableEq, Repr

/-- A pass-1 record (R306, R308): Y_MAX, L_MAX, the first entry of the order and the best key, the NaN count, the list. An entry is
(value, index, raw logit); `forced` is the raw logit of the forced token where the shard holds it. -/
structure Pass1 where
  yMax : Nat
  lMax : Nat
  top : Nat × Nat × Nat
  best : Nat × Nat × Nat
  nans : Nat
  list : List (Nat × Nat × Nat)
  forced : Option Nat
deriving DecidableEq, Repr

/-- A pass-2 or pass-3 record (R307, R308): three exact sums with least bit 2^-149, the best survivor by key, and how many survive. -/
structure Pass2 where
  sY : Nat
  sL : Nat
  sSurv : Nat
  best : Nat × Nat × Nat
  survivors : Nat
deriving DecidableEq, Repr

/-- What a finished collective brings to its user (R290, R308). -/
inductive CollData where
  | none
  /-- the other members' records of an attention row, in member order with this wafer's own left out -/
  | att (slot pair pos : Nat) (parts : List AttVal)
  | pass1 (slot pos : Nat) (others : List Pass1)
  | pass2 (slot pos : Nat) (others : List Pass2)
deriving DecidableEq, Repr

/-- A read of host memory (R386). -/
inductive HostRead where
  /-- element of a descriptor's transfer -/
  | elem (camp seq elem : Nat)
  /-- a descriptor of a ring -/
  | ring (fn i : Nat)
  /-- the token ids or the park table that a descriptor names -/
  | table (camp seq : Nat)
deriving DecidableEq, Repr

/-- An element of page services (R274): `kind` 0 a private copy (R268), 1 a tray copy at a fork (R267), 2 a prompt's page write (R265); its
camp, field, slot, pair and page, its half (keys or values), and its bytes. -/
structure PageElem where
  kind : Nat
  camp : Nat
  field : Nat
  slot : Nat
  pair : Nat
  page : Nat
  values : Bool
  bytes : Nat
deriving DecidableEq, Repr

/-- The work of a field DMA element (R560). -/
inductive DmaWork where
  /-- element of a descriptor's transfer -/
  | job (camp seq elem : Nat)
  /-- the key or value half of a tray -/
  | transplant (slot pair : Nat) (values : Bool)
  /-- a granule of a parked object -/
  | park (camp entry granule : Nat)
  /-- an element of page services -/
  | page (e : PageElem)
  /-- an element whose effect another command gives -/
  | other
deriving DecidableEq, Repr

/-- A tile that REFRESH builds (R361, R363), as the master map and the fold plan give it: the unified address of its image, its FMT, the
unified address of its master's first element and the bytes from row to row, and one fp32 FOLD scale a row (empty: none). -/
structure RefreshTile where
  dst : Nat
  fmt : Nat
  src : Nat
  pitch : Nat
  fold : List Nat
deriving DecidableEq, Repr

/-- A SCALE vector (R361): the unified address of its place in the scale object, and its fp32 elements. -/
structure RefreshScale where
  dst : Nat
  vector : List Nat
deriving DecidableEq, Repr

/-- A tile that another member built (R363). -/
structure GatheredTile where
  dst : Nat
  fmt : Nat
  image : Nat
deriving DecidableEq, Repr

/-- How another member's part of a REFRESH failed (R365): the status, the member's rank and field, the failing tile's address, and for
COLL_ABORT the module that its completion names. -/
structure RefreshFail where
  status : Nat
  rank : Nat
  field : Nat
  addr : Nat
  module : Nat
deriving DecidableEq, Repr

/-- Another member's source in a collective (R456): its bytes, `none` where it holds poison. -/
structure CollSource where
  bytes : List (Option (BitVec 8))
deriving DecidableEq, Repr

/-- What a received CTRL packet says, where another command does not say it. -/
inductive YgMsg where
  | other
  /-- a member's digest of a camp's member list (R449) -/
  | digest (camp digest : Nat)
  /-- SLOW or COOLED from a member's field in an instance (R462) -/
  | slow (camp id rank field : Nat) (on : Bool)
deriving DecidableEq, Repr

/-- A configuration request (R376, R377, R378). -/
inductive CfgReq where
  | read (off : Nat)
  | busMaster (on : Bool)
  | power (d3 : Bool)
  | msix (enable mask : Bool)
  | numVfs (n : Nat)
  | vfEnable (on : Bool)
  /-- Device Control: Max_Payload_Size and Max_Read_Request_Size as their codes, Relaxed Ordering, and 10-Bit Tag Requester Enable (R383,
  R384) -/
  | deviceControl (mps mrrs : Nat) (relaxed tag10 : Bool)
  /-- a request that changes nothing the spec names: ASPM Control, the L0p enable, ACS controls -/
  | other
deriving DecidableEq, Repr

/-- What the start-up test finds in a field (R20 to R22); a field not listed passes whole. -/
structure FieldTest where
  field : Nat
  /-- thread cores that fail -/
  cores : List Nat
  /-- the spare sites of each pod that fail with them -/
  spares : List Nat
  /-- arrays, banks and lantern cores that fail, as masks -/
  arrays : Nat
  banks : Nat
  lanterns : Nat
  /-- bit 0 router, 1 desk, 2 DMA or walker, 3 sampling unit, 4 to 6 the Weeders: a set bit means failed -/
  units : Nat
deriving DecidableEq, Repr

/-- What a start-up stage finds on the module (R522): its length, the floors it measures, the lanes below the margin of each channel,
the fields that fail something, the edge resources that fail. -/
structure StageWork where
  us : Nat
  floors : List Nat
  lanes : List (Nat × Nat × List Nat)
  tests : List FieldTest
  edges : List Nat
  /-- no copy of the camp store passes its CRC (R473); the repair store fails its CRC (R163) -/
  campBad : Bool
  repairBad : Bool
  /-- the newer copy of the camp store fails its CRC, and the older passes (R473) -/
  newerBad : Bool
deriving DecidableEq, Repr

end Sys2Proof
end

