-- ==== Sys2Proof/Syntax.lean ====
section
/-! DEFINITION. The commands of the block: one constructor per row of the opcode table. The operands are what the outside
world gives with the command: the register written and its value, the unit that an engine's step concerns, what a physical
process found. A thread instruction names its thread ((field 288 + core) 4 + thread) and its 32-bit word (R206); operations on
a consumed descriptor name its camp and its sequence number. -/
namespace Sys2Proof

inductive Instr where
  /-- REGISTER_WRITE (R7). -/
  | registerWrite (fn : Nat) (off : Nat) (len : Nat) (be : Nat) (data : Nat)
  /-- LOW_WORD_READ (R3). -/
  | lowWordRead (fn : Nat) (off : Nat) (len : Nat)
  /-- HIGH_WORD_WRITE (R4). -/
  | highWordWrite (fn : Nat) (off : Nat) (value : Nat)
  /-- LOW_WORD_WRITE (R4). -/
  | lowWordWrite (fn : Nat) (off : Nat) (value : Nat)
  /-- FLIT_RECEIVE (R38). -/
  | flitReceive (site : Nat) (port : Nat) (cls : Nat) (leg : Nat) (err : Nat) (flit : Nat) (room : Bool)
  /-- ROUTE_QUERY (R58). -/
  | routeQuery (fn : Nat) (value : Nat)
  /-- TIME_SYNC (R50). -/
  | timeSync (offsets : List (Nat × Int))
  /-- TIME_UNLOCKED (R51). -/
  | timeUnlocked (site : Nat)
  /-- LINK_HEARTBEAT (R54). -/
  | linkHeartbeat (site : Nat) (port : Nat) (acked : Bool)
  /-- FABRIC_STALL (R54). -/
  | fabricStall (site : Nat) (port : Nat) (cls : Nat) (leg : Nat)
  /-- STEP_TOKEN_RECEIVE (R52). -/
  | stepTokenReceive (c : Nat) (f : Nat) (work : StepWork) (experts : List Announcement)
  /-- STEP_DONE (R52). -/
  | stepDone (c : Nat) (f : Nat) (unitsDone : Bool)
  /-- STEP_BOUNDARY (R330). -/
  | stepBoundary (c : Nat) (plan : List (Nat × Nat × Nat × Nat × Nat)) (drops : List (Nat × Nat × Nat × Nat))
  /-- RATION_REQUEST (R70). -/
  | rationRequest (f : Nat) (unit : Nat) (thread : Nat) (sub : Nat) (cls : Nat) (camp : Nat) (amount : Nat) (standing : Bool)
  /-- RATION_TICK (R63). -/
  | rationTick
  /-- RATION_RELEASE (R66). -/
  | rationRelease (f : Nat) (unit : Nat) (thread : Nat) (sub : Nat)
  /-- LOAN_EXPIRY (R64). -/
  | loanExpiry (f : Nat)
  /-- RATION_STARVED (R74). -/
  | rationStarved (f : Nat) (unit : Nat) (thread : Nat) (sub : Nat)
  /-- UNPLANNED_DROP (R69). -/
  | unplannedDrop (f : Nat) (unit : Nat) (thread : Nat) (sub : Nat)
  /-- CAMP_IDLE_HOLD (R331). -/
  | campIdleHold (c : Nat)
  /-- WIDE_HOLD_EXPIRY (R209). -/
  | wideHoldExpiry (f : Nat) (core : Nat)
  /-- ARRAY_HOLD_EXPIRY (R243). -/
  | arrayHoldExpiry (f : Nat) (n : Nat)
  /-- BURST_IDLE_EXPIRY (R123). -/
  | burstIdleExpiry (f : Nat) (p : Nat)
  /-- MEMORY_ACCESS (R216). -/
  | memoryAccess (id : Nat) (errs : List (Nat × Nat)) (checks : List (Nat × Nat)) (dirMiss : Bool)
  /-- MOVE_START (R98). -/
  | moveStart (f : Nat) (g : Nat) (dst : Nat) (slot : Nat)
  /-- MOVE_SWITCH (R98). -/
  | moveSwitch (f : Nat) (g : Nat) (hostData : Nat)
  /-- MOVE_OLD_FRAME_FREE (R98). -/
  | moveOldFrameFree (f : Nat) (tier : Nat) (n : Nat)
  /-- EXPERT_READY_REPORT (R104). -/
  | expertReadyReport (c : Nat) (layer : Nat) (expert : Nat) (f : Nat)
  /-- SUBSTITUTE_DEADLINE (R104). -/
  | substituteDeadline (c : Nat) (layer : Nat) (expert : Nat)
  /-- TIER_LATE (R105). -/
  | tierLate (f : Nat) (c : Nat) (n : Nat) (step : Bool) (key : Nat)
  /-- HINT_MAP (R431). -/
  | hintMap (camp : Nat) (seq : Nat) (frames : List Nat)
  /-- HINT_UNMAP (R94). -/
  | hintUnmap (camp : Nat) (seq : Nat)
  /-- HINT_SET (R96). -/
  | hintSet (camp : Nat) (seq : Nat)
  /-- DIR_QUERY (R113). -/
  | dirQuery (fn : Nat) (value : Nat)
  /-- REFRESH_DUE (R121). -/
  | refreshDue (f : Nat) (n : Nat)
  /-- STACK_THERMAL_SAMPLE (R135). -/
  | stackThermalSample (f : Nat) (temp : Nat) (queued : List Nat)
  /-- GRACE_END (R136). -/
  | graceEnd (f : Nat)
  /-- STACK_FAULT (R137). -/
  | stackFault (f : Nat) (supply : Bool)
  /-- MARGIN_SCAN (R141). -/
  | marginScan (fn : Nat) (f : Nat) (value : Nat)
  /-- MARGIN_SCAN_DONE (R147). -/
  | marginScanDone (f : Nat) (errors : Nat)
  /-- REPAIR_QUERY (R141). -/
  | repairQuery (fn : Nat) (f : Nat) (value : Nat)
  /-- SOFT_ROW_REPAIR (R141). -/
  | softRowRepair (fn : Nat) (f : Nat) (value : Nat)
  /-- ZERO_FILL_DONE (R155). -/
  | zeroFillDone (f : Nat) (tier : Nat) (n : Nat)
  /-- WEEDER_READ (R156). -/
  | weederRead (f : Nat) (mem : Nat) (pattern : Nat) (check : Nat)
  /-- WEEDER_LAP_SLOW (R157). -/
  | weederLapSlow (f : Nat) (mem : Nat)
  /-- FLIP_ARM (R165). -/
  | flipArm (fn : Nat) (value : Nat)
  /-- CAND_QUERY (R169). -/
  | candQuery (fn : Nat) (value : Nat)
  /-- INSTALL_CREATE (R176). -/
  | installCreate (camp : Nat) (seq : Nat)
  /-- INSTALL_WRITE (R177). -/
  | installWrite (camp : Nat) (seq : Nat)
  /-- INSTALL_SEAL (R176). -/
  | installSeal (camp : Nat) (seq : Nat)
  /-- INSTALL_ERASE (R176). -/
  | installErase (camp : Nat) (seq : Nat)
  /-- UNIT_PROGRAM_DONE (R177). -/
  | unitProgramDone (u : Nat) (ok : Bool)
  /-- CELLAR_READ_COMPLETE (R178). -/
  | cellarReadComplete (chan : Nat) (retries : Nat) (outcome : Nat) (bits : Nat) (pct : Nat)
  /-- RELOCATION_START (R181). -/
  | relocationStart (chan : Nat) (l : Nat)
  /-- RELOCATION_SWITCH (R181). -/
  | relocationSwitch (chan : Nat) (l : Nat) (ok : Bool)
  /-- BLOCK_ERASE (R181). -/
  | blockErase (chan : Nat) (p : Nat) (ok : Bool)
  /-- CELLAR_THERMAL_SAMPLE (R184). -/
  | cellarThermalSample (k : Nat) (temp : Nat)
  /-- CELLAR_MOUNTED (R187). -/
  | cellarMounted (k : Nat) (chans : Nat) (ms : Nat)
  /-- READ_COUNT_SAVE (R187). -/
  | readCountSave (k : Nat)
  /-- CELLAR_CC_DARK (R189). -/
  | cellarCcDark (k : Nat) (chan : Nat)
  /-- IMAGE_QUERY (R192). -/
  | imageQuery (fn : Nat) (value : Nat)
  /-- JOB (R196). -/
  | job (camp : Nat) (seq : Nat)
  /-- JOB_LAUNCH (R197). -/
  | jobLaunch (camp : Nat) (seq : Nat)
  /-- JOB_START (R198). -/
  | jobStart (camp : Nat) (seq : Nat)
  /-- JOB_COMPLETE (R199). -/
  | jobComplete (camp : Nat) (seq : Nat)
  /-- WATCHDOG (R226). -/
  | watchdog (camp : Nat) (seq : Nat)
  /-- REGFILE_PARITY (R224). -/
  | regfileParity (t : Nat)
  /-- LOAD_RETURN (R221). -/
  | loadReturn (id : Nat)
  /-- WRITE_ACK (R214). -/
  | writeAck (id : Nat)
  /-- ALU (R201). -/
  | alu (t : Nat)
  /-- ADDI (R207). -/
  | addi (t : Nat)
  /-- ANDI (R207). -/
  | andi (t : Nat)
  /-- ORI (R207). -/
  | ori (t : Nat)
  /-- XORI (R207). -/
  | xori (t : Nat)
  /-- SHI (R201). -/
  | shi (t : Nat)
  /-- LIQ (R207). -/
  | liq (t : Nat)
  /-- CMP (R208). -/
  | cmp (t : Nat)
  /-- FPU (R201). -/
  | fpu (t : Nat)
  /-- PLOG (R208). -/
  | plog (t : Nat)
  /-- LD (R220). -/
  | ld (t : Nat)
  /-- ST (R220). -/
  | st (t : Nat)
  /-- VLD (R203). -/
  | vld (t : Nat)
  /-- VST (R203). -/
  | vst (t : Nat)
  /-- VLDS (R207). -/
  | vlds (t : Nat)
  /-- VSTS (R207). -/
  | vsts (t : Nat)
  /-- ATOM (R212). -/
  | atom (t : Nat)
  /-- MADD (R213). -/
  | madd (t : Nat)
  /-- BR (R207). -/
  | br (t : Nat)
  /-- CALL (R207). -/
  | call (t : Nat)
  /-- JR (R207). -/
  | jr (t : Nat)
  /-- VOP (R208). -/
  | vop (t : Nat)
  /-- VOPS (R204). -/
  | vops (t : Nat)
  /-- VRED (R205). -/
  | vred (t : Nat)
  /-- VCMP (R207). -/
  | vcmp (t : Nat)
  /-- SMUP (R210). -/
  | smup (t : Nat)
  /-- VADDM (R213). -/
  | vaddm (t : Nat)
  /-- SETVL (R202). -/
  | setvl (t : Nat)
  /-- RATION_REQ (R76). -/
  | rationReq (t : Nat)
  /-- RATION_REL (R76). -/
  | rationRel (t : Nat)
  /-- FENCE (R214). -/
  | fence (t : Nat)
  /-- ARR_PUT (R239). -/
  | arrPut (t : Nat)
  /-- ARR_RUN (R239). -/
  | arrRun (t : Nat)
  /-- ARR_ABORT (R240). -/
  | arrAbort (t : Nat)
  /-- ARR_STAT (R248). -/
  | arrStat (t : Nat)
  /-- ARR_WAIT (R239). -/
  | arrWait (t : Nat)
  /-- CSRR (R215). -/
  | csrr (t : Nat)
  /-- CSRW (R215). -/
  | csrw (t : Nat)
  /-- TBAR (R208). -/
  | tbar (t : Nat)
  /-- YIELD (R208). -/
  | yield (t : Nat)
  /-- PCHK (R223). -/
  | pchk (t : Nat)
  /-- END (R199). -/
  | endCmd (t : Nat)
  /-- LOAD_TILE (R238). -/
  | loadTile (f : Nat) (n : Nat)
  /-- SWAP (R238). -/
  | swap (f : Nat) (n : Nat)
  /-- STREAM (R238). -/
  | stream (f : Nat) (n : Nat)
  /-- DRAIN (R238). -/
  | drain (f : Nat) (n : Nat)
  /-- CHAIN (R238). -/
  | chain (f : Nat) (n : Nat)
  /-- ARRAY_END (R238). -/
  | arrayEnd (f : Nat) (n : Nat)
  /-- ARRAY_NOP (R237). -/
  | arrayNop (f : Nat) (n : Nat)
  /-- SHIFT_COMPLETE (R242). -/
  | shiftComplete (f : Nat) (n : Nat)
  /-- ABORT_COMPLETE (R240). -/
  | abortComplete (f : Nat) (n : Nat)
  /-- ARRAY_STALL (R249). -/
  | arrayStall (f : Nat) (n : Nat)
  /-- DMA_ELEMENT_DONE (R560). -/
  | dmaElementDone (f : Nat) (slot : Nat) (w : DmaWork)
  /-- PAGE_WALK (R266). -/
  | pageWalk (f : Nat) (slot : Nat) (pair : Nat) (first : Nat) (last : Nat) (core : Nat) (off : Nat)
  /-- PAGE_QUERY (R278). -/
  | pageQuery (fn : Nat) (word : Nat) (value : Nat)
  /-- PARTIAL_ARRIVE (R287). -/
  | partialArrive (c : Nat) (slot : Nat) (pair : Nat) (pos : Nat) (src : Nat) (lvl : Nat) (idx : Nat)
  /-- RING_PIECE (R291). -/
  | ringPiece (c : Nat) (f : Nat) (slot : Nat) (layer : Nat) (row : Nat) (src : Nat) (pages : List RingPage)
  /-- SAMPLE_ROW (R306). -/
  | sampleRow (c : Nat) (f : Nat) (slot : Nat) (pos : Nat) (logits : List Nat) (poison : Bool)
  /-- MERGE_RECORD (R308). -/
  | mergeRecord (c : Nat) (slot : Nat) (pos : Nat) (pass : Nat) (lvl : Nat) (idx : Nat)
  /-- PASS2_START (R307). -/
  | pass2Start (c : Nat) (slot : Nat) (pos : Nat) (f : Nat)
  /-- GENERATOR_TEST (R323). -/
  | generatorTest (fn : Nat) (off : Nat) (value : Nat)
  /-- GENERATE (R328). -/
  | generate (camp : Nat) (seq : Nat) (tokens : List Nat) (readBad : Nat)
  /-- FORK_GROUP (R354). -/
  | forkGroup (camp : Nat) (seq : Nat) (tokens : List Nat) (readBad : Nat)
  /-- SCORE (R356). -/
  | score (camp : Nat) (seq : Nat) (tokens : List Nat) (readBad : Nat)
  /-- CANCEL (R342). -/
  | cancel (camp : Nat) (seq : Nat)
  /-- SET_POLICY (R432). -/
  | setPolicy (camp : Nat) (seq : Nat)
  /-- FENCE_DESCRIPTOR (R432). -/
  | fenceDescriptor (camp : Nat) (seq : Nat)
  /-- STATS (R432). -/
  | stats (camp : Nat) (seq : Nat)
  /-- SLOT_QUERY (R347). -/
  | slotQuery (fn : Nat) (value : Nat)
  /-- PHASE (R350). -/
  | phase (camp : Nat) (seq : Nat) (table : List Nat) (readBad : Nat)
  /-- PHASE_DRAIN_LIMIT (R350). -/
  | phaseDrainLimit (c : Nat)
  /-- REFRESH (R362). -/
  | refresh (camp : Nat) (seq : Nat) (covered : Bool)
  /-- REFRESH_COMPLETE (R365). -/
  | refreshComplete (camp : Nat) (seq : Nat) (own : List RefreshTile) (scales : List RefreshScale) (gathered : List GatheredTile) (failure : Option RefreshFail)
  /-- LOAD_MODEL (R552). -/
  | loadModel (camp : Nat) (seq : Nat) (m : ModelSpec)
  /-- UNLOAD_MODEL (R97). -/
  | unloadModel (camp : Nat) (seq : Nat)
  /-- COPY (R430). -/
  | copy (camp : Nat) (seq : Nat)
  /-- HOST_LINK_UP (R373). -/
  | hostLinkUp (p : Nat) (speed : Nat) (width : Nat) (flit : Bool)
  /-- HOST_LINK_DOWN (R395). -/
  | hostLinkDown (p : Nat) (ltssm : Nat)
  /-- FUNCTION_LEVEL_RESET (R394). -/
  | functionLevelReset (fn : Nat)
  /-- VF_ENABLE_CLEAR (R394). -/
  | vfEnableClear (p : Nat)
  /-- HOT_RESET (R395). -/
  | hotReset (p : Nat) (disable : Bool)
  /-- HOST_READ_COMPLETION (R386). -/
  | hostReadCompletion (w : HostRead) (status : Nat) (addr : Nat) (data : Nat)
  /-- HOST_READ_TIMEOUT (R386). -/
  | hostReadTimeout (w : HostRead) (addr : Nat)
  /-- BAR_WRITE_POISONED (R385). -/
  | barWritePoisoned (fn : Nat)
  /-- MSIX_HOLDOFF (R389). -/
  | msixHoldoff (fn : Nat) (v : Nat)
  /-- MSIX_UNMASK (R389). -/
  | msixUnmask (fn : Nat) (v : Nat)
  /-- IDE_CHECK_FAIL (R392). -/
  | ideCheckFail (p : Nat) (strm : Nat)
  /-- DOORBELL (R403). -/
  | doorbell (fn : Nat) (off : Nat) (idx : Nat) (covers : Bool)
  /-- RING_ENABLE (R402). -/
  | ringEnable (fn : Nat) (k : Nat) (value : Nat)
  /-- RING_DISABLE (R402). -/
  | ringDisable (fn : Nat) (k : Nat) (value : Nat)
  /-- DESCRIPTOR_FETCH (R406). -/
  | descriptorFetch (fn : Nat) (i : Nat) (raw : Nat)
  /-- RECORD_WRITE (R408). -/
  | recordWrite (fn : Nat) (i : Nat)
  /-- YG_LANE_REQUEST (R444). -/
  | ygLaneRequest (p : Nat)
  /-- YG_PORT_UP (R444). -/
  | ygPortUp (p : Nat) (peer : Nat) (peerPort : Nat) (shape : Nat) (delay : Nat) (eye : Nat) (lane : Nat) (hits : Nat)
  /-- YG_TRAIN_RETRY (R444). -/
  | ygTrainRetry (p : Nat)
  /-- YG_RETRAIN (R445). -/
  | ygRetrain (p : Nat) (cause : Nat) (lane : Nat)
  /-- YG_PORT_HELD (R446). -/
  | ygPortHeld (p : Nat)
  /-- YG_HOLD_END (R446). -/
  | ygHoldEnd (p : Nat)
  /-- CODEWORD_RECEIVE (R441). -/
  | codewordReceive (p : Nat) (seq : Nat) (replay : Bool) (good : Bool) (corrected : List Nat) (flits : List Nat)
  /-- LINK_FLIT (R440). -/
  | linkFlit (p : Nat) (room : Bool)
  /-- YILGIL_PACKET (R442). -/
  | yilgilPacket (p : Nat) (msg : YgMsg) (room : Bool)
  /-- DOMAIN_TIME_MESSAGE (R453). -/
  | domainTimeMessage (root : Nat) (offset : Int)
  /-- DOMAIN_UNLOCKED (R454). -/
  | domainUnlocked
  /-- COLL_QUEUE_ENTRY (R458). -/
  | collQueueEntry (c : Nat) (f : Nat)
  /-- COLL_PART_COMPLETE (R455). -/
  | collPartComplete (part : Nat) (slot : Nat) (failed : Nat) (others : List CollSource) (data : CollData)
  /-- COLL_LATE (R459). -/
  | collLate (part : Nat) (rank : Nat) (field : Nat)
  /-- COLL_ABORT_MESSAGE (R459). -/
  | collAbortMessage (c : Nat) (id : Nat) (f : Nat) (rank : Nat) (field : Nat) (sender : Nat)
  /-- COLL_SETTLE (R459). -/
  | collSettle (c : Nat) (id : Nat)
  /-- CONSENT_COPY (R475). -/
  | consentCopy (mc : Bool) (fn : Nat)
  /-- WRITE_STAGE (R475). -/
  | writeStage (mc : Bool) (fn : Nat) (off : Nat) (data : List Nat)
  /-- PROPOSE (R475). -/
  | propose (mc : Bool) (fn : Nat)
  /-- COUNTERSIGN (R477). -/
  | countersign (mc : Bool) (fn : Nat) (data : List Nat)
  /-- CONSENT_ABORT (R477). -/
  | consentAbort (mc : Bool) (fn : Nat)
  /-- GET_STATUS (R485). -/
  | getStatus
  /-- READ_IMAGE (R485). -/
  | readImage (image : Nat) (off : Nat) (len : Nat)
  /-- CONSENT_WINDOW_EXPIRY (R477). -/
  | consentWindowExpiry
  /-- CONSENT_APPLY (R479). -/
  | consentApply (storeOk : Bool)
  /-- CAMP_RESET_CMD (R481). -/
  | campResetCmd (fn : Nat) (value : Nat)
  /-- CAMP_RESET_DONE (R533). -/
  | campResetDone (c : Nat)
  /-- CAMP_RESET_STUCK (R535). -/
  | campResetStuck (c : Nat)
  /-- MCTP_CONTROL (R484). -/
  | mctpControl (typ : Nat) (cmd : Nat) (arg : Nat)
  /-- PLDM_GET_SENSOR (R486). -/
  | pldmGetSensor (kind : Nat) (f : Nat)
  /-- PLDM_SET_WAFER_CAP (R486). -/
  | pldmSetWaferCap (value : Nat)
  /-- PLDM_FIRMWARE_UPDATE (R486). -/
  | pldmFirmwareUpdate (signed : Bool) (svn : Nat)
  /-- PLDM_POWER_OFF (R503). -/
  | pldmPowerOff
  /-- PLDM_POWER_CYCLE (R520). -/
  | pldmPowerCycle (vcore : Nat)
  /-- PLDM_WAFER_RESET (R520). -/
  | pldmWaferReset
  /-- GET_DIGESTS (R487). -/
  | getDigests (doe : Bool)
  /-- GET_CERTIFICATE (R487). -/
  | getCertificate (doe : Bool) (off : Nat) (len : Nat)
  /-- CHALLENGE (R487). -/
  | challenge (doe : Bool)
  /-- GET_MEASUREMENTS (R488). -/
  | getMeasurements (doe : Bool) (index : Nat)
  /-- KEY_EXCHANGE (R487). -/
  | keyExchange (doe : Bool) (port : Nat)
  /-- FINISH (R487). -/
  | finish (doe : Bool) (port : Nat)
  /-- POWER_ON (R501). -/
  | powerOn (vin : Nat) (iin : Nat) (pin : Nat) (aux : Nat) (vcore : Nat)
  /-- INPUT_UNDERVOLT (R504). -/
  | inputUndervolt (vin : Nat)
  /-- INPUT_RECOVER (R504). -/
  | inputRecover (vin : Nat)
  /-- UNDERVOLT_POWER_OFF (R505). -/
  | undervoltPowerOff (vin : Nat)
  /-- SHUNT_CATCH (R499). -/
  | shuntCatch (watts : Nat)
  /-- POWER_OVER (R497). -/
  | powerOver (watts : Nat) (iin : Nat) (slew : Nat)
  /-- COOLANT_SAMPLE (R508). -/
  | coolantSample (inlet : Nat) (outlet : Nat) (flow : Nat)
  /-- LOGIC_THERMAL_SAMPLE (R509). -/
  | logicThermalSample (temps : List Nat)
  /-- LOGIC_THROTTLE_STEP (R510). -/
  | logicThrottleStep
  /-- LOGIC_SENSORS_SILENT (R511). -/
  | logicSensorsSilent (f : Nat)
  /-- PERST_ASSERT (R514). -/
  | perstAssert (p : Nat)
  /-- PERST_DEASSERT (R514). -/
  | perstDeassert (p : Nat)
  /-- PERST_STUCK (R518). -/
  | perstStuck (p : Nat)
  /-- FORCE_THROTTLE_ASSERT (R515). -/
  | forceThrottleAssert
  /-- FORCE_THROTTLE_DEASSERT (R515). -/
  | forceThrottleDeassert
  /-- FORCE_THROTTLE_HELD (R516). -/
  | forceThrottleHeld
  /-- FIELD_STAGE_FAULT (R517). -/
  | fieldStageFault (f : Nat) (rail : Nat) (watts : Nat)
  /-- RESET_CTRL (R542). -/
  | resetCtrl (fn : Nat) (value : Nat)
  /-- STARTUP_STAGE_DONE (R522). -/
  | startupStageDone (w : StageWork)
  /-- BOOT_CONTINUE (R525). -/
  | bootContinue (fn : Nat) (value : Nat) (us : Nat)
  /-- FW_STOPPED (R541). -/
  | fwStopped
  /-- DBG_WINDOW_ACCESS (R547). -/
  | dbgWindowAccess (fn : Nat) (off : Nat) (len : Nat) (write : Bool) (data : Nat)
  /-- DBG_CAPTURE_WRITE (R550). -/
  | dbgCaptureWrite (fn : Nat) (value : Nat)
  /-- STREAM_DONE (R242). -/
  | streamDone (f : Nat) (n : Nat)
  /-- DRAIN_DONE (R242). -/
  | drainDone (f : Nat) (n : Nat)
  /-- YG_TRAINING_FAILED (R444). -/
  | ygTrainingFailed (p : Nat) (cause : Nat) (found : Nat)
  /-- CONFIGURATION_REQUEST (R376). -/
  | configurationRequest (fn : Nat) (req : CfgReq)
  /-- IDE_KM (R392). -/
  | ideKm (p : Nat) (strm : Nat) (lo : Nat) (hi : Nat)
  /-- HOST_LINK_RECOVERY (R397). -/
  | hostLinkRecovery (p : Nat) (replays : Nat) (corr : Nat)
  /-- PLDM_EVENT_FETCH (R513). -/
  | pldmEventFetch
  /-- SHUNT_TAPER_END (R511). -/
  | shuntTaperEnd
  /-- PERST_GLITCH (R514). -/
  | perstGlitch
  /-- FORCE_THROTTLE_GLITCH (R515). -/
  | forceThrottleGlitch
deriving DecidableEq, Repr

end Sys2Proof
end

