-- ==== Sys2Proof/Decode.lean ====
section
/-! DEFINITION. The table gives no row any bits, so no word spells a command. The 32-bit words of the thread instructions
(R206) are an operand of their commands, and their fields are read in Machine/Operands.lean. -/
namespace Sys2Proof

-- Log entry 1 (DESIGN CHOICE).
/-- The command that a word spells by the table's bits: none, for no row has bits. -/
def decodeTableWord (_nbits _w : Nat) : Option Instr := none

end Sys2Proof
end

