-- ==== Sys2Proof/Machine/Sparse.lean ====
section
/-! DEFINITION. Sparse stores: reading, writing and the canonical form. `d k` is what an unlisted key `k` reads as. -/
namespace Sys2Proof.Machine

-- Log entry 5 (DESIGN CHOICE).
/-- What key `k` reads as. -/
def sget {α : Type} (d : Nat → α) : Sparse α → Nat → α
  | [], k => d k
  | (k', v) :: r, k => if k = k' then v else sget d r k

/-- List a key that is not listed, before the first higher one. -/
def sput {α : Type} : Sparse α → Nat → α → Sparse α
  | [], k, v => [(k, v)]
  | (k', v') :: r, k, v => if k < k' then (k, v) :: (k', v') :: r else (k', v') :: sput r k v

-- Log entry 5 (DESIGN CHOICE).
/-- Write `v` at key `k`, keeping the canonical form: writing what an unlisted key reads as removes the entry. -/
def sset {α : Type} [DecidableEq α] (d : Nat → α) (m : Sparse α) (k : Nat) (v : α) : Sparse α :=
  let rest := m.filter fun x => x.1 != k
  if v = d k then rest else sput rest k v

/-- Change what key `k` reads as. -/
def supd {α : Type} [DecidableEq α] (d : Nat → α) (m : Sparse α) (k : Nat) (f : α → α) : Sparse α :=
  sset d m k (f (sget d m k))

/-- The canonical form from key `lo` upward: keys strictly rising, no entry that says what an unlisted key says. -/
def sparseFrom {α : Type} [DecidableEq α] (d : Nat → α) : Nat → Sparse α → Bool
  | _, [] => true
  | lo, (k, v) :: r => decide (lo ≤ k) && decide (v ≠ d k) && sparseFrom d (k + 1) r

-- Log entry 5 (DESIGN CHOICE).
/-- The canonical form. -/
def sparseWf {α : Type} [DecidableEq α] (d : Nat → α) (m : Sparse α) : Bool := sparseFrom d 0 m

/-- Bits `lo` to `lo + w - 1` of a number. -/
def bitsOf (x lo w : Nat) : Nat := (x >>> lo) % 2 ^ w

/-- A number laid out from fields (low bit, width, value), each cut to its width. -/
def packBits : List (Nat × Nat × Nat) → Nat
  | [] => 0
  | (lo, w, v) :: r => ((v % 2 ^ w) <<< lo) ||| packBits r

/-- A value that stops at the top of its width. -/
def satTo (w v : Nat) : Nat := min v (2 ^ w - 1)

/-- A signed number in two's complement of width `w`. -/
def toTwos (w : Nat) (x : Int) : Nat := (x % (2 ^ w : Int)).toNat

/-- The signed reading of a `w`-bit number. -/
def ofTwos (w x : Nat) : Int := if x % 2 ^ w < 2 ^ (w - 1) then (x % 2 ^ w : Int) else (x % 2 ^ w : Int) - 2 ^ w

/-- A little-endian number from a byte reader. -/
def readLE (f : Nat → Byte) (a : Nat) : Nat → Nat
  | 0 => 0
  | n + 1 => (f a).toNat + 256 * readLE f (a + 1) n

/-- The `n` low bytes of a number, little-endian. -/
def bytesLE : Nat → Nat → List Byte
  | 0, _ => []
  | n + 1, v => BitVec.ofNat 8 v :: bytesLE n (v / 256)

/-- The number that bytes spell, little-endian. -/
def ofBytesLE : List Byte → Nat
  | [] => 0
  | x :: r => x.toNat + 256 * ofBytesLE r

/-- Ceiling division. -/
def cdiv (a n : Nat) : Nat := (a + n - 1) / n

/-- Is bit `n` set? -/
def bitAt (x n : Nat) : Bool := x.testBit n

/-- Set or clear bit `n`. -/
def setBit (x n : Nat) (on : Bool) : Nat :=
  if on then x ||| (1 <<< n) else if x.testBit n then x - (1 <<< n) else x

/-- How many bits below `n` are set. -/
def popCount (x : Nat) : Nat → Nat
  | 0 => 0
  | n + 1 => (if x.testBit n then 1 else 0) + popCount x n

/-- Put an element behind every element that it does not come before. -/
def insertBy {α : Type} (before : α → α → Bool) (x : α) : List α → List α
  | [] => [x]
  | y :: r => if before x y then x :: y :: r else y :: insertBy before x r

/-- A list in an order; equals keep their places. -/
def sortBy {α : Type} (before : α → α → Bool) (xs : List α) : List α := xs.foldl (fun l x => insertBy before x l) []

/-- The sum of a list. -/
def sumOf (xs : List Nat) : Nat := xs.foldl (· + ·) 0

/-- Remove the first element that satisfies a test. -/
def dropFirst {α : Type} (p : α → Bool) : List α → List α
  | [] => []
  | x :: r => if p x then r else x :: dropFirst p r

end Sys2Proof.Machine
end

