-- ==== Sys2Proof/Machine/Float.lean ====
section
/-! DEFINITION. Floating-point arithmetic on bit patterns, exact and then rounded once to nearest even: fp32 and bf16
(R132, R201, R206, R282), and the narrow formats of chapter 9 (R233). A number is `n 2^e`. -/
namespace Sys2Proof.Machine

-- Log entry 66 (DEDUCED).
/-- The bits of the one NaN that operations give (R132). -/
def nan32 : Nat := 0x7FC00000
def inf32 : Nat := 0x7F800000

def f32Neg (x : Nat) : Bool := x.testBit 31
def f32Exp (x : Nat) : Nat := bitsOf x 23 8
def f32Man (x : Nat) : Nat := bitsOf x 0 23
def f32IsNan (x : Nat) : Bool := decide (f32Exp x = 255) && decide (f32Man x ≠ 0)
def f32IsInf (x : Nat) : Bool := decide (f32Exp x = 255) && decide (f32Man x = 0)
def f32IsZero (x : Nat) : Bool := decide (x % 2 ^ 31 = 0)
def f32Finite (x : Nat) : Bool := decide (f32Exp x ≠ 255)

/-- The sign bit of a result. -/
def signBit (neg : Bool) : Nat := if neg then 0x80000000 else 0

/-- The magnitude of a finite fp32 number: `m 2^e`. -/
def f32Mag (x : Nat) : Nat × Int :=
  if f32Exp x = 0 then (f32Man x, -149) else (f32Man x + 2 ^ 23, (f32Exp x : Int) - 150)

/-- A finite fp32 number as `n 2^e`. -/
def f32Val (x : Nat) : Int × Int :=
  let m := f32Mag x
  (if f32Neg x then -(m.1 : Int) else m.1, m.2)

/-- Round a magnitude `m 2^e` (with a nonzero tail below it when `sticky`) to `p` significant bits, no bit below `2^emin`,
to nearest even: `(k, q)` for `k 2^q`. -/
def roundMag (p : Nat) (emin : Int) (m : Nat) (e : Int) (sticky : Bool) : Nat × Int :=
  let q := max emin (e + (m.log2 + 1 : Nat) - p)
  if q ≤ e then (m <<< (e - q).toNat, q)
  else
    let s := (q - e).toNat
    let hi := m >>> s
    let rem := m % 2 ^ s
    let half := 2 ^ (s - 1)
    let up := decide (half < rem) || (decide (rem = half) && (sticky || decide (hi % 2 = 1)))
    (if up then hi + 1 else hi, q)

/-- An fp32 magnitude from `k 2^q` with `k` at most `2^24` and `q` at least -149. -/
def packF32 (k : Nat) (q : Int) : Nat :=
  let kq : Nat × Int := if k = 2 ^ 24 then (2 ^ 23, q + 1) else (k, q)
  if kq.1 < 2 ^ 23 then kq.1
  else
    let ef := (kq.2 + 150).toNat
    if 255 ≤ ef then inf32 else ef * 2 ^ 23 + (kq.1 - 2 ^ 23)

/-- A magnitude rounded to fp32, with a sign. -/
def roundF32 (neg : Bool) (m : Nat) (e : Int) (sticky : Bool) : Nat :=
  let r := roundMag 24 (-149) m e sticky
  signBit neg + (if m = 0 then 0 else packF32 r.1 r.2)

/-- A signed number `n 2^e` rounded to fp32; `zero` is the sign of an exact zero. -/
def roundInt32 (n : Int) (e : Int) (zeroNeg : Bool) : Nat :=
  if n = 0 then signBit zeroNeg else roundF32 (decide (n < 0)) n.natAbs e false

/-- The sum of `a 2^ea` and `b 2^eb`. -/
def dyAdd (x y : Int × Int) : Int × Int :=
  let e := min x.2 y.2
  (x.1 * 2 ^ (x.2 - e).toNat + y.1 * 2 ^ (y.2 - e).toNat, e)

def dyMul (x y : Int × Int) : Int × Int := (x.1 * y.1, x.2 + y.2)

/-- Is `x` below `y`? -/
def dyLt (x y : Int × Int) : Bool := decide ((dyAdd x (-y.1, y.2)).1 < 0)

/-- fp32 addition. -/
def f32Add (x y : Nat) : Nat :=
  if f32IsNan x || f32IsNan y then nan32
  else if f32IsInf x then (if f32IsInf y && (f32Neg x != f32Neg y) then nan32 else x)
  else if f32IsInf y then y
  else
    let s := dyAdd (f32Val x) (f32Val y)
    roundInt32 s.1 s.2 (f32Neg x && f32Neg y)

/-- The sign change. -/
def f32Flip (x : Nat) : Nat := x ^^^ 0x80000000

def f32Sub (x y : Nat) : Nat := if f32IsNan y then nan32 else f32Add x (f32Flip y)

/-- fp32 multiplication. -/
def f32Mul (x y : Nat) : Nat :=
  let neg := f32Neg x != f32Neg y
  if f32IsNan x || f32IsNan y then nan32
  else if f32IsInf x || f32IsInf y then (if f32IsZero x || f32IsZero y then nan32 else signBit neg + inf32)
  else
    let p := dyMul (f32Val x) (f32Val y)
    roundInt32 p.1 p.2 neg

/-- Fused multiply-add: `x y + z`, rounded once. -/
def f32Fma (x y z : Nat) : Nat :=
  let neg := f32Neg x != f32Neg y
  if f32IsNan x || f32IsNan y || f32IsNan z then nan32
  else if f32IsInf x || f32IsInf y then
    if f32IsZero x || f32IsZero y then nan32
    else if f32IsInf z && (f32Neg z != neg) then nan32 else signBit neg + inf32
  else if f32IsInf z then z
  else
    let s := dyAdd (dyMul (f32Val x) (f32Val y)) (f32Val z)
    roundInt32 s.1 s.2 (neg && f32Neg z)

/-- fp32 division. -/
def f32Div (x y : Nat) : Nat :=
  let neg := f32Neg x != f32Neg y
  if f32IsNan x || f32IsNan y then nan32
  else if f32IsInf x then (if f32IsInf y then nan32 else signBit neg + inf32)
  else if f32IsInf y then signBit neg
  else if f32IsZero y then (if f32IsZero x then nan32 else signBit neg + inf32)
  else if f32IsZero x then signBit neg
  else
    let a := f32Mag x; let b := f32Mag y
    let num := a.1 * 2 ^ 64
    roundF32 neg (num / b.1) (a.2 - 64 - b.2) (decide (num % b.1 ≠ 0))

/-- Ordered comparison: nothing where an operand is NaN. -/
def f32Cmp (x y : Nat) : Option Ordering :=
  if f32IsNan x || f32IsNan y then none
  else
    let big (z : Nat) : Int × Int := if f32IsInf z then (if f32Neg z then (-1, 200) else (1, 200)) else f32Val z
    if dyLt (big x) (big y) then some .lt else if dyLt (big y) (big x) then some .gt else some .eq

def f32Lt (x y : Nat) : Bool := f32Cmp x y == some .lt
def f32Le (x y : Nat) : Bool := f32Cmp x y == some .lt || f32Cmp x y == some .eq
def f32EqB (x y : Nat) : Bool := f32Cmp x y == some .eq

/-- The magnitude. -/
def f32Abs (x : Nat) : Nat := x % 2 ^ 31

/-- An integer rounded to fp32. -/
def f32OfInt (n : Int) : Nat := roundInt32 n 0 false

/-- The integer part of a number of finite value, toward zero. -/
def truncDy (v : Int × Int) : Int :=
  if 0 ≤ v.2 then v.1 * 2 ^ v.2.toNat else if 0 ≤ v.1 then v.1 / 2 ^ (-v.2).toNat else -(-v.1 / 2 ^ (-v.2).toNat)

/-- Rounded to an integer, to nearest even. -/
def nearestDy (v : Int × Int) : Int :=
  if 0 ≤ v.2 then v.1 * 2 ^ v.2.toNat
  else
    let s := (-v.2).toNat
    let q := v.1.natAbs >>> s
    let rem := v.1.natAbs % 2 ^ s
    let up := decide (2 ^ (s - 1) < rem) || (decide (rem = 2 ^ (s - 1)) && decide (q % 2 = 1))
    let r : Int := (if up then q + 1 else q : Nat)
    if v.1 < 0 then -r else r

/-- Toward minus infinity. -/
def floorDy (v : Int × Int) : Int := if 0 ≤ v.2 then v.1 * 2 ^ v.2.toNat else v.1.fdiv (2 ^ (-v.2).toNat)

/-! ### bf16 -/

/-- A bf16 pattern widened to fp32. -/
def bfWide (x : Nat) : Nat := (x % 2 ^ 16) * 2 ^ 16

/-- An fp32 pattern rounded to bf16, to nearest even; any NaN gives 0x7FC0. -/
def bfRound (x : Nat) : Nat :=
  if f32IsNan x then 0x7FC0
  else
    let hi := x / 2 ^ 16
    let lo := x % 2 ^ 16
    if 0x8000 < lo ∨ (lo = 0x8000 ∧ hi % 2 = 1) then hi + 1 else hi

/-- The exact value `n 2^e` rounded once to bf16. -/
def bfOfDy (neg : Bool) (m : Nat) (e : Int) : Nat :=
  if m = 0 then (if neg then 0x8000 else 0)
  else
    let r := roundMag 8 (-133) m e false
    -- as an fp32 pattern with 16 zero bits below
    (signBit neg + packF32 (r.1 * 2 ^ 16) (r.2 - 16)) / 2 ^ 16

/-! ### Fixed trees (R205) -/

/-- One level of a tree: neighbours are added pairwise. -/
def pairUp (f : Nat → Nat → Nat) : List Nat → List Nat
  | a :: b :: r => f a b :: pairUp f r
  | l => l

/-- The fixed tree over a list, level by level (the fuel is at least its height). -/
def treeFold (f : Nat → Nat → Nat) (z : Nat) : Nat → List Nat → Nat
  | _, [] => z
  | _, [a] => a
  | 0, a :: _ => a
  | n + 1, l => treeFold f z n (pairUp f l)

end Sys2Proof.Machine
end

