-- ==== Sys2Proof/Machine/Sha.lean ====
section
/-! DEFINITION. The two hashes that the spec names, SHA-256 (R174, R271, R475) and SHA-384 (R487, R488), as one machine over words of
`w` bits. Its constants are not listed: they are the fractions of square and cube roots of primes, and are computed as such. -/
namespace Sys2Proof.Machine

/-! ### The constants -/

/-- The greatest r below 2^n, added to r0, whose e-th power is at most x. -/
def rootFrom (e x : Nat) : Nat → Nat → Nat
  | 0, r => r
  | n + 1, r => rootFrom e x n (if (r + 2 ^ n) ^ e ≤ x then r + 2 ^ n else r)

/-- The first `w` bits of the fraction of the e-th root of p. -/
def rootFraction (w e p : Nat) : BitVec w := BitVec.ofNat w (rootFrom e (p * 2 ^ (e * w)) (w + 5) 0)

/-- Has p a divisor among 2 to n + 1? -/
def divided (p : Nat) : Nat → Bool
  | 0 => false
  | n + 1 => p % (n + 2) == 0 || divided p n

/-- The primes below 410, which are the first eighty. -/
def shaPrimes : List Nat := (List.range 410).filter fun p => decide (2 ≤ p) && !divided p (min 19 (p - 2))

/-! ### One width -/

/-- What a width fixes: the bits of the size at a message's end, its rounds, and the amounts of its four mixtures; the third amount of the
schedule's two is a shift. -/
structure ShaKind where
  sizeBytes : Nat
  rounds : Nat
  ch : Nat × Nat × Nat
  maj : Nat × Nat × Nat
  old : Nat × Nat × Nat
  new : Nat × Nat × Nat

def shaShort : ShaKind := ⟨8, 64, (6, 11, 25), (2, 13, 22), (7, 18, 3), (17, 19, 10)⟩
def shaLong : ShaKind := ⟨16, 80, (14, 18, 41), (28, 34, 39), (1, 8, 7), (19, 61, 6)⟩

/-- A mixture of three rotations of a word, and one whose third is a shift. -/
def mixRotated {w : Nat} (n : Nat × Nat × Nat) (x : BitVec w) : BitVec w := (x.rotateRight n.1) ^^^ (x.rotateRight n.2.1) ^^^ (x.rotateRight n.2.2)
def mixShifted {w : Nat} (n : Nat × Nat × Nat) (x : BitVec w) : BitVec w := (x.rotateRight n.1) ^^^ (x.rotateRight n.2.1) ^^^ (x >>> n.2.2)

/-- The eight variables move up by one: the last leaves, the fourth takes in what the last and the round's word make of it, and the first
is new. -/
def ShaKind.round {w : Nat} (z : ShaKind) (v : List (BitVec w)) (word : BitVec w) : List (BitVec w) :=
  let x (i : Nat) : BitVec w := v.getD i 0
  let chosen := (x 4 &&& x 5) ||| (x 6 &&& ~~~x 4)
  let most := (x 0 &&& (x 1 ||| x 2)) ||| (x 1 &&& x 2)
  let fed := word + x 7 + chosen + mixRotated z.ch (x 4)
  (fed + most + mixRotated z.maj (x 0)) :: (v.set 3 (x 3 + fed)).take 7

/-- Run rounds over a block's words, which are oldest first; each round's word adds one at the end of the sixteen in use. -/
def ShaKind.runRounds {w : Nat} (z : ShaKind) : List (BitVec w) → List (BitVec w) → List (BitVec w) → List (BitVec w)
  | [], _, v => v
  | k :: ks, used, v =>
    let x (i : Nat) : BitVec w := used.getD i 0
    z.runRounds ks (used.drop 1 ++ [mixShifted z.new (x 14) + x 9 + mixShifted z.old (x 1) + x 0]) (z.round v (k + x 0))

/-- The words of a message, big-endian, `n` bytes each (the fuel is their number). -/
def shaWords (w n : Nat) : Nat → List Nat → List (BitVec w)
  | 0, _ => []
  | k + 1, m => BitVec.ofNat w ((m.take n).foldl (fun a x => 256 * a + x) 0) :: shaWords w n k (m.drop n)

/-- Hash blocks of sixteen words (the fuel is their number). -/
def ShaKind.blocks {w : Nat} (z : ShaKind) (ks : List (BitVec w)) : Nat → List (BitVec w) → List (BitVec w) → List (BitVec w)
  | 0, _, h => h
  | n + 1, ws, h => z.blocks ks n (ws.drop 16) (List.zipWith (· + ·) (z.runRounds ks (ws.take 16) h) h)

/-- The big-endian bytes of a number. -/
def bytesBE : Nat → Nat → List Nat
  | 0, _ => []
  | n + 1, v => bytesBE n (v / 256) ++ [v % 256]

/-- A message with its end mark, zeros up to a whole block, and its length in bits. -/
def ShaKind.padded (z : ShaKind) (m : List Nat) : List Nat :=
  let block := 8 * z.sizeBytes
  let used := (m.length + 1 + z.sizeBytes) % block
  m ++ 128 :: List.replicate ((block - used) % block) 0 ++ bytesBE z.sizeBytes (8 * m.length)

/-- The digest of a message from eight initial values: `keep` words of it. -/
def ShaKind.digest (z : ShaKind) (w : Nat) (h : List (BitVec w)) (keep : Nat) (m : List Nat) : List Nat :=
  let p := z.padded m
  let words := shaWords w (w / 8) (p.length / (w / 8)) p
  ((z.blocks ((shaPrimes.take z.rounds).map (rootFraction w 3)) (words.length / 16) words h).take keep).flatMap fun x => bytesBE (w / 8) x.toNat

/-! ### The two hashes -/

/-- SHA-256: 32 bytes. -/
def sha256 (m : List Nat) : List Nat := shaShort.digest 32 ((shaPrimes.take 8).map (rootFraction 32 2)) 8 m

/-- SHA-384: 48 bytes. -/
def sha384 (m : List Nat) : List Nat := shaLong.digest 64 (((shaPrimes.drop 8).take 8).map (rootFraction 64 2)) 6 m

/-- The SHA-256 digest as a little-endian number: byte 0 the least significant. -/
def sha256LE (m : List Nat) : Nat := (sha256 m).foldr (fun x r => x + 256 * r) 0

end Sys2Proof.Machine
end

