-- ==== Sys2Proof/Config.lean ====
section
/-! DEFINITION. What an implementation fixes and the spec leaves open: constants with no body, so that no proof can see
what they are (log entry 2). -/
namespace Sys2Proof

-- Log entry 2 (DESIGN CHOICE).
/-- The 64-bit NONCE that the consent engine draws from its random source (R475), by draw. -/
opaque Config.nonce : Nat → BitVec 64

-- Log entry 2 (DESIGN CHOICE).
/-- The firmware reason in the body of an INTERNAL completion (R418), by draw. -/
opaque Config.internalReason : Nat → BitVec 32

-- Log entry 2 (DESIGN CHOICE).
/-- Whether a code, met with more errors than it detects, miscorrects (R149): by codeword and draw. -/
opaque Config.miscorrects : Nat → Nat → Bool

-- Log entry 2 (DESIGN CHOICE).
/-- The byte that a miscorrected codeword delivers (R149): by address and draw. -/
opaque Config.wrongByte : Nat → Nat → BitVec 8

-- Log entry 2 (DESIGN CHOICE).
/-- Which of the two fp32 numbers around the exact value an exp of at most 1 ulp error gives (R205). -/
opaque Config.expUp : Nat → Bool

-- Log entry 2 (DESIGN CHOICE).
/-- FLOG, for which the spec states no accuracy and no value at 0 and below (R208). -/
opaque Config.flog : Nat → BitVec 32

-- Log entry 2 (DESIGN CHOICE).
/-- FEXP, for which the spec states no accuracy (R208). -/
opaque Config.fexp : Nat → BitVec 32

-- Log entry 2 (DESIGN CHOICE).
/-- RSQRT of an fp32 number, for which the spec states no accuracy (R208). -/
opaque Config.rsqrt : Nat → BitVec 32

-- Log entry 224 (DESIGN CHOICE).
/-- The responses that an endpoint has buffer space for (R42), by 1024 times its field plus its DST_UNIT number; at least one. -/
opaque Config.rspSpace : Nat → Nat

-- Log entry 2 (DESIGN CHOICE).
/-- The larger (`true`) or smaller of two fp32 numbers where one is a NaN, and by its bit 0 which of two zeros of different signs (R208). -/
opaque Config.maxMin : Bool → Nat → Nat → BitVec 32

-- Log entry 2 (DESIGN CHOICE).
/-- The high 32 bits of g[RS] after a reduction of i32 elements (R208), by its low bits. -/
opaque Config.reduceHigh : Nat → BitVec 32

-- Log entry 2 (DESIGN CHOICE).
/-- A maximum or minimum over no element (R208), by its VFUNC. -/
opaque Config.reduceEmpty : Nat → BitVec 32

-- Log entry 2 (DESIGN CHOICE).
/-- The fp32 mass of a block after a step (R273), whose order of additions the spec does not state: from the old mass and the scores of the
block's active positions under each query head, by draw. -/
opaque Config.massSum : Nat → List (List Nat) → Nat → BitVec 32

-- Log entries 2 (DESIGN CHOICE), 101 (DEDUCED).
/-- Bytes 8 + 8j to 15 + 8j of an alternatives record (R315) where the merged list is shorter than ALTS, by draw. -/
opaque Config.altMissing : Nat → BitVec 64

-- Log entries 2 (DESIGN CHOICE), 35 (DEDUCED).
/-- The KIND of PROT_DENIED for an array's fetch from an object with a SUBSTITUTE (R490 names none), by draw. -/
opaque Config.deniedKind : Nat → BitVec 3

-- Log entries 2 (DESIGN CHOICE), 135 (DESIGN CHOICE).
/-- The message code of a CTRL packet (R440 gives the codes no values), by message: 0 ABORT, 1 SLOW, 2 COOLED, 3 STEP_BARRIER, 4 time,
5 the digest of a member list. -/
opaque Config.ctrlCode : Nat → BitVec 8

-- Log entries 2 (DESIGN CHOICE), 135 (DESIGN CHOICE).
/-- The ARG of a CTRL packet that carries a culprit's rank and field (R459 gives it no layout). -/
opaque Config.culpritArg : Nat → Nat → BitVec 32

-- Log entries 2 (DESIGN CHOICE), 143 (DESIGN CHOICE).
/-- Bits [30:0] of the COLL_ID of a resident kernel's instance (R455), by draw. -/
opaque Config.collId : Nat → BitVec 31

-- Log entries 2 (DESIGN CHOICE), 131 (DESIGN CHOICE).
/-- CAUSE of YG_PORT_DOWN for a retrain that R465 gives no cause: a reserved class, or a marginal lane; by draw. -/
opaque Config.downCause : Nat → BitVec 8

-- Log entry 2 (DESIGN CHOICE).
/-- A measurement whose content's bytes the spec does not lay out (R488), by its index and what it covers. -/
opaque Config.measured : Nat → List Nat → BitVec 384

-- Log entry 2 (DESIGN CHOICE).
/-- The certificate chain of slot 0 (R487), by byte, and its digest. -/
opaque Config.certificate : Nat → BitVec 8
-- Log entry 2 (DESIGN CHOICE).
opaque Config.certDigest : BitVec 384

-- Log entry 2 (DESIGN CHOICE).
/-- An ECDSA P-384 signature of the device (R487), by draw. -/
opaque Config.signature : Nat → BitVec 768

-- Log entry 2 (DESIGN CHOICE).
/-- The responder's key share of a key exchange (R487), by draw. -/
opaque Config.exchangeKey : Nat → BitVec 768

-- Log entries 2 (DESIGN CHOICE), 150 (DESIGN CHOICE).
/-- The version that the endpoint reports for an MCTP message type (R484). -/
opaque Config.mctpVersion : Nat → BitVec 32

-- Log entries 2 (DESIGN CHOICE), 150 (DESIGN CHOICE).
/-- The completion code with which the endpoint refuses a message that the spec says it answers with an error (R484). -/
opaque Config.mctpError : BitVec 8

-- Log entries 2 (DESIGN CHOICE), 230 (DESIGN CHOICE).
/-- The fields, by bit, whose fuses had verified when a power loss interrupted a commit (R539), by draw. -/
opaque Config.verified : Nat → BitVec 96

-- Log entries 2 (DESIGN CHOICE), 158 (PRESUMED).
/-- A word of a function's configuration space that the spec does not lay out (R376). -/
opaque Config.cfgWord : Nat → Nat → BitVec 32

end Sys2Proof
end

