-- ==== Sys2Proof/Machine/RegMap.lean ====
section
/-! DEFINITION. The map of the writable registers of BAR0 and of the BAR4 control page: one row per register (its
offset, its strides, its owning block, its fields with class and access, its reset word), taken from the register
tables of the spec (R58 to R550), and one named field selector per field. Read-only fields have no row: they are
computed from the state that they report (Machine/Live.lean). BAR4 registers stand at 0x4000_0000 plus their offset. -/
namespace Sys2Proof.Machine

/-- When a write to a field takes effect (R6). -/
inductive Cls where
  | static | step | live
deriving DecidableEq, Repr

/-- What a write to a field does (R11): RW sets, W1C clears the bits written 1, WC and CNT clear the field. -/
inductive Acc where
  | rw | w1c | wc
deriving DecidableEq, Repr

/-- What value a written value is taken as, where the register table says that it reads otherwise. -/
inductive Norm where
  | asWritten | zeroAs (n : Nat) | clamp (lo hi : Nat) | bankModes
deriving DecidableEq, Repr

/-- The block that owns a STATIC field (R528); `none` for a block without one. -/
inductive Owner where
  | none | fabric | rationMaster | tier | dram | dramTest | sram | integ | cellar | yilgil | ring
deriving DecidableEq, Repr

/-- One field of a register. -/
structure FieldDef where
  lo : Nat
  width : Nat
  cls : Cls
  acc : Acc
  norm : Norm
deriving DecidableEq, Repr

/-- One register, or an array of registers with up to two strides. -/
structure RegDef where
  base : Nat
  s1 : Nat
  n1 : Nat
  s2 : Nat
  n2 : Nat
  owner : Owner
  reset : W32
  fields : List FieldDef
deriving DecidableEq, Repr

/-- A field selector: the offset of its word and the place of its bits. -/
structure Fld where
  off : Nat
  lo : Nat
  width : Nat
deriving DecidableEq, Repr

/-- Does the register (or one of its array) stand at this offset? -/
def RegDef.isAt (r : RegDef) (off : Nat) : Bool :=
  let d := off - r.base
  decide (r.base ≤ off) && decide (d / r.s1 < r.n1) && decide (d % r.s1 / r.s2 < r.n2) && decide (d % r.s1 % r.s2 = 0)

/-- Chapter 02. -/
def regs02 : List RegDef := [
  ⟨0x400000, 0x10000000000, 1, 0x10000000000, 1, .fabric, 0xa0064#32,
    [⟨0, 16, .live, .rw, .zeroAs 1⟩, ⟨16, 8, .static, .rw, .zeroAs 10⟩]⟩,
  ⟨0x400008, 0x10000000000, 1, 0x10000000000, 1, .fabric, 0x0#32,
    [⟨0, 7, .live, .rw, .asWritten⟩, ⟨8, 7, .live, .rw, .asWritten⟩]⟩,
  ⟨0x40001c, 0x10000000000, 1, 0x10000000000, 1, .fabric, 0x0#32,
    [⟨0, 32, .live, .wc, .asWritten⟩]⟩,
  ⟨0x400020, 0x10000000000, 1, 0x10000000000, 1, .fabric, 0x0#32,
    [⟨0, 32, .live, .wc, .asWritten⟩]⟩,
  ⟨0x400024, 0x10000000000, 1, 0x10000000000, 1, .fabric, 0x0#32,
    [⟨0, 32, .live, .wc, .asWritten⟩]⟩,
  ⟨0x400028, 0x10000000000, 1, 0x10000000000, 1, .fabric, 0x0#32,
    [⟨0, 32, .live, .wc, .asWritten⟩]⟩,
  ⟨0x40002c, 0x10000000000, 1, 0x10000000000, 1, .fabric, 0x0#32,
    [⟨0, 32, .live, .wc, .asWritten⟩]⟩,
  ⟨0x401000, 0x10, 104, 0x10000000000, 1, .fabric, 0x0#32,
    [⟨0, 32, .live, .wc, .asWritten⟩]⟩,
  ⟨0x401004, 0x10, 104, 0x10000000000, 1, .fabric, 0x0#32,
    [⟨0, 32, .live, .wc, .asWritten⟩]⟩,
  ⟨0x401008, 0x10, 104, 0x10000000000, 1, .fabric, 0x0#32,
    [⟨0, 32, .live, .wc, .asWritten⟩]⟩]

/-- Chapter 03. -/
def regs03 : List RegDef := [
  ⟨0x300000, 0x10000000000, 1, 0x10000000000, 1, .rationMaster, 0x1a400#32,
    [⟨0, 18, .live, .rw, .asWritten⟩]⟩,
  ⟨0x300004, 0x10000000000, 1, 0x10000000000, 1, .rationMaster, 0x80120#32,
    [⟨0, 8, .static, .rw, .zeroAs 32⟩, ⟨8, 1, .static, .rw, .asWritten⟩, ⟨16, 8, .static, .rw, .zeroAs 1⟩]⟩,
  ⟨0x300008, 0x10000000000, 1, 0x10000000000, 1, .rationMaster, 0x64190c8#32,
    [⟨0, 10, .live, .rw, .asWritten⟩, ⟨10, 10, .live, .rw, .asWritten⟩, ⟨20, 10, .live, .rw, .asWritten⟩]⟩,
  ⟨0x300014, 0x10000000000, 1, 0x10000000000, 1, .rationMaster, 0x0#32,
    [⟨0, 8, .live, .wc, .asWritten⟩, ⟨8, 8, .live, .wc, .asWritten⟩]⟩,
  ⟨0x300020, 0x10000000000, 1, 0x10000000000, 1, .rationMaster, 0x0#32,
    [⟨0, 32, .live, .wc, .asWritten⟩]⟩,
  ⟨0x300024, 0x10000000000, 1, 0x10000000000, 1, .rationMaster, 0x0#32,
    [⟨0, 32, .live, .wc, .asWritten⟩]⟩,
  ⟨0x300028, 0x10000000000, 1, 0x10000000000, 1, .rationMaster, 0x0#32,
    [⟨0, 32, .live, .wc, .asWritten⟩]⟩,
  ⟨0x30002c, 0x10000000000, 1, 0x10000000000, 1, .rationMaster, 0x0#32,
    [⟨0, 32, .live, .wc, .asWritten⟩]⟩,
  ⟨0x300030, 0x10000000000, 1, 0x10000000000, 1, .rationMaster, 0x0#32,
    [⟨0, 32, .live, .wc, .asWritten⟩]⟩,
  ⟨0x1010000, 0x80000, 96, 0x10000000000, 1, .rationMaster, 0x460#32,
    [⟨0, 11, .step, .rw, .clamp 400 1280⟩]⟩,
  ⟨0x1010020, 0x80000, 96, 0x10000000000, 1, .rationMaster, 0x0#32,
    [⟨0, 32, .live, .wc, .asWritten⟩]⟩,
  ⟨0x1010024, 0x80000, 96, 0x10000000000, 1, .rationMaster, 0x0#32,
    [⟨0, 32, .live, .wc, .asWritten⟩]⟩,
  ⟨0x1010028, 0x80000, 96, 0x10000000000, 1, .rationMaster, 0x0#32,
    [⟨0, 32, .live, .wc, .asWritten⟩]⟩,
  ⟨0x101002c, 0x80000, 96, 0x10000000000, 1, .rationMaster, 0x0#32,
    [⟨0, 32, .live, .wc, .asWritten⟩]⟩,
  ⟨0x1010030, 0x80000, 96, 0x10000000000, 1, .rationMaster, 0x0#32,
    [⟨0, 32, .live, .wc, .asWritten⟩]⟩,
  ⟨0x1010034, 0x80000, 96, 0x10000000000, 1, .rationMaster, 0x0#32,
    [⟨0, 32, .live, .wc, .asWritten⟩]⟩,
  ⟨0x1010038, 0x80000, 96, 0x10000000000, 1, .rationMaster, 0x0#32,
    [⟨0, 32, .live, .wc, .asWritten⟩]⟩,
  ⟨0x101003c, 0x80000, 96, 0x10000000000, 1, .rationMaster, 0x0#32,
    [⟨0, 32, .live, .wc, .asWritten⟩]⟩]

/-- Chapter 04. -/
def regs04 : List RegDef := [
  ⟨0x500000, 0x10000000000, 1, 0x10000000000, 1, .tier, 0x16#32,
    [⟨0, 5, .static, .rw, .clamp 17 25⟩]⟩,
  ⟨0x500004, 0x10000000000, 1, 0x10000000000, 1, .tier, 0x3e801f4#32,
    [⟨0, 16, .live, .rw, .asWritten⟩, ⟨16, 16, .live, .rw, .zeroAs 1⟩]⟩,
  ⟨0x500010, 0x10000000000, 1, 0x10000000000, 1, .tier, 0x0#32,
    [⟨0, 32, .live, .rw, .asWritten⟩]⟩,
  ⟨0x500014, 0x10000000000, 1, 0x10000000000, 1, .tier, 0x0#32,
    [⟨0, 32, .live, .rw, .asWritten⟩]⟩,
  ⟨0x500030, 0x10000000000, 1, 0x10000000000, 1, .tier, 0x0#32,
    [⟨0, 32, .live, .wc, .asWritten⟩]⟩,
  ⟨0x501000, 0x40, 96, 0x10000000000, 1, .tier, 0x0#32,
    [⟨0, 32, .live, .wc, .asWritten⟩]⟩,
  ⟨0x501004, 0x40, 96, 0x10000000000, 1, .tier, 0x0#32,
    [⟨0, 32, .live, .wc, .asWritten⟩]⟩,
  ⟨0x501008, 0x40, 96, 0x10000000000, 1, .tier, 0x0#32,
    [⟨0, 32, .live, .wc, .asWritten⟩]⟩,
  ⟨0x50100c, 0x40, 96, 0x10000000000, 1, .tier, 0x0#32,
    [⟨0, 32, .live, .wc, .asWritten⟩]⟩,
  ⟨0x501010, 0x40, 96, 0x10000000000, 1, .tier, 0x0#32,
    [⟨0, 32, .live, .wc, .asWritten⟩]⟩,
  ⟨0x501014, 0x40, 96, 0x10000000000, 1, .tier, 0x0#32,
    [⟨0, 32, .live, .wc, .asWritten⟩]⟩,
  ⟨0x501018, 0x40, 96, 0x10000000000, 1, .tier, 0x0#32,
    [⟨0, 32, .live, .wc, .asWritten⟩]⟩,
  ⟨0x50101c, 0x40, 96, 0x10000000000, 1, .tier, 0x0#32,
    [⟨0, 32, .live, .wc, .asWritten⟩]⟩,
  ⟨0x501020, 0x40, 96, 0x10000000000, 1, .tier, 0x0#32,
    [⟨0, 32, .live, .wc, .asWritten⟩]⟩,
  ⟨0x501024, 0x40, 96, 0x10000000000, 1, .tier, 0x0#32,
    [⟨0, 32, .live, .wc, .asWritten⟩]⟩]

/-- Chapter 05. -/
def regs05 : List RegDef := [
  ⟨0x600000, 0x10000000000, 1, 0x10000000000, 1, .dram, 0x2080#32,
    [⟨0, 1, .static, .rw, .asWritten⟩, ⟨4, 4, .static, .rw, .clamp 1 8⟩, ⟨8, 8, .static, .rw, .zeroAs 1⟩]⟩,
  ⟨0x600004, 0x10000000000, 1, 0x10000000000, 1, .dram, 0x3210#32,
    [⟨0, 8, .live, .rw, .zeroAs 1⟩, ⟨8, 16, .live, .rw, .asWritten⟩]⟩,
  ⟨0x600010, 0x10000000000, 1, 0x10000000000, 1, .dram, 0x0#32,
    [⟨0, 32, .live, .wc, .asWritten⟩]⟩,
  ⟨0x600100, 0x8, 16, 0x10000000000, 1, .dram, 0x1000000#32,
    [⟨16, 9, .step, .rw, .clamp 0 256⟩]⟩,
  ⟨0x600104, 0x8, 16, 0x10000000000, 1, .dram, 0x40#32,
    [⟨0, 16, .step, .rw, .clamp 4 65535⟩]⟩,
  ⟨0x1020000, 0x80000, 96, 0x10000000000, 1, .dram, 0x0#32,
    [⟨16, 8, .live, .wc, .asWritten⟩]⟩,
  ⟨0x1020004, 0x80000, 96, 0x10000000000, 1, .dram, 0x0#32,
    [⟨0, 32, .live, .wc, .asWritten⟩]⟩,
  ⟨0x1020008, 0x80000, 96, 0x10000000000, 1, .dram, 0x0#32,
    [⟨0, 32, .live, .wc, .asWritten⟩]⟩,
  ⟨0x1020010, 0x80000, 96, 0x10000000000, 1, .dramTest, 0x0#32,
    [⟨0, 5, .static, .rw, .asWritten⟩, ⟨5, 8, .static, .rw, .asWritten⟩, ⟨13, 1, .static, .rw, .asWritten⟩, ⟨16, 6, .static, .rw, .asWritten⟩, ⟨31, 1, .static, .rw, .asWritten⟩]⟩,
  ⟨0x1020018, 0x80000, 96, 0x10000000000, 1, .dramTest, 0x0#32,
    [⟨0, 5, .static, .rw, .asWritten⟩, ⟨5, 4, .static, .rw, .asWritten⟩, ⟨9, 15, .static, .rw, .asWritten⟩, ⟨24, 1, .static, .rw, .asWritten⟩, ⟨31, 1, .static, .rw, .asWritten⟩]⟩,
  ⟨0x1020108, 0x80000, 96, 0x40, 32, .dram, 0x0#32,
    [⟨0, 32, .live, .wc, .asWritten⟩]⟩,
  ⟨0x102010c, 0x80000, 96, 0x40, 32, .dram, 0x0#32,
    [⟨0, 32, .live, .wc, .asWritten⟩]⟩,
  ⟨0x1020110, 0x80000, 96, 0x40, 32, .dram, 0x0#32,
    [⟨0, 32, .live, .wc, .asWritten⟩]⟩,
  ⟨0x1020114, 0x80000, 96, 0x40, 32, .dram, 0x0#32,
    [⟨0, 32, .live, .wc, .asWritten⟩]⟩,
  ⟨0x1020118, 0x80000, 96, 0x40, 32, .dram, 0x0#32,
    [⟨0, 32, .live, .wc, .asWritten⟩]⟩,
  ⟨0x102011c, 0x80000, 96, 0x40, 32, .dram, 0x0#32,
    [⟨0, 32, .live, .wc, .asWritten⟩]⟩,
  ⟨0x1020120, 0x80000, 96, 0x40, 32, .dram, 0x0#32,
    [⟨0, 32, .live, .wc, .asWritten⟩]⟩,
  ⟨0x1020124, 0x80000, 96, 0x40, 32, .dram, 0x0#32,
    [⟨0, 32, .live, .wc, .asWritten⟩]⟩,
  ⟨0x1020128, 0x80000, 96, 0x40, 32, .dram, 0x0#32,
    [⟨0, 32, .live, .wc, .asWritten⟩]⟩,
  ⟨0x1030000, 0x80000, 96, 0x10000000000, 1, .sram, 0x5805805#32,
    [⟨0, 32, .static, .rw, .bankModes⟩]⟩,
  ⟨0x1030004, 0x80000, 96, 0x10000000000, 1, .sram, 0x8058#32,
    [⟨0, 16, .static, .rw, .bankModes⟩]⟩,
  ⟨0x1030010, 0x80000, 96, 0x10000000000, 1, .sram, 0x0#32,
    [⟨0, 32, .live, .wc, .asWritten⟩]⟩,
  ⟨0x1030014, 0x80000, 96, 0x10000000000, 1, .sram, 0x0#32,
    [⟨0, 32, .live, .wc, .asWritten⟩]⟩,
  ⟨0x1030018, 0x80000, 96, 0x10000000000, 1, .sram, 0x0#32,
    [⟨0, 32, .live, .wc, .asWritten⟩]⟩,
  ⟨0x103001c, 0x80000, 96, 0x10000000000, 1, .sram, 0x0#32,
    [⟨0, 32, .live, .wc, .asWritten⟩]⟩,
  ⟨0x1030020, 0x80000, 96, 0x10000000000, 1, .sram, 0x0#32,
    [⟨0, 32, .live, .wc, .asWritten⟩]⟩,
  ⟨0x1030024, 0x80000, 96, 0x10000000000, 1, .sram, 0x0#32,
    [⟨0, 32, .live, .wc, .asWritten⟩]⟩,
  ⟨0x1030028, 0x80000, 96, 0x10000000000, 1, .sram, 0x0#32,
    [⟨0, 32, .live, .wc, .asWritten⟩]⟩]

/-- Chapter 06. -/
def regs06 : List RegDef := [
  ⟨0x700000, 0x10000000000, 1, 0x10000000000, 1, .integ, 0x30804#32,
    [⟨0, 8, .live, .rw, .zeroAs 1⟩, ⟨8, 8, .live, .rw, .zeroAs 1⟩, ⟨16, 3, .static, .rw, .clamp 1 6⟩]⟩,
  ⟨0x700004, 0x10000000000, 1, 0x10000000000, 1, .integ, 0x3e80007#32,
    [⟨0, 1, .live, .rw, .asWritten⟩, ⟨1, 1, .live, .rw, .asWritten⟩, ⟨2, 1, .live, .rw, .asWritten⟩, ⟨16, 16, .live, .rw, .zeroAs 1⟩]⟩,
  ⟨0x700010, 0x10000000000, 1, 0x10000000000, 1, .integ, 0x0#32,
    [⟨0, 32, .live, .rw, .asWritten⟩]⟩,
  ⟨0x700014, 0x10000000000, 1, 0x10000000000, 1, .integ, 0x0#32,
    [⟨0, 32, .live, .rw, .asWritten⟩]⟩,
  ⟨0x700018, 0x10000000000, 1, 0x10000000000, 1, .integ, 0x0#32,
    [⟨0, 32, .live, .rw, .asWritten⟩]⟩,
  ⟨0x70001c, 0x10000000000, 1, 0x10000000000, 1, .integ, 0x0#32,
    [⟨0, 32, .live, .rw, .asWritten⟩]⟩,
  ⟨0x700020, 0x10000000000, 1, 0x10000000000, 1, .integ, 0x0#32,
    [⟨0, 8, .live, .rw, .asWritten⟩]⟩,
  ⟨0x700024, 0x10000000000, 1, 0x10000000000, 1, .integ, 0x0#32,
    [⟨0, 1, .live, .rw, .asWritten⟩, ⟨1, 1, .live, .w1c, .asWritten⟩]⟩,
  ⟨0x700030, 0x10000000000, 1, 0x10000000000, 1, .integ, 0x0#32,
    [⟨0, 32, .live, .wc, .asWritten⟩]⟩,
  ⟨0x700034, 0x10000000000, 1, 0x10000000000, 1, .integ, 0x0#32,
    [⟨0, 32, .live, .wc, .asWritten⟩]⟩,
  ⟨0x700040, 0x10000000000, 1, 0x10000000000, 1, .integ, 0x0#32,
    [⟨0, 32, .live, .wc, .asWritten⟩]⟩,
  ⟨0x700044, 0x10000000000, 1, 0x10000000000, 1, .integ, 0x0#32,
    [⟨0, 32, .live, .wc, .asWritten⟩]⟩,
  ⟨0x700048, 0x10000000000, 1, 0x10000000000, 1, .integ, 0x0#32,
    [⟨0, 32, .live, .wc, .asWritten⟩]⟩,
  ⟨0x70004c, 0x10000000000, 1, 0x10000000000, 1, .integ, 0x0#32,
    [⟨0, 32, .live, .wc, .asWritten⟩]⟩,
  ⟨0x700050, 0x10000000000, 1, 0x10000000000, 1, .integ, 0x0#32,
    [⟨0, 32, .live, .wc, .asWritten⟩]⟩,
  ⟨0x700054, 0x10000000000, 1, 0x10000000000, 1, .integ, 0x0#32,
    [⟨0, 32, .live, .wc, .asWritten⟩]⟩,
  ⟨0x700058, 0x10000000000, 1, 0x10000000000, 1, .integ, 0x0#32,
    [⟨0, 32, .live, .wc, .asWritten⟩]⟩,
  ⟨0x700060, 0x10000000000, 1, 0x10000000000, 1, .integ, 0x0#32,
    [⟨0, 8, .live, .rw, .asWritten⟩, ⟨8, 5, .live, .rw, .asWritten⟩]⟩,
  ⟨0x1070000, 0x80000, 96, 0x10000000000, 1, .integ, 0x0#32,
    [⟨0, 32, .live, .wc, .asWritten⟩]⟩,
  ⟨0x1070004, 0x80000, 96, 0x10000000000, 1, .integ, 0x0#32,
    [⟨0, 32, .live, .wc, .asWritten⟩]⟩,
  ⟨0x1070008, 0x80000, 96, 0x10000000000, 1, .integ, 0x0#32,
    [⟨0, 32, .live, .wc, .asWritten⟩]⟩,
  ⟨0x107000c, 0x80000, 96, 0x10000000000, 1, .integ, 0x0#32,
    [⟨0, 32, .live, .wc, .asWritten⟩]⟩,
  ⟨0x1070010, 0x80000, 96, 0x10000000000, 1, .integ, 0x0#32,
    [⟨0, 32, .live, .wc, .asWritten⟩]⟩,
  ⟨0x1070014, 0x80000, 96, 0x10000000000, 1, .integ, 0x0#32,
    [⟨0, 32, .live, .wc, .asWritten⟩]⟩,
  ⟨0x1070018, 0x80000, 96, 0x10000000000, 1, .integ, 0x0#32,
    [⟨0, 32, .live, .wc, .asWritten⟩]⟩,
  ⟨0x107001c, 0x80000, 96, 0x10000000000, 1, .integ, 0x0#32,
    [⟨0, 32, .live, .wc, .asWritten⟩]⟩,
  ⟨0x1070020, 0x80000, 96, 0x10000000000, 1, .integ, 0x0#32,
    [⟨0, 32, .live, .wc, .asWritten⟩]⟩,
  ⟨0x1070024, 0x80000, 96, 0x10000000000, 1, .integ, 0x0#32,
    [⟨0, 32, .live, .wc, .asWritten⟩]⟩,
  ⟨0x1070028, 0x80000, 96, 0x10000000000, 1, .integ, 0x0#32,
    [⟨0, 32, .live, .wc, .asWritten⟩]⟩,
  ⟨0x107002c, 0x80000, 96, 0x10000000000, 1, .integ, 0x0#32,
    [⟨0, 32, .live, .wc, .asWritten⟩]⟩,
  ⟨0x107003c, 0x80000, 96, 0x10000000000, 1, .integ, 0x0#32,
    [⟨0, 32, .live, .wc, .asWritten⟩]⟩]

/-- Chapter 07. -/
def regs07 : List RegDef := [
  ⟨0x800000, 0x10000000000, 1, 0x10000000000, 1, .cellar, 0x554b03e8#32,
    [⟨0, 16, .live, .rw, .zeroAs 1⟩, ⟨16, 7, .live, .rw, .asWritten⟩, ⟨24, 8, .live, .rw, .asWritten⟩]⟩,
  ⟨0x800004, 0x10000000000, 1, 0x10000000000, 1, .cellar, 0x960#32,
    [⟨0, 12, .static, .rw, .asWritten⟩]⟩,
  ⟨0x800010, 0x10000000000, 1, 0x10000000000, 1, .cellar, 0x0#32,
    [⟨0, 16, .live, .rw, .asWritten⟩, ⟨16, 8, .live, .rw, .asWritten⟩]⟩,
  ⟨0x800080, 0x10000000000, 1, 0x10000000000, 1, .cellar, 0x0#32,
    [⟨0, 32, .live, .wc, .asWritten⟩]⟩,
  ⟨0x800084, 0x10000000000, 1, 0x10000000000, 1, .cellar, 0x0#32,
    [⟨0, 32, .live, .wc, .asWritten⟩]⟩,
  ⟨0x800088, 0x10000000000, 1, 0x10000000000, 1, .cellar, 0x0#32,
    [⟨0, 32, .live, .wc, .asWritten⟩]⟩,
  ⟨0x80008c, 0x10000000000, 1, 0x10000000000, 1, .cellar, 0x0#32,
    [⟨0, 32, .live, .wc, .asWritten⟩]⟩,
  ⟨0x800090, 0x10000000000, 1, 0x10000000000, 1, .cellar, 0x0#32,
    [⟨0, 32, .live, .wc, .asWritten⟩]⟩,
  ⟨0x800094, 0x10000000000, 1, 0x10000000000, 1, .cellar, 0x0#32,
    [⟨0, 32, .live, .wc, .asWritten⟩]⟩,
  ⟨0x800098, 0x10000000000, 1, 0x10000000000, 1, .cellar, 0x0#32,
    [⟨0, 32, .live, .wc, .asWritten⟩]⟩,
  ⟨0x80009c, 0x10000000000, 1, 0x10000000000, 1, .cellar, 0x0#32,
    [⟨0, 32, .live, .wc, .asWritten⟩]⟩,
  ⟨0x801004, 0x100, 8, 0x10000000000, 1, .cellar, 0x0#32,
    [⟨8, 8, .live, .wc, .asWritten⟩]⟩,
  ⟨0x801010, 0x100, 8, 0x10000000000, 1, .cellar, 0x0#32,
    [⟨0, 32, .live, .wc, .asWritten⟩]⟩,
  ⟨0x801014, 0x100, 8, 0x10000000000, 1, .cellar, 0x0#32,
    [⟨0, 32, .live, .wc, .asWritten⟩]⟩,
  ⟨0x801018, 0x100, 8, 0x10000000000, 1, .cellar, 0x0#32,
    [⟨0, 32, .live, .wc, .asWritten⟩]⟩,
  ⟨0x80101c, 0x100, 8, 0x10000000000, 1, .cellar, 0x0#32,
    [⟨0, 32, .live, .wc, .asWritten⟩]⟩,
  ⟨0x801020, 0x100, 8, 0x10000000000, 1, .cellar, 0x0#32,
    [⟨0, 32, .live, .wc, .asWritten⟩]⟩,
  ⟨0x801028, 0x100, 8, 0x10000000000, 1, .cellar, 0x0#32,
    [⟨0, 32, .live, .wc, .asWritten⟩]⟩]

/-- Chapter 08. -/
def regs08 : List RegDef := [
  ⟨0x900000, 0x10000000000, 1, 0x10000000000, 1, .none, 0x14#32,
    [⟨0, 8, .live, .rw, .asWritten⟩, ⟨16, 16, .live, .rw, .asWritten⟩]⟩,
  ⟨0x900010, 0x10000000000, 1, 0x10000000000, 1, .none, 0x0#32,
    [⟨0, 32, .live, .wc, .asWritten⟩]⟩,
  ⟨0x900014, 0x10000000000, 1, 0x10000000000, 1, .none, 0x0#32,
    [⟨0, 32, .live, .wc, .asWritten⟩]⟩,
  ⟨0x900018, 0x10000000000, 1, 0x10000000000, 1, .none, 0x0#32,
    [⟨0, 32, .live, .wc, .asWritten⟩]⟩,
  ⟨0x90001c, 0x10000000000, 1, 0x10000000000, 1, .none, 0x0#32,
    [⟨0, 32, .live, .wc, .asWritten⟩]⟩,
  ⟨0x900020, 0x10000000000, 1, 0x10000000000, 1, .none, 0x0#32,
    [⟨0, 32, .live, .wc, .asWritten⟩]⟩,
  ⟨0x900024, 0x10000000000, 1, 0x10000000000, 1, .none, 0x0#32,
    [⟨0, 32, .live, .wc, .asWritten⟩]⟩,
  ⟨0x900040, 0x10000000000, 1, 0x10000000000, 1, .none, 0x0#32,
    [⟨0, 4, .live, .wc, .asWritten⟩, ⟨4, 2, .live, .wc, .asWritten⟩, ⟨8, 9, .live, .wc, .asWritten⟩, ⟨20, 4, .live, .wc, .asWritten⟩, ⟨24, 8, .live, .wc, .asWritten⟩]⟩,
  ⟨0x900044, 0x10000000000, 1, 0x10000000000, 1, .none, 0x0#32,
    [⟨0, 18, .live, .wc, .asWritten⟩]⟩,
  ⟨0x900048, 0x10000000000, 1, 0x10000000000, 1, .none, 0x0#32,
    [⟨0, 32, .live, .wc, .asWritten⟩]⟩,
  ⟨0x90004c, 0x10000000000, 1, 0x10000000000, 1, .none, 0x0#32,
    [⟨0, 32, .live, .wc, .asWritten⟩]⟩,
  ⟨0x900050, 0x10000000000, 1, 0x10000000000, 1, .none, 0x0#32,
    [⟨0, 32, .live, .wc, .asWritten⟩]⟩,
  ⟨0x901004, 0x20, 96, 0x10000000000, 1, .none, 0x0#32,
    [⟨0, 32, .live, .wc, .asWritten⟩]⟩,
  ⟨0x901008, 0x20, 96, 0x10000000000, 1, .none, 0x0#32,
    [⟨0, 32, .live, .wc, .asWritten⟩]⟩,
  ⟨0x90100c, 0x20, 96, 0x10000000000, 1, .none, 0x0#32,
    [⟨0, 32, .live, .wc, .asWritten⟩]⟩,
  ⟨0x901010, 0x20, 96, 0x10000000000, 1, .none, 0x0#32,
    [⟨0, 32, .live, .wc, .asWritten⟩]⟩]

/-- Chapter 09. -/
def regs09 : List RegDef := [
  ⟨0x980000, 0x10000000000, 1, 0x10000000000, 1, .none, 0x3e80014#32,
    [⟨0, 8, .live, .rw, .asWritten⟩, ⟨16, 16, .live, .rw, .zeroAs 1⟩]⟩,
  ⟨0x980010, 0x10000000000, 1, 0x10000000000, 1, .none, 0x0#32,
    [⟨0, 32, .live, .wc, .asWritten⟩]⟩,
  ⟨0x980014, 0x10000000000, 1, 0x10000000000, 1, .none, 0x0#32,
    [⟨0, 32, .live, .wc, .asWritten⟩]⟩,
  ⟨0x980018, 0x10000000000, 1, 0x10000000000, 1, .none, 0x0#32,
    [⟨0, 32, .live, .wc, .asWritten⟩]⟩,
  ⟨0x1050100, 0x80000, 96, 0x10000000000, 1, .none, 0x0#32,
    [⟨0, 32, .live, .wc, .asWritten⟩]⟩,
  ⟨0x1050104, 0x80000, 96, 0x10000000000, 1, .none, 0x0#32,
    [⟨0, 32, .live, .wc, .asWritten⟩]⟩,
  ⟨0x1050108, 0x80000, 96, 0x10000000000, 1, .none, 0x0#32,
    [⟨0, 32, .live, .wc, .asWritten⟩]⟩,
  ⟨0x105010c, 0x80000, 96, 0x10000000000, 1, .none, 0x0#32,
    [⟨0, 32, .live, .wc, .asWritten⟩]⟩,
  ⟨0x1050110, 0x80000, 96, 0x10000000000, 1, .none, 0x0#32,
    [⟨0, 32, .live, .wc, .asWritten⟩]⟩,
  ⟨0x1050114, 0x80000, 96, 0x10000000000, 1, .none, 0x0#32,
    [⟨0, 32, .live, .wc, .asWritten⟩]⟩,
  ⟨0x1050118, 0x80000, 96, 0x10000000000, 1, .none, 0x0#32,
    [⟨0, 32, .live, .wc, .asWritten⟩]⟩,
  ⟨0x105011c, 0x80000, 96, 0x10000000000, 1, .none, 0x0#32,
    [⟨0, 32, .live, .wc, .asWritten⟩]⟩,
  ⟨0x1050120, 0x80000, 96, 0x10000000000, 1, .none, 0x0#32,
    [⟨0, 32, .live, .wc, .asWritten⟩]⟩,
  ⟨0x1050124, 0x80000, 96, 0x10000000000, 1, .none, 0x0#32,
    [⟨0, 32, .live, .wc, .asWritten⟩]⟩]

/-- Chapter 10. -/
def regs10 : List RegDef := [
  ⟨0xa00000, 0x10000000000, 1, 0x10000000000, 1, .none, 0x501#32,
    [⟨0, 2, .live, .rw, .asWritten⟩, ⟨8, 8, .live, .rw, .asWritten⟩]⟩,
  ⟨0xa00004, 0x10000000000, 1, 0x10000000000, 1, .none, 0x10000#32,
    [⟨0, 16, .step, .rw, .asWritten⟩, ⟨16, 8, .step, .rw, .asWritten⟩]⟩,
  ⟨0xa00008, 0x10000000000, 1, 0x10000000000, 1, .none, 0x100400#32,
    [⟨0, 16, .step, .rw, .asWritten⟩, ⟨16, 16, .step, .rw, .asWritten⟩]⟩,
  ⟨0xa0000c, 0x10000000000, 1, 0x10000000000, 1, .none, 0x400000#32,
    [⟨0, 16, .step, .rw, .asWritten⟩, ⟨16, 16, .step, .rw, .asWritten⟩]⟩,
  ⟨0xa00014, 0x10000000000, 1, 0x10000000000, 1, .none, 0x0#32,
    [⟨0, 16, .live, .rw, .asWritten⟩, ⟨16, 16, .live, .rw, .asWritten⟩]⟩,
  ⟨0xa00018, 0x10000000000, 1, 0x10000000000, 1, .none, 0x0#32,
    [⟨0, 13, .live, .rw, .asWritten⟩]⟩,
  ⟨0xa00040, 0x10000000000, 1, 0x10000000000, 1, .none, 0x0#32,
    [⟨0, 32, .live, .wc, .asWritten⟩]⟩,
  ⟨0xa00044, 0x10000000000, 1, 0x10000000000, 1, .none, 0x0#32,
    [⟨0, 32, .live, .wc, .asWritten⟩]⟩,
  ⟨0xa00048, 0x10000000000, 1, 0x10000000000, 1, .none, 0x0#32,
    [⟨0, 32, .live, .wc, .asWritten⟩]⟩,
  ⟨0xa0004c, 0x10000000000, 1, 0x10000000000, 1, .none, 0x0#32,
    [⟨0, 32, .live, .wc, .asWritten⟩]⟩,
  ⟨0xa00050, 0x10000000000, 1, 0x10000000000, 1, .none, 0x0#32,
    [⟨0, 32, .live, .wc, .asWritten⟩]⟩,
  ⟨0xa00054, 0x10000000000, 1, 0x10000000000, 1, .none, 0x0#32,
    [⟨0, 32, .live, .wc, .asWritten⟩]⟩,
  ⟨0xa00058, 0x10000000000, 1, 0x10000000000, 1, .none, 0x0#32,
    [⟨0, 32, .live, .wc, .asWritten⟩]⟩,
  ⟨0xa0005c, 0x10000000000, 1, 0x10000000000, 1, .none, 0x0#32,
    [⟨0, 32, .live, .wc, .asWritten⟩]⟩,
  ⟨0xa00060, 0x10000000000, 1, 0x10000000000, 1, .none, 0x0#32,
    [⟨0, 32, .live, .wc, .asWritten⟩]⟩,
  ⟨0xa00064, 0x10000000000, 1, 0x10000000000, 1, .none, 0x0#32,
    [⟨0, 32, .live, .wc, .asWritten⟩]⟩,
  ⟨0xa01014, 0x40, 96, 0x10000000000, 1, .none, 0x0#32,
    [⟨0, 32, .live, .wc, .asWritten⟩]⟩,
  ⟨0xa01018, 0x40, 96, 0x10000000000, 1, .none, 0x0#32,
    [⟨0, 32, .live, .wc, .asWritten⟩]⟩,
  ⟨0xa0101c, 0x40, 96, 0x10000000000, 1, .none, 0x0#32,
    [⟨0, 32, .live, .wc, .asWritten⟩]⟩,
  ⟨0xa01020, 0x40, 96, 0x10000000000, 1, .none, 0x0#32,
    [⟨0, 32, .live, .wc, .asWritten⟩]⟩,
  ⟨0xa01024, 0x40, 96, 0x10000000000, 1, .none, 0x0#32,
    [⟨0, 32, .live, .wc, .asWritten⟩]⟩]

/-- Chapter 11. -/
def regs11 : List RegDef := [
  ⟨0x904000, 0x10000000000, 1, 0x10000000000, 1, .none, 0x800#32,
    [⟨0, 13, .live, .rw, .asWritten⟩]⟩,
  ⟨0x904010, 0x10000000000, 1, 0x10000000000, 1, .none, 0x0#32,
    [⟨0, 32, .live, .wc, .asWritten⟩]⟩,
  ⟨0x904014, 0x10000000000, 1, 0x10000000000, 1, .none, 0x0#32,
    [⟨0, 32, .live, .wc, .asWritten⟩]⟩,
  ⟨0x904018, 0x10000000000, 1, 0x10000000000, 1, .none, 0x0#32,
    [⟨0, 32, .live, .wc, .asWritten⟩]⟩,
  ⟨0x90401c, 0x10000000000, 1, 0x10000000000, 1, .none, 0x0#32,
    [⟨0, 32, .live, .wc, .asWritten⟩]⟩,
  ⟨0x904020, 0x10000000000, 1, 0x10000000000, 1, .none, 0x0#32,
    [⟨0, 32, .live, .wc, .asWritten⟩]⟩,
  ⟨0x904024, 0x10000000000, 1, 0x10000000000, 1, .none, 0x0#32,
    [⟨0, 32, .live, .wc, .asWritten⟩]⟩,
  ⟨0x904028, 0x10000000000, 1, 0x10000000000, 1, .none, 0x0#32,
    [⟨0, 32, .live, .wc, .asWritten⟩]⟩,
  ⟨0x90402c, 0x10000000000, 1, 0x10000000000, 1, .none, 0x0#32,
    [⟨0, 32, .live, .wc, .asWritten⟩]⟩,
  ⟨0x904030, 0x10000000000, 1, 0x10000000000, 1, .none, 0x0#32,
    [⟨0, 32, .live, .wc, .asWritten⟩]⟩,
  ⟨0x904034, 0x10000000000, 1, 0x10000000000, 1, .none, 0x0#32,
    [⟨0, 32, .live, .wc, .asWritten⟩]⟩]

/-- Chapter 12. -/
def regs12 : List RegDef := [
  ⟨0xb00000, 0x10000000000, 1, 0x10000000000, 1, .none, 0x0#32,
    [⟨0, 14, .live, .rw, .asWritten⟩]⟩,
  ⟨0xb00008, 0x10000000000, 1, 0x10000000000, 1, .none, 0x0#32,
    [⟨0, 32, .live, .rw, .asWritten⟩]⟩,
  ⟨0xb0000c, 0x10000000000, 1, 0x10000000000, 1, .none, 0x0#32,
    [⟨0, 32, .live, .rw, .asWritten⟩]⟩,
  ⟨0xb00010, 0x10000000000, 1, 0x10000000000, 1, .none, 0x0#32,
    [⟨0, 21, .live, .rw, .asWritten⟩]⟩,
  ⟨0xb00014, 0x10000000000, 1, 0x10000000000, 1, .none, 0x0#32,
    [⟨0, 20, .live, .rw, .asWritten⟩]⟩,
  ⟨0xb00040, 0x10000000000, 1, 0x10000000000, 1, .none, 0x0#32,
    [⟨0, 32, .live, .wc, .asWritten⟩]⟩,
  ⟨0xb00044, 0x10000000000, 1, 0x10000000000, 1, .none, 0x0#32,
    [⟨0, 32, .live, .wc, .asWritten⟩]⟩,
  ⟨0xb00048, 0x10000000000, 1, 0x10000000000, 1, .none, 0x0#32,
    [⟨0, 32, .live, .wc, .asWritten⟩]⟩,
  ⟨0xb0004c, 0x10000000000, 1, 0x10000000000, 1, .none, 0x0#32,
    [⟨0, 32, .live, .wc, .asWritten⟩]⟩,
  ⟨0xb00050, 0x10000000000, 1, 0x10000000000, 1, .none, 0x0#32,
    [⟨0, 32, .live, .wc, .asWritten⟩]⟩,
  ⟨0xb00054, 0x10000000000, 1, 0x10000000000, 1, .none, 0x0#32,
    [⟨0, 32, .live, .wc, .asWritten⟩]⟩,
  ⟨0xb00058, 0x10000000000, 1, 0x10000000000, 1, .none, 0x0#32,
    [⟨0, 32, .live, .wc, .asWritten⟩]⟩,
  ⟨0xb0005c, 0x10000000000, 1, 0x10000000000, 1, .none, 0x0#32,
    [⟨0, 32, .live, .wc, .asWritten⟩]⟩,
  ⟨0xb00060, 0x10000000000, 1, 0x10000000000, 1, .none, 0x0#32,
    [⟨0, 32, .live, .wc, .asWritten⟩]⟩,
  ⟨0xb00064, 0x10000000000, 1, 0x10000000000, 1, .none, 0x0#32,
    [⟨0, 32, .live, .wc, .asWritten⟩]⟩,
  ⟨0xb00068, 0x10000000000, 1, 0x10000000000, 1, .none, 0x0#32,
    [⟨0, 32, .live, .wc, .asWritten⟩]⟩,
  ⟨0x1060004, 0x80000, 96, 0x10000000000, 1, .none, 0x0#32,
    [⟨0, 32, .live, .wc, .asWritten⟩]⟩,
  ⟨0x1060008, 0x80000, 96, 0x10000000000, 1, .none, 0x0#32,
    [⟨0, 32, .live, .wc, .asWritten⟩]⟩,
  ⟨0x106000c, 0x80000, 96, 0x10000000000, 1, .none, 0x0#32,
    [⟨0, 32, .live, .wc, .asWritten⟩]⟩,
  ⟨0x1060010, 0x80000, 96, 0x10000000000, 1, .none, 0x0#32,
    [⟨0, 32, .live, .wc, .asWritten⟩]⟩,
  ⟨0x1060014, 0x80000, 96, 0x10000000000, 1, .none, 0x0#32,
    [⟨0, 32, .live, .wc, .asWritten⟩]⟩]

/-- Chapter 13. -/
def regs13 : List RegDef := [
  ⟨0xc00000, 0x10000000000, 1, 0x10000000000, 1, .none, 0x644000#32,
    [⟨0, 16, .step, .rw, .zeroAs 256⟩, ⟨16, 16, .live, .rw, .asWritten⟩]⟩,
  ⟨0xc00010, 0x10000000000, 1, 0x10000000000, 1, .none, 0x0#32,
    [⟨0, 16, .live, .rw, .asWritten⟩]⟩,
  ⟨0xc00100, 0x40, 16, 0x10000000000, 1, .none, 0xbe0000#32,
    [⟨0, 17, .step, .rw, .asWritten⟩, ⟨17, 8, .step, .rw, .asWritten⟩]⟩,
  ⟨0xc00104, 0x40, 16, 0x10000000000, 1, .none, 0x400#32,
    [⟨0, 16, .step, .rw, .asWritten⟩, ⟨16, 7, .step, .rw, .asWritten⟩]⟩,
  ⟨0xc00108, 0x40, 16, 0x10000000000, 1, .none, 0x0#32,
    [⟨0, 17, .step, .rw, .asWritten⟩]⟩,
  ⟨0xc0010c, 0x40, 16, 0x10000000000, 1, .none, 0x1000#32,
    [⟨0, 17, .step, .rw, .zeroAs 1⟩]⟩,
  ⟨0xc00120, 0x40, 16, 0x10000000000, 1, .none, 0x0#32,
    [⟨0, 32, .live, .wc, .asWritten⟩]⟩,
  ⟨0xc00124, 0x40, 16, 0x10000000000, 1, .none, 0x0#32,
    [⟨0, 32, .live, .wc, .asWritten⟩]⟩,
  ⟨0xc00128, 0x40, 16, 0x10000000000, 1, .none, 0x0#32,
    [⟨0, 32, .live, .wc, .asWritten⟩]⟩,
  ⟨0xc0012c, 0x40, 16, 0x10000000000, 1, .none, 0x0#32,
    [⟨0, 32, .live, .wc, .asWritten⟩]⟩,
  ⟨0xc00130, 0x40, 16, 0x10000000000, 1, .none, 0x0#32,
    [⟨0, 32, .live, .wc, .asWritten⟩]⟩,
  ⟨0xc00134, 0x40, 16, 0x10000000000, 1, .none, 0x0#32,
    [⟨0, 32, .live, .wc, .asWritten⟩]⟩,
  ⟨0xc00138, 0x40, 16, 0x10000000000, 1, .none, 0x0#32,
    [⟨0, 32, .live, .wc, .asWritten⟩]⟩,
  ⟨0xc0013c, 0x40, 16, 0x10000000000, 1, .none, 0x0#32,
    [⟨0, 32, .live, .wc, .asWritten⟩]⟩]

/-- Chapter 14. -/
def regs14 : List RegDef := [
  ⟨0xc00808, 0x20, 16, 0x10000000000, 1, .none, 0x8000#32,
    [⟨0, 18, .step, .rw, .zeroAs 256⟩]⟩,
  ⟨0xc00814, 0x20, 16, 0x10000000000, 1, .none, 0x0#32,
    [⟨0, 32, .live, .wc, .asWritten⟩]⟩,
  ⟨0xc00818, 0x20, 16, 0x10000000000, 1, .none, 0x0#32,
    [⟨0, 32, .live, .wc, .asWritten⟩]⟩]

/-- Chapter 15. -/
def regs15 : List RegDef := [
  ⟨0xd80000, 0x10000000000, 1, 0x10000000000, 1, .none, 0x1#32,
    [⟨0, 1, .live, .rw, .asWritten⟩]⟩,
  ⟨0xd80010, 0x10000000000, 1, 0x10000000000, 1, .none, 0x0#32,
    [⟨0, 32, .live, .wc, .asWritten⟩]⟩,
  ⟨0xd80014, 0x10000000000, 1, 0x10000000000, 1, .none, 0x0#32,
    [⟨0, 32, .live, .wc, .asWritten⟩]⟩,
  ⟨0xd80018, 0x10000000000, 1, 0x10000000000, 1, .none, 0x0#32,
    [⟨0, 32, .live, .wc, .asWritten⟩]⟩,
  ⟨0xd8001c, 0x10000000000, 1, 0x10000000000, 1, .none, 0x0#32,
    [⟨0, 32, .live, .wc, .asWritten⟩]⟩,
  ⟨0xd80020, 0x10000000000, 1, 0x10000000000, 1, .none, 0x0#32,
    [⟨0, 32, .live, .wc, .asWritten⟩]⟩,
  ⟨0xd80104, 0x40, 4, 0x10000000000, 1, .none, 0x0#32,
    [⟨0, 32, .live, .wc, .asWritten⟩]⟩,
  ⟨0xd80108, 0x40, 4, 0x10000000000, 1, .none, 0x0#32,
    [⟨0, 32, .live, .wc, .asWritten⟩]⟩,
  ⟨0xd8010c, 0x40, 4, 0x10000000000, 1, .none, 0x0#32,
    [⟨0, 32, .live, .wc, .asWritten⟩]⟩,
  ⟨0xd80110, 0x40, 4, 0x10000000000, 1, .none, 0x0#32,
    [⟨0, 32, .live, .wc, .asWritten⟩]⟩,
  ⟨0xd80114, 0x40, 4, 0x10000000000, 1, .none, 0x0#32,
    [⟨0, 32, .live, .wc, .asWritten⟩]⟩,
  ⟨0xd80118, 0x40, 4, 0x10000000000, 1, .none, 0x0#32,
    [⟨0, 32, .live, .wc, .asWritten⟩]⟩,
  ⟨0xd8011c, 0x40, 4, 0x10000000000, 1, .none, 0x0#32,
    [⟨0, 32, .live, .wc, .asWritten⟩]⟩,
  ⟨0xd80120, 0x40, 4, 0x10000000000, 1, .none, 0x0#32,
    [⟨0, 32, .live, .wc, .asWritten⟩]⟩,
  ⟨0xd80124, 0x40, 4, 0x10000000000, 1, .none, 0x0#32,
    [⟨0, 32, .live, .wc, .asWritten⟩]⟩,
  ⟨0xd81004, 0x10, 64, 0x10000000000, 1, .none, 0x0#32,
    [⟨0, 32, .live, .wc, .asWritten⟩]⟩,
  ⟨0xd81008, 0x10, 64, 0x10000000000, 1, .none, 0x0#32,
    [⟨0, 32, .live, .wc, .asWritten⟩]⟩]

/-- Chapter 16. -/
def regs16 : List RegDef := [
  ⟨0xd00010, 0x10000000000, 1, 0x10000000000, 1, .ring, 0x0#32,
    [⟨0, 32, .live, .wc, .asWritten⟩]⟩,
  ⟨0xd00014, 0x10000000000, 1, 0x10000000000, 1, .ring, 0x0#32,
    [⟨0, 32, .live, .wc, .asWritten⟩]⟩,
  ⟨0xd00018, 0x10000000000, 1, 0x10000000000, 1, .ring, 0x0#32,
    [⟨0, 32, .live, .wc, .asWritten⟩]⟩,
  ⟨0xd0001c, 0x10000000000, 1, 0x10000000000, 1, .ring, 0x0#32,
    [⟨0, 32, .live, .wc, .asWritten⟩]⟩,
  ⟨0xd00020, 0x10000000000, 1, 0x10000000000, 1, .ring, 0x0#32,
    [⟨0, 32, .live, .wc, .asWritten⟩]⟩,
  ⟨0xd00024, 0x10000000000, 1, 0x10000000000, 1, .ring, 0x0#32,
    [⟨0, 32, .live, .wc, .asWritten⟩]⟩,
  ⟨0xd10000, 0x40, 4096, 0x10000000000, 1, .ring, 0x0#32,
    [⟨12, 20, .static, .rw, .asWritten⟩]⟩,
  ⟨0xd10004, 0x40, 4096, 0x10000000000, 1, .ring, 0x0#32,
    [⟨0, 32, .static, .rw, .asWritten⟩]⟩,
  ⟨0xd10008, 0x40, 4096, 0x10000000000, 1, .ring, 0x60#32,
    [⟨0, 3, .static, .rw, .asWritten⟩, ⟨4, 5, .static, .rw, .asWritten⟩, ⟨16, 6, .static, .rw, .asWritten⟩, ⟨24, 6, .static, .rw, .asWritten⟩]⟩,
  ⟨0xd1000c, 0x40, 4096, 0x10000000000, 1, .ring, 0x0#32,
    [⟨0, 1, .live, .rw, .asWritten⟩, ⟨4, 2, .live, .rw, .asWritten⟩, ⟨16, 11, .static, .rw, .asWritten⟩]⟩,
  ⟨0xd10010, 0x40, 4096, 0x10000000000, 1, .ring, 0x0#32,
    [⟨3, 29, .static, .rw, .asWritten⟩]⟩,
  ⟨0xd10014, 0x40, 4096, 0x10000000000, 1, .ring, 0x0#32,
    [⟨0, 32, .static, .rw, .asWritten⟩]⟩,
  ⟨0xd10018, 0x40, 4096, 0x10000000000, 1, .ring, 0x3fe#32,
    [⟨1, 9, .static, .rw, .asWritten⟩]⟩,
  ⟨0xd10024, 0x40, 4096, 0x10000000000, 1, .ring, 0x0#32,
    [⟨0, 32, .live, .wc, .asWritten⟩]⟩,
  ⟨0xd10028, 0x40, 4096, 0x10000000000, 1, .ring, 0x0#32,
    [⟨0, 32, .live, .wc, .asWritten⟩]⟩,
  ⟨0xd1002c, 0x40, 4096, 0x10000000000, 1, .ring, 0x0#32,
    [⟨0, 32, .live, .wc, .asWritten⟩]⟩,
  ⟨0xd10030, 0x40, 4096, 0x10000000000, 1, .ring, 0x0#32,
    [⟨0, 32, .live, .wc, .asWritten⟩]⟩,
  ⟨0xd10034, 0x40, 4096, 0x10000000000, 1, .ring, 0x0#32,
    [⟨0, 32, .live, .wc, .asWritten⟩]⟩,
  ⟨0xd10038, 0x40, 4096, 0x10000000000, 1, .ring, 0x0#32,
    [⟨0, 32, .live, .wc, .asWritten⟩]⟩]

/-- Chapter 17. -/
def regs17 : List RegDef := [
  ⟨0xe00000, 0x10000000000, 1, 0x10000000000, 1, .yilgil, 0x111#32,
    [⟨0, 4, .static, .rw, .asWritten⟩, ⟨4, 4, .static, .rw, .asWritten⟩, ⟨8, 4, .static, .rw, .asWritten⟩, ⟨16, 3, .static, .rw, .asWritten⟩, ⟨20, 3, .static, .rw, .asWritten⟩, ⟨24, 2, .static, .rw, .asWritten⟩]⟩,
  ⟨0xe00004, 0x10000000000, 1, 0x10000000000, 1, .yilgil, 0x640a08#32,
    [⟨0, 8, .live, .rw, .zeroAs 1⟩, ⟨8, 8, .live, .rw, .asWritten⟩, ⟨16, 16, .static, .rw, .zeroAs 100⟩]⟩,
  ⟨0xe00008, 0x10000000000, 1, 0x10000000000, 1, .yilgil, 0xc80032#32,
    [⟨0, 16, .live, .rw, .zeroAs 1⟩, ⟨16, 16, .live, .rw, .zeroAs 1⟩]⟩,
  ⟨0xe00040, 0x10000000000, 1, 0x10000000000, 1, .yilgil, 0x0#32,
    [⟨0, 32, .live, .wc, .asWritten⟩]⟩,
  ⟨0xe00044, 0x10000000000, 1, 0x10000000000, 1, .yilgil, 0x0#32,
    [⟨0, 32, .live, .wc, .asWritten⟩]⟩,
  ⟨0xe00048, 0x10000000000, 1, 0x10000000000, 1, .yilgil, 0x0#32,
    [⟨0, 32, .live, .wc, .asWritten⟩]⟩,
  ⟨0xe0004c, 0x10000000000, 1, 0x10000000000, 1, .yilgil, 0x0#32,
    [⟨0, 32, .live, .wc, .asWritten⟩]⟩,
  ⟨0xe00050, 0x10000000000, 1, 0x10000000000, 1, .yilgil, 0x0#32,
    [⟨0, 32, .live, .wc, .asWritten⟩]⟩,
  ⟨0xe00054, 0x10000000000, 1, 0x10000000000, 1, .yilgil, 0x0#32,
    [⟨0, 32, .live, .wc, .asWritten⟩]⟩,
  ⟨0xe00058, 0x10000000000, 1, 0x10000000000, 1, .yilgil, 0x0#32,
    [⟨0, 32, .live, .wc, .asWritten⟩]⟩,
  ⟨0xe0005c, 0x10000000000, 1, 0x10000000000, 1, .yilgil, 0x0#32,
    [⟨0, 32, .live, .wc, .asWritten⟩]⟩,
  ⟨0xe00060, 0x10000000000, 1, 0x10000000000, 1, .yilgil, 0x0#32,
    [⟨0, 32, .live, .wc, .asWritten⟩]⟩,
  ⟨0xe00100, 0x4, 16, 0x10000000000, 1, .yilgil, 0x0#32,
    [⟨0, 25, .live, .rw, .asWritten⟩, ⟨31, 1, .live, .rw, .asWritten⟩]⟩,
  ⟨0xe0100c, 0x40, 24, 0x10000000000, 1, .yilgil, 0x0#32,
    [⟨0, 32, .live, .wc, .asWritten⟩]⟩,
  ⟨0xe01010, 0x40, 24, 0x10000000000, 1, .yilgil, 0x0#32,
    [⟨0, 32, .live, .wc, .asWritten⟩]⟩,
  ⟨0xe01014, 0x40, 24, 0x10000000000, 1, .yilgil, 0x0#32,
    [⟨0, 32, .live, .wc, .asWritten⟩]⟩,
  ⟨0xe01018, 0x40, 24, 0x10000000000, 1, .yilgil, 0x0#32,
    [⟨0, 32, .live, .wc, .asWritten⟩]⟩,
  ⟨0xe0101c, 0x40, 24, 0x10000000000, 1, .yilgil, 0x0#32,
    [⟨0, 32, .live, .wc, .asWritten⟩]⟩,
  ⟨0xe01020, 0x40, 24, 0x10000000000, 1, .yilgil, 0x0#32,
    [⟨0, 32, .live, .wc, .asWritten⟩]⟩,
  ⟨0xe01024, 0x40, 24, 0x10000000000, 1, .yilgil, 0x0#32,
    [⟨0, 32, .live, .wc, .asWritten⟩]⟩]

/-- Chapter 18. -/
def regs18 : List RegDef := [
  ⟨0x200000, 0x10000000000, 1, 0x10000000000, 1, .none, 0x0#32,
    [⟨0, 3, .live, .rw, .asWritten⟩]⟩,
  ⟨0x200040, 0x4, 8, 0x10000000000, 1, .none, 0x0#32,
    [⟨0, 32, .live, .rw, .asWritten⟩]⟩,
  ⟨0x200080, 0x10000000000, 1, 0x10000000000, 1, .none, 0x0#32,
    [⟨0, 4, .live, .rw, .asWritten⟩, ⟨31, 1, .live, .rw, .asWritten⟩]⟩,
  ⟨0x2000a0, 0x10000000000, 1, 0x10000000000, 1, .none, 0x0#32,
    [⟨0, 32, .live, .wc, .asWritten⟩]⟩,
  ⟨0x2000a4, 0x10000000000, 1, 0x10000000000, 1, .none, 0x0#32,
    [⟨0, 32, .live, .wc, .asWritten⟩]⟩,
  ⟨0x2000a8, 0x10000000000, 1, 0x10000000000, 1, .none, 0x0#32,
    [⟨0, 32, .live, .wc, .asWritten⟩]⟩,
  ⟨0x2000ac, 0x10000000000, 1, 0x10000000000, 1, .none, 0x0#32,
    [⟨0, 32, .live, .wc, .asWritten⟩]⟩,
  ⟨0x2000b0, 0x10000000000, 1, 0x10000000000, 1, .none, 0x0#32,
    [⟨0, 32, .live, .wc, .asWritten⟩]⟩,
  ⟨0x2000b4, 0x10000000000, 1, 0x10000000000, 1, .none, 0x0#32,
    [⟨0, 32, .live, .wc, .asWritten⟩]⟩,
  ⟨0x2000b8, 0x10000000000, 1, 0x10000000000, 1, .none, 0x0#32,
    [⟨0, 32, .live, .wc, .asWritten⟩]⟩,
  ⟨0x2000bc, 0x10000000000, 1, 0x10000000000, 1, .none, 0x0#32,
    [⟨0, 32, .live, .wc, .asWritten⟩]⟩,
  ⟨0x2000c0, 0x10000000000, 1, 0x10000000000, 1, .none, 0x0#32,
    [⟨0, 32, .live, .wc, .asWritten⟩]⟩,
  ⟨0x2000c4, 0x10000000000, 1, 0x10000000000, 1, .none, 0x0#32,
    [⟨0, 32, .live, .wc, .asWritten⟩]⟩,
  ⟨0x2000c8, 0x10000000000, 1, 0x10000000000, 1, .none, 0x0#32,
    [⟨0, 32, .live, .wc, .asWritten⟩]⟩,
  ⟨0x2000cc, 0x10000000000, 1, 0x10000000000, 1, .none, 0x0#32,
    [⟨0, 32, .live, .wc, .asWritten⟩]⟩]

/-- Chapter 19. -/
def regs19 : List RegDef := [
  ⟨0xf00008, 0x10000000000, 1, 0x10000000000, 1, .none, 0x0#32,
    [⟨0, 16, .live, .wc, .asWritten⟩, ⟨16, 16, .live, .wc, .asWritten⟩]⟩,
  ⟨0xf00010, 0x10000000000, 1, 0x10000000000, 1, .none, 0x2d14#32,
    [⟨0, 8, .live, .rw, .asWritten⟩, ⟨8, 8, .live, .rw, .asWritten⟩]⟩,
  ⟨0xf00020, 0x10000000000, 1, 0x10000000000, 1, .none, 0x0#32,
    [⟨0, 8, .live, .wc, .asWritten⟩, ⟨8, 8, .live, .wc, .asWritten⟩, ⟨31, 1, .live, .wc, .asWritten⟩]⟩,
  ⟨0xf00040, 0x10000000000, 1, 0x10000000000, 1, .none, 0x0#32,
    [⟨0, 32, .live, .wc, .asWritten⟩]⟩,
  ⟨0xf00044, 0x10000000000, 1, 0x10000000000, 1, .none, 0x0#32,
    [⟨0, 32, .live, .wc, .asWritten⟩]⟩,
  ⟨0xf00048, 0x10000000000, 1, 0x10000000000, 1, .none, 0x0#32,
    [⟨0, 32, .live, .wc, .asWritten⟩]⟩,
  ⟨0xf0004c, 0x10000000000, 1, 0x10000000000, 1, .none, 0x0#32,
    [⟨0, 32, .live, .wc, .asWritten⟩]⟩,
  ⟨0xf00050, 0x10000000000, 1, 0x10000000000, 1, .none, 0x0#32,
    [⟨0, 32, .live, .wc, .asWritten⟩]⟩,
  ⟨0xf00054, 0x10000000000, 1, 0x10000000000, 1, .none, 0x0#32,
    [⟨0, 32, .live, .wc, .asWritten⟩]⟩,
  ⟨0xf00058, 0x10000000000, 1, 0x10000000000, 1, .none, 0x0#32,
    [⟨0, 32, .live, .wc, .asWritten⟩]⟩,
  ⟨0xf0005c, 0x10000000000, 1, 0x10000000000, 1, .none, 0x0#32,
    [⟨0, 32, .live, .wc, .asWritten⟩]⟩,
  ⟨0xf00100, 0x4, 96, 0x10000000000, 1, .none, 0x0#32,
    [⟨8, 8, .live, .wc, .asWritten⟩]⟩]

/-- Chapter 20. -/
def regs20 : List RegDef := [
  ⟨0x100000, 0x10000000000, 1, 0x10000000000, 1, .none, 0x0#32,
    [⟨0, 1, .live, .rw, .asWritten⟩, ⟨16, 16, .live, .rw, .asWritten⟩]⟩,
  ⟨0x100004, 0x10000000000, 1, 0x10000000000, 1, .none, 0x0#32,
    [⟨0, 1, .live, .rw, .asWritten⟩]⟩,
  ⟨0x100008, 0x10000000000, 1, 0x10000000000, 1, .none, 0x0#32,
    [⟨0, 1, .live, .rw, .asWritten⟩]⟩,
  ⟨0x10001c, 0x10000000000, 1, 0x10000000000, 1, .none, 0x3e8#32,
    [⟨0, 16, .live, .rw, .zeroAs 1⟩]⟩,
  ⟨0x100028, 0x10000000000, 1, 0x10000000000, 1, .none, 0x0#32,
    [⟨0, 32, .live, .wc, .asWritten⟩]⟩]

/-- Chapter 21. -/
def regs21 : List RegDef := [
  ⟨0x1040004, 0x80000, 96, 0x10000000000, 1, .none, 0x0#32,
    [⟨0, 32, .live, .wc, .asWritten⟩]⟩,
  ⟨0x1040008, 0x80000, 96, 0x10000000000, 1, .none, 0x0#32,
    [⟨0, 32, .live, .wc, .asWritten⟩]⟩,
  ⟨0x104000c, 0x80000, 96, 0x10000000000, 1, .none, 0x0#32,
    [⟨0, 32, .live, .wc, .asWritten⟩]⟩,
  ⟨0x1040010, 0x80000, 96, 0x10000000000, 1, .none, 0x0#32,
    [⟨0, 32, .live, .wc, .asWritten⟩]⟩,
  ⟨0x1040014, 0x80000, 96, 0x10000000000, 1, .none, 0x0#32,
    [⟨0, 32, .live, .wc, .asWritten⟩]⟩,
  ⟨0x1040018, 0x80000, 96, 0x10000000000, 1, .none, 0x0#32,
    [⟨0, 32, .live, .wc, .asWritten⟩]⟩,
  ⟨0x104001c, 0x80000, 96, 0x10000000000, 1, .none, 0x0#32,
    [⟨0, 32, .live, .wc, .asWritten⟩]⟩,
  ⟨0x4ffff000, 0x10000000000, 1, 0x10000000000, 1, .none, 0x0#32,
    [⟨27, 5, .live, .rw, .asWritten⟩]⟩,
  ⟨0x4ffff004, 0x10000000000, 1, 0x10000000000, 1, .none, 0x0#32,
    [⟨0, 32, .live, .rw, .asWritten⟩]⟩,
  ⟨0x4ffff008, 0x10000000000, 1, 0x10000000000, 1, .none, 0x0#32,
    [⟨0, 1, .live, .w1c, .asWritten⟩]⟩,
  ⟨0x4ffff00c, 0x10000000000, 1, 0x10000000000, 1, .none, 0xf000#32,
    [⟨0, 7, .live, .rw, .asWritten⟩, ⟨8, 2, .live, .rw, .asWritten⟩, ⟨12, 4, .live, .rw, .asWritten⟩]⟩,
  ⟨0x4ffff014, 0x10000000000, 1, 0x10000000000, 1, .none, 0x0#32,
    [⟨0, 32, .live, .wc, .asWritten⟩]⟩,
  ⟨0x4ffff018, 0x10000000000, 1, 0x10000000000, 1, .none, 0x0#32,
    [⟨0, 32, .live, .wc, .asWritten⟩]⟩,
  ⟨0x4ffff01c, 0x10000000000, 1, 0x10000000000, 1, .none, 0x0#32,
    [⟨0, 32, .live, .wc, .asWritten⟩]⟩,
  ⟨0x4ffff020, 0x10000000000, 1, 0x10000000000, 1, .none, 0x0#32,
    [⟨0, 32, .live, .wc, .asWritten⟩]⟩,
  ⟨0x4ffff024, 0x10000000000, 1, 0x10000000000, 1, .none, 0x0#32,
    [⟨0, 32, .live, .wc, .asWritten⟩]⟩]

/-- Every register that a write can change. -/
def regTable : List RegDef :=
  regs02 ++ regs03 ++ regs04 ++ regs05 ++ regs06 ++ regs07 ++ regs08 ++ regs09 ++ regs10 ++ regs11 ++ regs12 ++ regs13 ++ regs14 ++ regs15 ++ regs16 ++ regs17 ++ regs18 ++ regs19 ++ regs20 ++ regs21

/-- The register at an offset (R5: none where the map names none). -/
def regAt (off : Nat) : Option RegDef := regTable.find? (·.isAt off)

/-- What a register word reads after reset. -/
def resetWord (off : Nat) : W32 :=
  match regAt off with
  | some r => r.reset
  | none => 0

end Sys2Proof.Machine

/-! The field selectors, named after the fields of the spec. -/
namespace Sys2Proof.Machine.F

def stallLimitUs : Fld := ⟨0x400000, 0, 16⟩
def syncPeriodUs : Fld := ⟨0x400000, 16, 8⟩
def srcSite : Fld := ⟨0x400008, 0, 7⟩
def dstSite : Fld := ⟨0x400008, 8, 7⟩
def fabLateWrite : Fld := ⟨0x40001c, 0, 32⟩
def flitCeTotal : Fld := ⟨0x400020, 0, 32⟩
def flitUeTotal : Fld := ⟨0x400024, 0, 32⟩
def stallsTotal : Fld := ⟨0x400028, 0, 32⟩
def creditWaitUs : Fld := ⟨0x40002c, 0, 32⟩
def siteFlitCe (i : Nat) : Fld := ⟨0x401000 + 0x10 * i, 0, 32⟩
def siteFlitUe (i : Nat) : Fld := ⟨0x401004 + 0x10 * i, 0, 32⟩
def siteStalls (i : Nat) : Fld := ⟨0x401008 + 0x10 * i, 0, 32⟩
def rmConfigWaferCap : Fld := ⟨0x300000, 0, 18⟩
def rmLoanLoanPeriodUs : Fld := ⟨0x300004, 0, 8⟩
def rmLoanMatched : Fld := ⟨0x300004, 8, 1⟩
def rmLoanLoanMin : Fld := ⟨0x300004, 16, 8⟩
def rmStarveClass0 : Fld := ⟨0x300008, 0, 10⟩
def rmStarveClass1 : Fld := ⟨0x300008, 10, 10⟩
def rmStarveClass2 : Fld := ⟨0x300008, 20, 10⟩
def rmSlewPeakUp : Fld := ⟨0x300014, 0, 8⟩
def rmSlewPeakDown : Fld := ⟨0x300014, 8, 8⟩
def rmLateWrite : Fld := ⟨0x300020, 0, 32⟩
def rmLoans : Fld := ⟨0x300024, 0, 32⟩
def rmMatchedLoans : Fld := ⟨0x300028, 0, 32⟩
def rmExcursions : Fld := ⟨0x30002c, 0, 32⟩
def rmThrottleSteps : Fld := ⟨0x300030, 0, 32⟩
def deskConfigCeiling (i : Nat) : Fld := ⟨0x1010000 + 0x80000 * i, 0, 11⟩
def deskGrants (i : Nat) : Fld := ⟨0x1010020 + 0x80000 * i, 0, 32⟩
def deskHandovers (i : Nat) : Fld := ⟨0x1010024 + 0x80000 * i, 0, 32⟩
def deskTapers (i : Nat) : Fld := ⟨0x1010028 + 0x80000 * i, 0, 32⟩
def deskStarved (i : Nat) : Fld := ⟨0x101002c + 0x80000 * i, 0, 32⟩
def deskRefused (i : Nat) : Fld := ⟨0x1010030 + 0x80000 * i, 0, 32⟩
def deskCatches (i : Nat) : Fld := ⟨0x1010034 + 0x80000 * i, 0, 32⟩
def deskWaitUs (i : Nat) : Fld := ⟨0x1010038 + 0x80000 * i, 0, 32⟩
def deskWithdrawn (i : Nat) : Fld := ⟨0x101003c + 0x80000 * i, 0, 32⟩
def tierConfigDirLog2 : Fld := ⟨0x500000, 0, 5⟩
def tierDeadlineDeadlineUs : Fld := ⟨0x500004, 0, 16⟩
def tierDeadlineLateEventUs : Fld := ⟨0x500004, 16, 16⟩
def dirQueryLo : Fld := ⟨0x500010, 0, 32⟩
def dirQueryHi : Fld := ⟨0x500014, 0, 32⟩
def tierLateWrite : Fld := ⟨0x500030, 0, 32⟩
def movesUp (i : Nat) : Fld := ⟨0x501000 + 0x40 * i, 0, 32⟩
def movesDown (i : Nat) : Fld := ⟨0x501004 + 0x40 * i, 0, 32⟩
def copiesDropped (i : Nat) : Fld := ⟨0x501008 + 0x40 * i, 0, 32⟩
def placeShort (i : Nat) : Fld := ⟨0x50100c + 0x40 * i, 0, 32⟩
def lateObjects (i : Nat) : Fld := ⟨0x501010 + 0x40 * i, 0, 32⟩
def substitutions (i : Nat) : Fld := ⟨0x501014 + 0x40 * i, 0, 32⟩
def tierWaitUs (i : Nat) : Fld := ⟨0x501018 + 0x40 * i, 0, 32⟩
def tierFails (i : Nat) : Fld := ⟨0x50101c + 0x40 * i, 0, 32⟩
def heldWrites (i : Nat) : Fld := ⟨0x501020 + 0x40 * i, 0, 32⟩
def dirDenied (i : Nat) : Fld := ⟨0x501024 + 0x40 * i, 0, 32⟩
def dramConfigEccMode : Fld := ⟨0x600000, 0, 1⟩
def dramConfigRefPostpone : Fld := ⟨0x600000, 4, 4⟩
def dramConfigLaneFailLimit : Fld := ⟨0x600000, 8, 8⟩
def burstCtrlQueueDeep : Fld := ⟨0x600004, 0, 8⟩
def burstCtrlBurstIdleUs : Fld := ⟨0x600004, 8, 16⟩
def dramLateWrite : Fld := ⟨0x600010, 0, 32⟩
def regCampACap (i : Nat) : Fld := ⟨0x600100 + 0x8 * i, 16, 9⟩
def regCampBDepthKib (i : Nat) : Fld := ⟨0x600104 + 0x8 * i, 0, 16⟩
def stackStatusPeakC (i : Nat) : Fld := ⟨0x1020000 + 0x80000 * i, 16, 8⟩
def simmerEntries (i : Nat) : Fld := ⟨0x1020004 + 0x80000 * i, 0, 32⟩
def simmerUs (i : Nat) : Fld := ⟨0x1020008 + 0x80000 * i, 0, 32⟩
def marginCtrlChannel (i : Nat) : Fld := ⟨0x1020010 + 0x80000 * i, 0, 5⟩
def marginCtrlLane (i : Nat) : Fld := ⟨0x1020010 + 0x80000 * i, 5, 8⟩
def marginCtrlAxis (i : Nat) : Fld := ⟨0x1020010 + 0x80000 * i, 13, 1⟩
def marginCtrlOffset (i : Nat) : Fld := ⟨0x1020010 + 0x80000 * i, 16, 6⟩
def marginCtrlStart (i : Nat) : Fld := ⟨0x1020010 + 0x80000 * i, 31, 1⟩
def repairCmdChannel (i : Nat) : Fld := ⟨0x1020018 + 0x80000 * i, 0, 5⟩
def repairCmdBank (i : Nat) : Fld := ⟨0x1020018 + 0x80000 * i, 5, 4⟩
def repairCmdRow (i : Nat) : Fld := ⟨0x1020018 + 0x80000 * i, 9, 15⟩
def repairCmdKind (i : Nat) : Fld := ⟨0x1020018 + 0x80000 * i, 24, 1⟩
def repairCmdGo (i : Nat) : Fld := ⟨0x1020018 + 0x80000 * i, 31, 1⟩
def bursts (f : Nat) (n : Nat) : Fld := ⟨0x1020108 + 0x80000 * f + 0x40 * n, 0, 32⟩
def narrow (f : Nat) (n : Nat) : Fld := ⟨0x102010c + 0x80000 * f + 0x40 * n, 0, 32⟩
def adds (f : Nat) (n : Nat) : Fld := ⟨0x1020110 + 0x80000 * f + 0x40 * n, 0, 32⟩
def addsPoisoned (f : Nat) (n : Nat) : Fld := ⟨0x1020114 + 0x80000 * f + 0x40 * n, 0, 32⟩
def refPostponed (f : Nat) (n : Nat) : Fld := ⟨0x1020118 + 0x80000 * f + 0x40 * n, 0, 32⟩
def refDistributed (f : Nat) (n : Nat) : Fld := ⟨0x102011c + 0x80000 * f + 0x40 * n, 0, 32⟩
def laneRetrains (f : Nat) (n : Nat) : Fld := ⟨0x1020120 + 0x80000 * f + 0x40 * n, 0, 32⟩
def darkAccesses (f : Nat) (n : Nat) : Fld := ⟨0x1020124 + 0x80000 * f + 0x40 * n, 0, 32⟩
def chanCampDiscards (f : Nat) (n : Nat) : Fld := ⟨0x1020128 + 0x80000 * f + 0x40 * n, 0, 32⟩
def bankMode0 (i : Nat) : Fld := ⟨0x1030000 + 0x80000 * i, 0, 32⟩
def bankMode1 (i : Nat) : Fld := ⟨0x1030004 + 0x80000 * i, 0, 16⟩
def cacheHits (i : Nat) : Fld := ⟨0x1030010 + 0x80000 * i, 0, 32⟩
def cacheMisses (i : Nat) : Fld := ⟨0x1030014 + 0x80000 * i, 0, 32⟩
def writebacks (i : Nat) : Fld := ⟨0x1030018 + 0x80000 * i, 0, 32⟩
def atomics (i : Nat) : Fld := ⟨0x103001c + 0x80000 * i, 0, 32⟩
def atomicsRefused (i : Nat) : Fld := ⟨0x1030020 + 0x80000 * i, 0, 32⟩
def linesDropped (i : Nat) : Fld := ⟨0x1030024 + 0x80000 * i, 0, 32⟩
def sramLateWrite (i : Nat) : Fld := ⟨0x1030028 + 0x80000 * i, 0, 32⟩
def integConfigRowCeLimit : Fld := ⟨0x700000, 0, 8⟩
def integConfigColCeLimit : Fld := ⟨0x700000, 8, 8⟩
def integConfigWeedShare : Fld := ⟨0x700000, 16, 3⟩
def weederCtrlDramOn : Fld := ⟨0x700004, 0, 1⟩
def weederCtrlSramOn : Fld := ⟨0x700004, 1, 1⟩
def weederCtrlLocalOn : Fld := ⟨0x700004, 2, 1⟩
def weederCtrlLapAlarmMs : Fld := ⟨0x700004, 16, 16⟩
def flipAddrLo : Fld := ⟨0x700010, 0, 32⟩
def flipAddrHi : Fld := ⟨0x700014, 0, 32⟩
def flipMask0 : Fld := ⟨0x700018, 0, 32⟩
def flipMask1 : Fld := ⟨0x70001c, 0, 32⟩
def flipMask2 : Fld := ⟨0x700020, 0, 8⟩
def flipCtrlArm : Fld := ⟨0x700024, 0, 1⟩
def flipCtrlApplied : Fld := ⟨0x700024, 1, 1⟩
def integLateWrite : Fld := ⟨0x700030, 0, 32⟩
def flipsApplied : Fld := ⟨0x700034, 0, 32⟩
def dramCeTotal : Fld := ⟨0x700040, 0, 32⟩
def dramUeTotal : Fld := ⟨0x700044, 0, 32⟩
def sramCeTotal : Fld := ⟨0x700048, 0, 32⟩
def sramUeTotal : Fld := ⟨0x70004c, 0, 32⟩
def localCeTotal : Fld := ⟨0x700050, 0, 32⟩
def localUeTotal : Fld := ⟨0x700054, 0, 32⟩
def poisonConsumedTotal : Fld := ⟨0x700058, 0, 32⟩
def candQueryField : Fld := ⟨0x700060, 0, 8⟩
def candQueryIndex : Fld := ⟨0x700060, 8, 5⟩
def dramCe (i : Nat) : Fld := ⟨0x1070000 + 0x80000 * i, 0, 32⟩
def dramUe (i : Nat) : Fld := ⟨0x1070004 + 0x80000 * i, 0, 32⟩
def sramCe (i : Nat) : Fld := ⟨0x1070008 + 0x80000 * i, 0, 32⟩
def sramUe (i : Nat) : Fld := ⟨0x107000c + 0x80000 * i, 0, 32⟩
def localCe (i : Nat) : Fld := ⟨0x1070010 + 0x80000 * i, 0, 32⟩
def localUe (i : Nat) : Fld := ⟨0x1070014 + 0x80000 * i, 0, 32⟩
def poisonConsumed (i : Nat) : Fld := ⟨0x1070018 + 0x80000 * i, 0, 32⟩
def weederUe (i : Nat) : Fld := ⟨0x107001c + 0x80000 * i, 0, 32⟩
def reloads (i : Nat) : Fld := ⟨0x1070020 + 0x80000 * i, 0, 32⟩
def kvDropped (i : Nat) : Fld := ⟨0x1070024 + 0x80000 * i, 0, 32⟩
def framesZeroed (i : Nat) : Fld := ⟨0x1070028 + 0x80000 * i, 0, 32⟩
def trackerEvicts (i : Nat) : Fld := ⟨0x107002c + 0x80000 * i, 0, 32⟩
def dramLaps (i : Nat) : Fld := ⟨0x107003c + 0x80000 * i, 0, 32⟩
def cellarConfigReadLimitK : Fld := ⟨0x800000, 0, 16⟩
def cellarConfigBchRelocPct : Fld := ⟨0x800000, 16, 7⟩
def cellarConfigHotC : Fld := ⟨0x800000, 24, 8⟩
def cellarOnfiOnfiMts : Fld := ⟨0x800004, 0, 12⟩
def imageQueryImageId : Fld := ⟨0x800010, 0, 16⟩
def imageQueryDamageIndex : Fld := ⟨0x800010, 16, 8⟩
def cellarLateWrite : Fld := ⟨0x800080, 0, 32⟩
def unitsRead : Fld := ⟨0x800084, 0, 32⟩
def unitsProgrammed : Fld := ⟨0x800088, 0, 32⟩
def relocations : Fld := ⟨0x80008c, 0, 32⟩
def readRetries : Fld := ⟨0x800090, 0, 32⟩
def cellarUe : Fld := ⟨0x800094, 0, 32⟩
def crcFails : Fld := ⟨0x800098, 0, 32⟩
def relocLate : Fld := ⟨0x80009c, 0, 32⟩
def ccTempPeakC (i : Nat) : Fld := ⟨0x801004 + 0x100 * i, 8, 8⟩
def ccReads (i : Nat) : Fld := ⟨0x801010 + 0x100 * i, 0, 32⟩
def ccPrograms (i : Nat) : Fld := ⟨0x801014 + 0x100 * i, 0, 32⟩
def ccRelocs (i : Nat) : Fld := ⟨0x801018 + 0x100 * i, 0, 32⟩
def ccBchBits (i : Nat) : Fld := ⟨0x80101c + 0x100 * i, 0, 32⟩
def ccUe (i : Nat) : Fld := ⟨0x801020 + 0x100 * i, 0, 32⟩
def ccCampDiscards (i : Nat) : Fld := ⟨0x801028 + 0x100 * i, 0, 32⟩
def tcConfigWideHoldUs : Fld := ⟨0x900000, 0, 8⟩
def tcConfigJobLimitMs : Fld := ⟨0x900000, 16, 16⟩
def jobsStarted : Fld := ⟨0x900010, 0, 32⟩
def jobsFaulted : Fld := ⟨0x900014, 0, 32⟩
def watchdogFired : Fld := ⟨0x900018, 0, 32⟩
def jobWaitUs : Fld := ⟨0x90001c, 0, 32⟩
def pchkCleared : Fld := ⟨0x900020, 0, 32⟩
def campStopped : Fld := ⟨0x900024, 0, 32⟩
def faultInfoCode : Fld := ⟨0x900040, 0, 4⟩
def faultInfoThread : Fld := ⟨0x900040, 4, 2⟩
def faultInfoCore : Fld := ⟨0x900040, 8, 9⟩
def faultInfoCamp : Fld := ⟨0x900040, 20, 4⟩
def faultInfoField : Fld := ⟨0x900040, 24, 8⟩
def faultPc : Fld := ⟨0x900044, 0, 18⟩
def faultAddrLo : Fld := ⟨0x900048, 0, 32⟩
def faultAddrHi : Fld := ⟨0x90004c, 0, 32⟩
def faultSeq : Fld := ⟨0x900050, 0, 32⟩
def wideRequests (i : Nat) : Fld := ⟨0x901004 + 0x20 * i, 0, 32⟩
def wideStallUs (i : Nat) : Fld := ⟨0x901008 + 0x20 * i, 0, 32⟩
def parityErrors (i : Nat) : Fld := ⟨0x90100c + 0x20 * i, 0, 32⟩
def threadFaults (i : Nat) : Fld := ⟨0x901010 + 0x20 * i, 0, 32⟩
def arrConfigHoldUs : Fld := ⟨0x980000, 0, 8⟩
def arrConfigStallEventUs : Fld := ⟨0x980000, 16, 16⟩
def arrErrorsTotal : Fld := ⟨0x980010, 0, 32⟩
def arrAbortsTotal : Fld := ⟨0x980014, 0, 32⟩
def tilesPoisonedTotal : Fld := ⟨0x980018, 0, 32⟩
def tilesLoaded (i : Nat) : Fld := ⟨0x1050100 + 0x80000 * i, 0, 32⟩
def shiftStallUs (i : Nat) : Fld := ⟨0x1050104 + 0x80000 * i, 0, 32⟩
def actStallUs (i : Nat) : Fld := ⟨0x1050108 + 0x80000 * i, 0, 32⟩
def rationStallUs (i : Nat) : Fld := ⟨0x105010c + 0x80000 * i, 0, 32⟩
def bankBusy (i : Nat) : Fld := ⟨0x1050110 + 0x80000 * i, 0, 32⟩
def arrAborts (i : Nat) : Fld := ⟨0x1050114 + 0x80000 * i, 0, 32⟩
def arrayErrors (i : Nat) : Fld := ⟨0x1050118 + 0x80000 * i, 0, 32⟩
def tilesPoisoned (i : Nat) : Fld := ⟨0x105011c + 0x80000 * i, 0, 32⟩
def nanPrograms (i : Nat) : Fld := ⟨0x1050120 + 0x80000 * i, 0, 32⟩
def arrCampAborts (i : Nat) : Fld := ⟨0x1050124 + 0x80000 * i, 0, 32⟩
def pageConfigTrayDepth : Fld := ⟨0xa00000, 0, 2⟩
def pageConfigPoolLowPct : Fld := ⟨0xa00000, 8, 8⟩
def evictConfigCampMask : Fld := ⟨0xa00004, 0, 16⟩
def evictConfigProtectFirst : Fld := ⟨0xa00004, 16, 8⟩
def evictWindowProtectLast : Fld := ⟨0xa00008, 0, 16⟩
def evictWindowMassThresh : Fld := ⟨0xa00008, 16, 16⟩
def prefixConfigCampMask : Fld := ⟨0xa0000c, 0, 16⟩
def prefixConfigMaxEntriesK : Fld := ⟨0xa0000c, 16, 16⟩
def pageQuery0Slot : Fld := ⟨0xa00014, 0, 16⟩
def pageQuery0Pair : Fld := ⟨0xa00014, 16, 16⟩
def pageQuery1Page : Fld := ⟨0xa00018, 0, 13⟩
def forks : Fld := ⟨0xa00040, 0, 32⟩
def cowCopies : Fld := ⟨0xa00044, 0, 32⟩
def refcntCopies : Fld := ⟨0xa00048, 0, 32⟩
def prefixLookups : Fld := ⟨0xa0004c, 0, 32⟩
def prefixHitRows : Fld := ⟨0xa00050, 0, 32⟩
def prefixCollisions : Fld := ⟨0xa00054, 0, 32⟩
def evictBlocks : Fld := ⟨0xa00058, 0, 32⟩
def evictPagesFreed : Fld := ⟨0xa0005c, 0, 32⟩
def oopPreemptions : Fld := ⟨0xa00060, 0, 32⟩
def oopDeferrals : Fld := ⟨0xa00064, 0, 32⟩
def transplants (i : Nat) : Fld := ⟨0xa01014 + 0x40 * i, 0, 32⟩
def seals (i : Nat) : Fld := ⟨0xa01018 + 0x40 * i, 0, 32⟩
def walks (i : Nat) : Fld := ⟨0xa0101c + 0x40 * i, 0, 32⟩
def walkBlocks (i : Nat) : Fld := ⟨0xa01020 + 0x40 * i, 0, 32⟩
def darkDrops (i : Nat) : Fld := ⟨0xa01024 + 0x40 * i, 0, 32⟩
def attConfigCombineKib : Fld := ⟨0x904000, 0, 13⟩
def attBlocks : Fld := ⟨0x904010, 0, 32⟩
def attSkipped : Fld := ⟨0x904014, 0, 32⟩
def attVoidRows : Fld := ⟨0x904018, 0, 32⟩
def attNanRows : Fld := ⟨0x90401c, 0, 32⟩
def attEmptyRows : Fld := ⟨0x904020, 0, 32⟩
def attCombines : Fld := ⟨0x904024, 0, 32⟩
def attWaves : Fld := ⟨0x904028, 0, 32⟩
def ringPieces : Fld := ⟨0x90402c, 0, 32⟩
def statsRecords : Fld := ⟨0x904030, 0, 32⟩
def attCampDiscards : Fld := ⟨0x904034, 0, 32⟩
def sampleConfigTrayKib : Fld := ⟨0xb00000, 0, 14⟩
def rngKeyLo : Fld := ⟨0xb00008, 0, 32⟩
def rngKeyHi : Fld := ⟨0xb0000c, 0, 32⟩
def rngPosPosition : Fld := ⟨0xb00010, 0, 21⟩
def rngIdxIndex : Fld := ⟨0xb00014, 0, 20⟩
def rowsSampled : Fld := ⟨0xb00040, 0, 32⟩
def rowsForced : Fld := ⟨0xb00044, 0, 32⟩
def fastRows : Fld := ⟨0xb00048, 0, 32⟩
def thirdPasses : Fld := ⟨0xb0004c, 0, 32⟩
def toppShortRows : Fld := ⟨0xb00050, 0, 32⟩
def nanEntries : Fld := ⟨0xb00054, 0, 32⟩
def nanRows : Fld := ⟨0xb00058, 0, 32⟩
def nonfiniteRows : Fld := ⟨0xb0005c, 0, 32⟩
def noTokenRows : Fld := ⟨0xb00060, 0, 32⟩
def embedGathers : Fld := ⟨0xb00064, 0, 32⟩
def paramRefused : Fld := ⟨0xb00068, 0, 32⟩
def suRows (i : Nat) : Fld := ⟨0x1060004 + 0x80000 * i, 0, 32⟩
def suRoots (i : Nat) : Fld := ⟨0x1060008 + 0x80000 * i, 0, 32⟩
def suWaves (i : Nat) : Fld := ⟨0x106000c + 0x80000 * i, 0, 32⟩
def suRationWaitUs (i : Nat) : Fld := ⟨0x1060010 + 0x80000 * i, 0, 32⟩
def suCampDiscards (i : Nat) : Fld := ⟨0x1060014 + 0x80000 * i, 0, 32⟩
def serveConfigPrefillTokens : Fld := ⟨0xc00000, 0, 16⟩
def serveConfigIdleHoldMs : Fld := ⟨0xc00000, 16, 16⟩
def slotQuerySlot : Fld := ⟨0xc00010, 0, 16⟩
def servePolicy0BatchMax (i : Nat) : Fld := ⟨0xc00100 + 0x40 * i, 0, 17⟩
def servePolicy0BalFillPct (i : Nat) : Fld := ⟨0xc00100 + 0x40 * i, 17, 8⟩
def servePolicy1HeadroomTokens (i : Nat) : Fld := ⟨0xc00104 + 0x40 * i, 0, 16⟩
def servePolicy1ReservedPct (i : Nat) : Fld := ⟨0xc00104 + 0x40 * i, 16, 7⟩
def servePolicy2ReservedSlots (i : Nat) : Fld := ⟨0xc00108 + 0x40 * i, 0, 17⟩
def servePolicy3WaitMax (i : Nat) : Fld := ⟨0xc0010c + 0x40 * i, 0, 17⟩
def admitted (i : Nat) : Fld := ⟨0xc00120 + 0x40 * i, 0, 32⟩
def completed (i : Nat) : Fld := ⟨0xc00124 + 0x40 * i, 0, 32⟩
def cancelled (i : Nat) : Fld := ⟨0xc00128 + 0x40 * i, 0, 32⟩
def cancelLate (i : Nat) : Fld := ⟨0xc0012c + 0x40 * i, 0, 32⟩
def preempted (i : Nat) : Fld := ⟨0xc00130 + 0x40 * i, 0, 32⟩
def deferrals (i : Nat) : Fld := ⟨0xc00134 + 0x40 * i, 0, 32⟩
def refused (i : Nat) : Fld := ⟨0xc00138 + 0x40 * i, 0, 32⟩
def tokens (i : Nat) : Fld := ⟨0xc0013c + 0x40 * i, 0, 32⟩
def scoreCfgScoreTokens (i : Nat) : Fld := ⟨0xc00808 + 0x20 * i, 0, 18⟩
def phaseSwitches (i : Nat) : Fld := ⟨0xc00814 + 0x20 * i, 0, 32⟩
def refreshes (i : Nat) : Fld := ⟨0xc00818 + 0x20 * i, 0, 32⟩
def hostConfigH0PerstWafer : Fld := ⟨0xd80000, 0, 1⟩
def partialWrites : Fld := ⟨0xd80010, 0, 32⟩
def deniedWrites : Fld := ⟨0xd80014, 0, 32⟩
def deniedReads : Fld := ⟨0xd80018, 0, 32⟩
def bar2Invalid : Fld := ⟨0xd8001c, 0, 32⟩
def recordsDiscarded : Fld := ⟨0xd80020, 0, 32⟩
def linkDowns (i : Nat) : Fld := ⟨0xd80104 + 0x40 * i, 0, 32⟩
def recoveries (i : Nat) : Fld := ⟨0xd80108 + 0x40 * i, 0, 32⟩
def corrErrors (i : Nat) : Fld := ⟨0xd8010c + 0x40 * i, 0, 32⟩
def uncorrErrors (i : Nat) : Fld := ⟨0xd80110 + 0x40 * i, 0, 32⟩
def flitReplays (i : Nat) : Fld := ⟨0xd80114 + 0x40 * i, 0, 32⟩
def cplTimeouts (i : Nat) : Fld := ⟨0xd80118 + 0x40 * i, 0, 32⟩
def poisonedRx (i : Nat) : Fld := ⟨0xd8011c + 0x40 * i, 0, 32⟩
def flrs (i : Nat) : Fld := ⟨0xd80120 + 0x40 * i, 0, 32⟩
def ideFails (i : Nat) : Fld := ⟨0xd80124 + 0x40 * i, 0, 32⟩
def fnDiscards (i : Nat) : Fld := ⟨0xd81004 + 0x10 * i, 0, 32⟩
def fnDmaFails (i : Nat) : Fld := ⟨0xd81008 + 0x10 * i, 0, 32⟩
def descriptorsTotal : Fld := ⟨0xd00010, 0, 32⟩
def badDescriptors : Fld := ⟨0xd00014, 0, 32⟩
def overrunsTotal : Fld := ⟨0xd00018, 0, 32⟩
def fullEventsTotal : Fld := ⟨0xd0001c, 0, 32⟩
def eventsLostTotal : Fld := ⟨0xd00020, 0, 32⟩
def ringLateWriteTotal : Fld := ⟨0xd00024, 0, 32⟩
def ringBaseLoBase (i : Nat) : Fld := ⟨0xd10000 + 0x40 * i, 12, 20⟩
def ringBaseHi (i : Nat) : Fld := ⟨0xd10004 + 0x40 * i, 0, 32⟩
def ringCfgKind (i : Nat) : Fld := ⟨0xd10008 + 0x40 * i, 0, 3⟩
def ringCfgLog2Size (i : Nat) : Fld := ⟨0xd10008 + 0x40 * i, 4, 5⟩
def ringCfgCplRing (i : Nat) : Fld := ⟨0xd10008 + 0x40 * i, 16, 6⟩
def ringCfgTokenRing (i : Nat) : Fld := ⟨0xd10008 + 0x40 * i, 24, 6⟩
def ringCtrlEnable (i : Nat) : Fld := ⟨0xd1000c + 0x40 * i, 0, 1⟩
def ringCtrlIrqMode (i : Nat) : Fld := ⟨0xd1000c + 0x40 * i, 4, 2⟩
def ringCtrlVector (i : Nat) : Fld := ⟨0xd1000c + 0x40 * i, 16, 11⟩
def shadowLoAddr (i : Nat) : Fld := ⟨0xd10010 + 0x40 * i, 3, 29⟩
def shadowHi (i : Nat) : Fld := ⟨0xd10014 + 0x40 * i, 0, 32⟩
def ringFilterAreaMask (i : Nat) : Fld := ⟨0xd10018 + 0x40 * i, 1, 9⟩
def doorbells (i : Nat) : Fld := ⟨0xd10024 + 0x40 * i, 0, 32⟩
def entries (i : Nat) : Fld := ⟨0xd10028 + 0x40 * i, 0, 32⟩
def overruns (i : Nat) : Fld := ⟨0xd1002c + 0x40 * i, 0, 32⟩
def fullUs (i : Nat) : Fld := ⟨0xd10030 + 0x40 * i, 0, 32⟩
def eventsLost (i : Nat) : Fld := ⟨0xd10034 + 0x40 * i, 0, 32⟩
def ringLateWrite (i : Nat) : Fld := ⟨0xd10038 + 0x40 * i, 0, 32⟩
def domainConfigDimX : Fld := ⟨0xe00000, 0, 4⟩
def domainConfigDimY : Fld := ⟨0xe00000, 4, 4⟩
def domainConfigDimZ : Fld := ⟨0xe00000, 8, 4⟩
def domainConfigMyX : Fld := ⟨0xe00000, 16, 3⟩
def domainConfigMyY : Fld := ⟨0xe00000, 20, 3⟩
def domainConfigMyZ : Fld := ⟨0xe00000, 24, 2⟩
def ygConfigRetrainLimit : Fld := ⟨0xe00004, 0, 8⟩
def ygConfigHoldS : Fld := ⟨0xe00004, 8, 8⟩
def ygConfigTimePeriodUs : Fld := ⟨0xe00004, 16, 16⟩
def collConfigLateMs : Fld := ⟨0xe00008, 0, 16⟩
def collConfigSettleUs : Fld := ⟨0xe00008, 16, 16⟩
def ygLateWrite : Fld := ⟨0xe00040, 0, 32⟩
def collStarted : Fld := ⟨0xe00044, 0, 32⟩
def collCompleted : Fld := ⟨0xe00048, 0, 32⟩
def collAborts : Fld := ⟨0xe0004c, 0, 32⟩
def culpritSelf : Fld := ⟨0xe00050, 0, 32⟩
def lateDiscards : Fld := ⟨0xe00054, 0, 32⟩
def slowPauseUs : Fld := ⟨0xe00058, 0, 32⟩
def queueInvalid : Fld := ⟨0xe0005c, 0, 32⟩
def transitPackets : Fld := ⟨0xe00060, 0, 32⟩
def collQueueGranule (i : Nat) : Fld := ⟨0xe00100 + 0x4 * i, 0, 25⟩
def collQueueEnable (i : Nat) : Fld := ⟨0xe00100 + 0x4 * i, 31, 1⟩
def fecCorrected (i : Nat) : Fld := ⟨0xe0100c + 0x40 * i, 0, 32⟩
def fecUncorrectable (i : Nat) : Fld := ⟨0xe01010 + 0x40 * i, 0, 32⟩
def replays (i : Nat) : Fld := ⟨0xe01014 + 0x40 * i, 0, 32⟩
def retrains (i : Nat) : Fld := ⟨0xe01018 + 0x40 * i, 0, 32⟩
def holds (i : Nat) : Fld := ⟨0xe0101c + 0x40 * i, 0, 32⟩
def laneSpares (i : Nat) : Fld := ⟨0xe01020 + 0x40 * i, 0, 32⟩
def ygCreditWaitUs (i : Nat) : Fld := ⟨0xe01024 + 0x40 * i, 0, 32⟩
def consentCtrlOp : Fld := ⟨0x200000, 0, 3⟩
def csDigest (i : Nat) : Fld := ⟨0x200040 + 0x4 * i, 0, 32⟩
def campResetCmdCamp : Fld := ⟨0x200080, 0, 4⟩
def campResetCmdGo : Fld := ⟨0x200080, 31, 1⟩
def proposals : Fld := ⟨0x2000a0, 0, 32⟩
def consentApplied : Fld := ⟨0x2000a4, 0, 32⟩
def rejMismatch : Fld := ⟨0x2000a8, 0, 32⟩
def rejTimeout : Fld := ⟨0x2000ac, 0, 32⟩
def rejInvalid : Fld := ⟨0x2000b0, 0, 32⟩
def rejOther : Fld := ⟨0x2000b4, 0, 32⟩
def busyRefused : Fld := ⟨0x2000b8, 0, 32⟩
def wrongParty : Fld := ⟨0x2000bc, 0, 32⟩
def stageLocked : Fld := ⟨0x2000c0, 0, 32⟩
def protDeniedTotal : Fld := ⟨0x2000c4, 0, 32⟩
def campResets : Fld := ⟨0x2000c8, 0, 32⟩
def applyWaitUs : Fld := ⟨0x2000cc, 0, 32⟩
def modPeakPinPeakW : Fld := ⟨0xf00008, 0, 16⟩
def modPeakSlewPeak : Fld := ⟨0xf00008, 16, 16⟩
def thermConfigFlowMinLpm : Fld := ⟨0xf00010, 0, 8⟩
def thermConfigInletMaxC : Fld := ⟨0xf00010, 8, 8⟩
def tripRecordField : Fld := ⟨0xf00020, 0, 8⟩
def tripRecordTempC : Fld := ⟨0xf00020, 8, 8⟩
def tripRecordValid : Fld := ⟨0xf00020, 31, 1⟩
def shuntCatches : Fld := ⟨0xf00040, 0, 32⟩
def uvEvents : Fld := ⟨0xf00044, 0, 32⟩
def powerOverMs : Fld := ⟨0xf00048, 0, 32⟩
def perstGlitches : Fld := ⟨0xf0004c, 0, 32⟩
def ftGlitches : Fld := ⟨0xf00050, 0, 32⟩
def throttleMs : Fld := ⟨0xf00054, 0, 32⟩
def flowLowMs : Fld := ⟨0xf00058, 0, 32⟩
def trips : Fld := ⟨0xf0005c, 0, 32⟩
def fieldThermPeakC (i : Nat) : Fld := ⟨0xf00100 + 0x4 * i, 8, 8⟩
def resetCtrlGo : Fld := ⟨0x100000, 0, 1⟩
def resetCtrlKey : Fld := ⟨0x100000, 16, 16⟩
def bootConfigCfgHold : Fld := ⟨0x100004, 0, 1⟩
def bootCtrlContinue : Fld := ⟨0x100008, 0, 1⟩
def campResetLimitMs : Fld := ⟨0x10001c, 0, 16⟩
def waferResets : Fld := ⟨0x100028, 0, 32⟩
def dmaElements (i : Nat) : Fld := ⟨0x1040004 + 0x80000 * i, 0, 32⟩
def dmaKib (i : Nat) : Fld := ⟨0x1040008 + 0x80000 * i, 0, 32⟩
def dmaRationWaitUs (i : Nat) : Fld := ⟨0x104000c + 0x80000 * i, 0, 32⟩
def dmaHostReads (i : Nat) : Fld := ⟨0x1040010 + 0x80000 * i, 0, 32⟩
def dmaHostWrites (i : Nat) : Fld := ⟨0x1040014 + 0x80000 * i, 0, 32⟩
def dirCacheMisses (i : Nat) : Fld := ⟨0x1040018 + 0x80000 * i, 0, 32⟩
def dmaCampDiscards (i : Nat) : Fld := ⟨0x104001c + 0x80000 * i, 0, 32⟩
def dbgBaseLo : Fld := ⟨0x4ffff000, 27, 5⟩
def dbgBaseHi : Fld := ⟨0x4ffff004, 0, 32⟩
def dbgStatusPoison : Fld := ⟨0x4ffff008, 0, 1⟩
def dbgCaptureSite : Fld := ⟨0x4ffff00c, 0, 7⟩
def dbgCaptureKind : Fld := ⟨0x4ffff00c, 8, 2⟩
def dbgCaptureClassMask : Fld := ⟨0x4ffff00c, 12, 4⟩
def captureCount : Fld := ⟨0x4ffff014, 0, 32⟩
def captureDrops : Fld := ⟨0x4ffff018, 0, 32⟩
def dbgBadTarget : Fld := ⟨0x4ffff01c, 0, 32⟩
def dbgNotReady : Fld := ⟨0x4ffff020, 0, 32⟩
def dbgPoisonReads : Fld := ⟨0x4ffff024, 0, 32⟩

end Sys2Proof.Machine.F
end

