-- ==== Sys2Proof/Machine/State.lean ====
section
/-! DEFINITION. The machine's state: plain data, one record per chapter of the spec, and the queue of waiting commands.
Every per-unit state is a `Sparse` store keyed by the unit's number (a key with no entry holds that store's reset value);
every register a write can change stands in `regs`, keyed by its offset. -/
namespace Sys2Proof.Machine

/-! ### Events, records, descriptors (chapter 16) -/

-- Log entry 10 (DESIGN CHOICE).
/-- An event as its block raises it (R423); the payload is bytes 16 to 31, little-endian. -/
structure Event where
  code : Nat
  source : Nat
  camp : Nat
  time : Nat
  payload : Nat
deriving DecidableEq, Repr

/-- A record waiting to be written into a device-written ring: its bytes without the phase bit (R408). -/
structure Rec where
  fn : Nat
  ring : Nat
  kind : Nat
  bits : Nat
  irq : Bool
deriving DecidableEq, Repr

/-- A consumed descriptor that has not completed (R414): its bytes, and the WAFER_TIME of its consumption. -/
structure Desc where
  fn : Nat
  ring : Nat
  camp : Nat
  seq : Nat
  cookie : Nat
  op : Nat
  irq : Bool
  barrier : Bool
  raw : Nat
  at_ : Nat
  started : Bool
deriving DecidableEq, Repr

/-- One ring's live state (R402 to R409, R436): a submission ring's head and held tail, or a device-written ring's held
driver head and producer index. -/
structure RingSt where
  enabled : Bool
  stopped : Bool
  head : Nat
  tail : Nat
  phase : Bool
  full : Bool
  cfgErr : Nat
  count : Nat
  lost : Nat
deriving DecidableEq, Repr

def RingSt.init : RingSt := ⟨false, false, 0, 0, false, false, 0, 0, 0⟩

-- Log entry 177 (DEDUCED).
/-- Chapter 16: the rings, the records waiting for them, and the descriptors in hand. -/
structure RingPart where
  rings : Sparse RingSt
  outbox : List Rec
  descs : List Desc
deriving DecidableEq, Repr

/-! ### The host link (chapter 15) -/

/-- One port (R398): LTSSM codes 0 DETECT to 7 LOOPBACK. -/
structure PortSt where
  up : Bool
  flit : Bool
  speed : Nat
  width : Nat
  ltssm : Nat
  failRaised : Bool
  numVfs : Nat
  vfEnable : Bool
deriving DecidableEq, Repr

def PortSt.init : PortSt := ⟨false, false, 0, 0, 0, false, 0, false⟩

/-- One function's configuration state (R376 to R378, R389). -/
structure FnSt where
  bme : Bool
  d3 : Bool
  msixEnable : Bool
  fnMask : Bool
  campResetting : Bool
  /-- the codes of Max_Payload_Size and Max_Read_Request_Size: 128 bytes times 2 to the code (R383) -/
  mps : Nat
  mrrs : Nat
  relaxed : Bool
  tag10 : Bool
deriving DecidableEq, Repr

-- Log entry 228 (PRESUMED).
def FnSt.init : FnSt := ⟨false, false, false, false, false, 0, 2, true, false⟩

/-- One MSI-X vector of one function: its table entry, its pending bit, its moderation word and its unannounced causes
(R388, R389). -/
structure VecSt where
  addr : Nat
  data : Nat
  masked : Bool
  pba : Bool
  holdoff : Nat
  count : Nat
  causes : Nat
  oldest : Nat
deriving DecidableEq, Repr

-- Log entry 4 (PRESUMED).
def VecSt.init : VecSt := ⟨0, 0, true, false, 0, 1, 0, 0⟩

/-- A selective IDE stream of a port (R392): 0 unused, 1 Secure, 2 Insecure; its requester range. -/
structure IdeSt where
  state : Nat
  ridBase : Nat
  ridLimit : Nat
deriving DecidableEq, Repr

def IdeSt.init : IdeSt := ⟨0, 0, 0⟩

/-- The data of a descriptor that moves between the wafer and host memory (R561): how many elements it has, and which have
ended. -/
structure DmaJob where
  camp : Nat
  seq : Nat
  total : Nat
  done : Sparse Bool
  /-- the data of elements that have arrived from host memory -/
  got : Sparse (Option Nat)
  /-- the elements whose held writes have been applied (R99) -/
  landed : List Nat
deriving DecidableEq, Repr

/-- What an element slot of a field's DMA engine carries (R560): an element, the move of a granule, a part of a collective. -/
inductive SlotWork where
  | elem (w : DmaWork)
  | move (granule : Nat)
  | part (serial : Nat)
deriving DecidableEq, Repr

/-- A slot's work, its class and its camp. -/
structure SlotUse where
  work : SlotWork
  cls : Nat
  camp : Nat
deriving DecidableEq, Repr

-- Log entries 4 (PRESUMED), 122 (DEDUCED).
/-- Chapter 15. -/
structure HostPart where
  ports : Sparse PortSt
  fns : Sparse FnSt
  vecs : Sparse VecSt
  ide : Sparse IdeSt
  dmas : List DmaJob
  failRaised : List (Nat × Nat)
  /-- the reads that have timed out once and were issued again (R386) -/
  late : List HostRead
  /-- the element slots of the DMA engines (R560), keyed by 32 field + slot -/
  slots : Sparse (Option SlotUse)
  /-- the elements that wait for a slot, by field, in the order of their arrival (R560) -/
  slotQueue : List (Nat × SlotUse)
deriving DecidableEq, Repr

/-! ### Camps and consent (chapter 18) -/

/-- A running camp reset (R533): cause 1 FLR, 2 command, 3 camp disabled; the function that started it or 0x3F. -/
structure CampReset where
  camp : Nat
  cause : Nat
  fn : Nat
  start : Nat
  slots : Nat
  /-- descriptors discarded, by function -/
  descs : Sparse Nat
  stuck : Bool
deriving DecidableEq, Repr

-- Log entry 169 (DEDUCED).
/-- Chapter 18: the live image, the stage, the store in boot flash, and the consent engine (R470 to R483). -/
structure CampPart where
  live : Sparse Byte
  stage : Sparse Byte
  store : Sparse Byte
  /-- 0 IDLE, 1 PROPOSED, 2 APPROVED, 3 APPLYING -/
  state : Nat
  proposer : Nat
  lastResult : Nat
  errItem : Nat
  counter : Nat
  nonce : Nat
  digest : Nat
  windowEnd : Nat
  approvedAt : Nat
  held : List Nat
  resets : List CampReset
  /-- the older copy of the stored image (R473) -/
  older : Sparse Byte
deriving DecidableEq, Repr

/-! ### Reset and start-up (chapter 20) -/

/-- A firmware slot (R489): whether its signature verifies, and its security version. -/
structure FwSlot where
  signed : Bool
  svn : Nat
deriving DecidableEq, Repr

def FwSlot.init : FwSlot := ⟨true, 0⟩

/-- Which blocks start-up has enabled (R528): fabric and ration master, tier directory and DRAM, SRAM banks, integrity,
Root Cellar, Yilgil, the services (cores, arrays, pages, sampling, attention, serving). -/
structure Enables where
  fabric : Bool
  dram : Bool
  sram : Bool
  integ : Bool
  cellar : Bool
  yilgil : Bool
  service : Bool
deriving DecidableEq, Repr

def Enables.init : Enables := ⟨false, false, false, false, false, false, false⟩

-- Log entries 151 (DEDUCED), 161 (DEDUCED), 165 (DEDUCED).
/-- Chapter 20, with the management controller's held events (R541, R513) and the MCTP endpoint (R484). -/
structure BootPart where
  running : Bool
  en : Enables
  stage : Nat
  hold : Bool
  bringup : Bool
  slot : Nat
  active : Nat
  err : Nat
  fwSvn : Nat
  cause : Nat
  startupUs : Nat
  stageUs : Sparse Nat
  heartbeat : Nat
  fwRunning : Bool
  ready : Bool
  failed : Bool
  slots : Sparse FwSlot
  lastCamp : Nat
  lastCause : Nat
  lastMs : Nat
  fuseCommit : Bool
  /-- the ramp-down of a wafer reset has ended, and the wafer waits for PERST_N of H0 (R514) -/
  ramped : Bool
  mgmt : List Event
  alert : Bool
  eid : Nat
  spdm : Nat
deriving DecidableEq, Repr

/-! ### The wafer as built (chapter 01) -/

/-- One field's inventory (R34): state 0 RESET, 1 TESTING, 2 READY, 3 DEGRADED, 4 FAILED; the masks the test found. -/
structure FieldSt where
  state : Nat
  cores : Nat
  arrays : Nat
  banks : Nat
  chans : Nat
  granules : Nat
  lanterns : Nat
  /-- bit 0 sampling unit, 1 DMA and walker, 2 desk, 3 to 5 the three Weeders (R22) -/
  units : Nat
  sparesUsed : Nat
  statusGen : Nat
deriving DecidableEq, Repr

-- Log entry 6 (DESIGN CHOICE).
def FieldSt.init : FieldSt := ⟨0, 0, 0, 0, 0, 0, 0, 0, 0, 0⟩

-- Log entry 3 (DESIGN CHOICE).
/-- Chapter 01: the fuse map (site kinds 0 FIELD, 1 SPARE, 2 PASS, 3 HOLE), and the inventory. -/
structure WaferPart where
  kinds : Sparse Nat
  serial : Nat
  stepping : Nat
  fields : Sparse FieldSt
  edges : Nat
  mapGen : Nat
deriving DecidableEq, Repr

-- Log entry 3 (DESIGN CHOICE).
/-- The fuse map of the model: the module of chapter 01's field note "Reading a fuse map with defects" (the spec gives no
shipped fuse map; log entry 3). -/
def fuseKinds : Sparse Nat := [(20, 1), (33, 1), (45, 3), (58, 1), (70, 2), (81, 1), (91, 1), (92, 1)]

/-! ### The fabric (chapter 02) -/

/-- One router's counter (R50, R51): within ±5 ns of the root, its signed offset in ns at the last sync, when that was, and since when it has
been unlocked; `lag` is how far the counter stands before the root's in ps, and `error` what of the measured offset it has yet to slew away. -/
structure SiteSt where
  locked : Bool
  offset : Int
  lastSync : Nat
  unlockedAt : Nat
  lag : Int
  error : Int
deriving DecidableEq, Repr

def SiteSt.init : SiteSt := ⟨false, 0, 0, 0, 0, 0⟩

/-- A flit in the fabric (R38, R39): its 256 bits, whether a router has found it uncorrectable, whether it is its packet's header and its last, and
how often its camp had been reset when its packet was sent. -/
structure Flit where
  raw : Nat
  poison : Bool
  head : Bool
  last : Bool
  epoch : Nat
deriving DecidableEq, Repr

/-- An input virtual channel of a router (R41): its buffer, oldest first; since when, in the order of the fabric, its first packet has been there;
and of the packet that it is receiving the payload flits to come, the header, and whether it is being dropped. -/
structure VcSt where
  flits : List Flit
  since : Nat
  left : Nat
  header : Nat
  drop : Bool
deriving DecidableEq, Repr

def VcSt.init : VcSt := ⟨[], 0, 0, 0, false⟩

/-- An output of a router (R47): the virtual channel that it served last, and for each virtual channel one more than the input (its port and
virtual channel) whose packet holds it. -/
structure OutSt where
  turn : Nat
  hold : Sparse Nat
deriving DecidableEq, Repr

def OutSt.init : OutSt := ⟨0, []⟩

/-- One camp's step token (R52): the last token issued, and whether its step is in progress. -/
structure StepSt where
  token : Nat
  inStep : Bool
deriving DecidableEq, Repr

def StepSt.init : StepSt := ⟨0, false⟩

/-- One camp's view at one field (R52): the last token received, the last STEP_DONE sent, and
transactions without acknowledgement. -/
structure CampField where
  token : Nat
  done : Nat
  acks : Nat
  /-- the camp has work on this field -/
  member : Bool
deriving DecidableEq, Repr

def CampField.init : CampField := ⟨0, 0, 0, false⟩

/-- Chapter 02. -/
structure FabPart where
  routesOk : Bool
  time : Nat
  spread : Nat
  sites : Sparse SiteSt
  lastAck : Sparse Nat
  dead : List (Nat × Nat)
  steps : Sparse StepSt
  campFields : Sparse CampField
  /-- how often a camp has been reset: packets sent before are discarded -/
  epochs : Sparse Nat
  /-- the input virtual channels of the routers -/
  vcs : Sparse VcSt
  /-- the flits that a link carries to an input virtual channel, oldest first -/
  wires : Sparse (List Flit)
  /-- the outputs of the routers -/
  outs : Sparse OutSt
  /-- the flits of packets that are being delivered at a site, by virtual channel -/
  inbox : Sparse (List Flit)
  /-- how many packets have come to the front of a buffer -/
  serial : Nat
deriving DecidableEq, Repr

/-! ### Rations (chapter 03) -/

-- Log entry 46 (DEDUCED).
/-- A requester (R72, R560): its endpoint (R40), its thread or 0xFF, and which of the endpoint's engines it is. -/
structure Asker where
  unit : Nat
  thread : Nat
  sub : Nat
deriving DecidableEq, Repr

/-- A waiting request (R70): what it has been handed and what has been ramped for it. -/
structure Req where
  who : Asker
  cls : Nat
  camp : Nat
  amount : Nat
  handed : Nat
  ramped : Nat
  at_ : Nat
  heldUs : Nat
  starved : Bool
  standing : Bool
  /-- it is a step of its engine's clock back up (R80), not a grant -/
  clock : Bool
deriving DecidableEq, Repr

/-- A grant in force; `k` sixteenths is the engine's present clock fraction (R80). -/
structure Grant where
  who : Asker
  cls : Nat
  camp : Nat
  amount : Nat
  standing : Bool
  k : Nat
deriving DecidableEq, Repr

-- Log entries 12 (DESIGN CHOICE), 162 (DESIGN CHOICE).
/-- One desk (R62): its floor, its queue, its grants, the rations tapering, the ballast that caught a loss, the expiry times of its
rising and falling loan slots from the pools, those of its matched slots, and what the field test of start-up draws (R522). -/
structure Desk where
  floor : Nat
  queue : List Req
  grants : List Grant
  taper : Nat
  caught : Nat
  up : List Nat
  down : List Nat
  matchUp : List Nat
  matchDown : List Nat
  test : Nat
deriving DecidableEq, Repr

def Desk.init : Desk := ⟨0, [], [], 0, 0, [], [], [], [], 0⟩

/-- Chapter 03: the desks; the fields last served from the rising and from the falling pool; the camps whose plan increase is not yet
settled with the time of its first request; and the ramp of the field test: 1 up to 800 rations, 2 back, 0 none (R522). -/
structure RationPart where
  desks : Sparse Desk
  lastServed : Nat
  lastDown : Nat
  plans : Sparse Nat
  testing : Nat
deriving DecidableEq, Repr

/-! ### Memory -/

/-- A line of a pod's shared cache (R130): its 128 bytes, whether it is dirty, its poisoned sub-blocks, and the way of its set that it
stands in. -/
structure Line where
  dirty : Bool
  data : Nat
  poison : Nat
  way : Nat
deriving DecidableEq, Repr

-- Log entries 5 (DESIGN CHOICE), 168 (DEDUCED).
/-- What the memories hold, by physical global address (R87): the bytes (an unlisted byte reads 0), the poison words
(R152, keyed by the word's address), the error pattern that a codeword has gathered (8 bits a symbol in DRAM, 72 bits elsewhere), the shared
caches' lines (keyed by address over 128), and the pseudo-LRU bits of their sets. -/
structure MemPart where
  bytes : Sparse Byte
  poison : Sparse Bool
  bad : Sparse Nat
  lines : Sparse (Option Line)
  plru : Sparse Nat
deriving DecidableEq, Repr

/-! ### The tier directory (chapter 04) -/

-- Log entry 26 (DESIGN CHOICE).
/-- A directory entry (R90). States: 0 UNMAPPED, 1 HOME_SRAM, 2 HOME_DRAM, 3 HOME_CELLAR, 4 COPY, 5 MOVING_UP, 6
MOVING_DOWN; tiers: 0 none, 1 SRAM, 2 DRAM, 3 cellar. -/
structure DirEntry where
  state : Nat
  hint : Nat
  writable : Bool
  poison : Bool
  camp : Nat
  object : Nat
  locA : Nat
  locB : Nat
  tierA : Nat
  tierB : Nat
  /-- how recently it was read (R100): the model's stand-in for the mover's own record -/
  readAt : Nat
deriving DecidableEq, Repr

def DirEntry.init : DirEntry := ⟨0, 0, false, false, 0, 0, 0, 0, 0, 0, 0⟩

/-- An object (R94, R95): `model` is 0 for one that no LOAD_MODEL created, `host` the host address of its clean copy plus 1
or 0, `image` the cellar unit of its first granule plus 1 or 0. -/
structure TierObj where
  base : Nat
  count : Nat
  camp : Nat
  writable : Bool
  hint : Nat
  tier : Nat
  cyclic : Bool
  stream : Nat
  index : Nat
  window : Nat
  deadlineUs : Nat
  substitute : Nat
  model : Nat
  host : Nat
  image : Nat
  /-- the number plus 1 of the UNMAP that takes effect at the camp's next boundary (R97), or 0 -/
  unmapping : Nat
  /-- its content is still arriving from host memory (R431) -/
  loading : Bool
  /-- TIER_HOME_LOST has been raised for it (R112) -/
  lost : Bool
deriving DecidableEq, Repr

def TierObj.init : TierObj := ⟨0, 0, 0, false, 0, 0, false, 0, 0, 0, 0, 0, 0, 0, 0, 0, false, false⟩

/-- A frame in use: 1 a home or copy, 2 a page, 3 draining after a switch, 4 zero-filling, 5 firmware; the camp that owns
or last owned it (plus 1), and the reads issued against it that have not returned. -/
structure FrameUse where
  use : Nat
  owner : Nat
  reads : Nat
  clean : Bool
deriving DecidableEq, Repr

def FrameUse.init : FrameUse := ⟨0, 0, 0, true⟩

/-- A move wanted or running (R98): the granule, its direction, the destination tier and frame, the source (tier 4 is host
memory), the state it ends in, the DMA slot that carries it, and whether its source data has arrived. -/
structure Move where
  field : Nat
  granule : Nat
  up : Bool
  tier : Nat
  cls : Nat
  final : Nat
  running : Bool
  dst : Nat
  srcTier : Nat
  src : Nat
  slot : Nat
  got : Bool
deriving DecidableEq, Repr

/-- An announced use of an expert (R104, R452): the fields that hold a slice, those that reported READY, the members of the
slice group still to report, and the decision: 0 undecided, 1 used, 2 substituted. -/
structure Announce where
  camp : Nat
  step : Nat
  layer : Nat
  expert : Nat
  object : Nat
  substitute : Nat
  address : Nat
  fields : Nat
  ready : Nat
  peers : Nat
  at_ : Nat
  deadlineUs : Nat
  decided : Nat
deriving DecidableEq, Repr

/-- A field's stream at its last first read (R103): the index, in a camp's step. -/
structure Window where
  field : Nat
  camp : Nat
  stream : Nat
  index : Nat
  step : Nat
deriving DecidableEq, Repr

/-- A consumer that waits for an object (R105): step work (`key` the step token) or a descriptor (`key` its number). -/
structure TierWait where
  field : Nat
  camp : Nat
  object : Nat
  step : Bool
  key : Nat
  at_ : Nat
  late : Bool
  /-- the granules that the consumer has asked for -/
  granules : List Nat
deriving DecidableEq, Repr

/-- A write that a moving granule holds (R99): an operation on its way, or an element of a COPY with the address, the bytes and the
poisoned runs that it writes. -/
inductive HeldBy where
  | op (id : Nat)
  | elem (camp seq i addr n val : Nat) (bad : List (Nat × Nat))
deriving DecidableEq, Repr

/-- Chapter 04. Entries are keyed by field times 2^25 plus granule, objects by field times 2^16 plus number, frames by
(4 field + tier) 2^21 plus frame. -/
structure TierPart where
  dir : Sparse DirEntry
  objs : Sparse TierObj
  frames : Sparse FrameUse
  moves : List Move
  /-- what is held under R99 and R218: field, granule, write -/
  held : List (Nat × Nat × HeldBy)
  /-- (field, camp, step or millisecond) for which TIER_PLACE_SHORT was raised -/
  shorts : List (Nat × Nat × Nat)
  /-- (camp, object, mark) for which TIER_LATE was raised: of a step, the object's number and 2 token; of a descriptor, 2^16 field + object
  and 2 number + 1 -/
  lates : List (Nat × Nat × Nat)
  announces : List Announce
  windows : List Window
  waits : List TierWait
  /-- frames reserved for window copies (R552), keyed by 16 field + camp -/
  reserved : Sparse Nat
  /-- the dark channels of a field that placement has taken account of (R28, R111), bit n for channel n -/
  capDark : Sparse Nat
  /-- DIR_QUERY has been written since reset (R113) -/
  asked : Bool
deriving DecidableEq, Repr

/-! ### Bonded DRAM (chapter 05) -/

/-- A stack (R135): 0 NORMAL, 1 WARM, 2 SIMMER, 3 GRACE, 4 DARK; its temperature, dark cause, GRACE entry and length, and
the time of its last sample. -/
structure StackSt where
  state : Nat
  temp : Nat
  cause : Nat
  graceAt : Nat
  graceUs : Nat
  sampleAt : Nat
deriving DecidableEq, Repr

-- Log entry 6 (DESIGN CHOICE).
def StackSt.init : StackSt := ⟨0, 0, 0, 0, 0, 0⟩

/-- A channel (R147): 0 TRAINING, 1 UP, 3 DARK; refreshes owed; the lanes replaced; when corrections were attributed to its lanes in the
last 100 ms; the lanes to retrain at the next refresh (R140). -/
structure ChanSt where
  state : Nat
  owed : Nat
  spared : List Nat
  laneHits : Sparse (List Nat)
  retrain : List Nat
  /-- a retrain under way ends at this time -/
  quiet : Nat
  /-- its data bus is taken up to this time at the occupancy that its controller allows, in 1/256 ns (R118, R123, R135) -/
  busy : Nat
  /-- its narrow path is taken up to this time, at one narrow slot per ns (R118) -/
  narrow : Nat
  /-- the Weeder's share of its slots is taken up to this time, in quarters of a slot (R156) -/
  weed : Nat
deriving DecidableEq, Repr

def ChanSt.init : ChanSt := ⟨0, 0, [], [], [], 0, 0, 0, 0⟩

-- Log entry 37 (DESIGN CHOICE).
/-- A pod controller: DRAM_REFRESH_FORCED raised since its last burst; when a channel queue was last deep; the camp that each tier served
last (R125). -/
structure CtlSt where
  forced : Bool
  deepAt : Nat
  last0 : Nat
  last1 : Nat
deriving DecidableEq, Repr

def CtlSt.init : CtlSt := ⟨false, 0, 15, 15⟩

-- Log entry 36 (DEDUCED).
/-- A camp's two token buckets at a controller (R125), held as what is spent of a full bucket of a depth in bytes; depth 0 says that both
are full. -/
structure Bucket where
  guarantee : Nat
  cap : Nat
  depth : Nat
deriving DecidableEq, Repr

def Bucket.init : Bucket := ⟨0, 0, 0⟩

/-- The test port of a field (R141, R147). -/
structure TestPort where
  scanning : Bool
  scanDone : Bool
  errors : Nat
  rowsLeft : Nat
  err : Bool
  done : Bool
deriving DecidableEq, Repr

def TestPort.init : TestPort := ⟨false, false, 0, 0, false, false⟩

/-- Chapter 05. Channels are keyed by 32 field + channel, controllers by 4 field + pod, buckets by 16 controller + camp,
spare rows used by (32 field + channel) 16 + bank. -/
structure DramPart where
  stackSts : Sparse StackSt
  chans : Sparse ChanSt
  ctls : Sparse CtlSt
  buckets : Sparse Bucket
  tests : Sparse TestPort
  rowsUsed : Sparse Nat
  /-- each camp's GUARANTEE in force (R126); 225 for camp 0 where nothing is listed -/
  guar : Sparse Nat
deriving DecidableEq, Repr

/-! ### Codes, scrubbing and repair (chapter 06) -/

/-- A repair candidate (R161): memory 0 DRAM, 1 SRAM, 2 core-local; its unit, bank and place; its count. -/
structure Cand where
  mem : Nat
  unit : Nat
  bank : Nat
  place : Nat
  count : Nat
  byUe : Bool
  noSpare : Bool
deriving DecidableEq, Repr

/-- A soft repair or retirement in the repair store (R162, R163). -/
structure Repair where
  mem : Nat
  unit : Nat
  bank : Nat
  place : Nat
  retired : Bool
deriving DecidableEq, Repr

/-- One Weeder (R157): the offset of its next codeword, the start of its lap, whether the lap has raised WEEDER_LAP_SLOW,
and the length of its last lap. -/
structure Weeder where
  addr : Nat
  lapAt : Nat
  alarmed : Bool
  lapMs : Nat
deriving DecidableEq, Repr

def Weeder.init : Weeder := ⟨0, 0, false, 0⟩

-- Log entry 51 (DEDUCED).
/-- One field's integrity state. The trackers hold (place key, count), longest tracked first. -/
structure IntegField where
  rows : List (Nat × Nat)
  cols : List (Nat × Nat)
  cands : List Cand
  listFull : Bool
  poisonList : List Nat
  poisonFull : Bool
  soft : List Repair
  fused : List Repair
deriving DecidableEq, Repr

def IntegField.init : IntegField := ⟨[], [], [], false, [], false, [], []⟩

/-- An owner action that waits (R166, R117): 1 a directory entry to rebuild at a boundary, 2 an uncorrectable in a moving
granule, acted on after its switch; the granule, the word's address, and whether the Weeder found it. -/
structure OwnerAct where
  kind : Nat
  field : Nat
  item : Nat
  addr : Nat
deriving DecidableEq, Repr

/-- Chapter 06. Weeders are keyed by 4 field + memory. -/
structure IntegPart where
  weeders : Sparse Weeder
  fields : Sparse IntegField
  acts : List OwnerAct
  storeOk : Bool
  storeEntries : Nat
  flipErr : Nat
  /-- the WAFER_TIME at which start-up ended and the Weeders began (R158) -/
  weedFrom : Nat
deriving DecidableEq, Repr

/-! ### The Root Cellar (chapter 07) -/

-- Log entry 57 (DEDUCED).
/-- An image record (R174): STATE 1 INSTALLING, 2 SEALED, 3 DAMAGED, 4 ERASING; the units its damage list holds and how many
are damaged in all; the blocks of an ERASING image that are not erased yet. -/
structure Image where
  id : Nat
  camp : Nat
  state : Nat
  fieldUnits : Nat
  base : Nat
  version : Nat
  mark : Nat
  damaged : Nat
  damage : List Nat
  digest : Nat
  toErase : List Nat
deriving DecidableEq, Repr

/-- A physical block (R172, R181, R183): 0 in the pool or in the map as it stands, 1 the target of a running relocation, 2
waiting for its erase, 3 retired; its erase count, its read count, the count and base last saved, the reads in flight to it. -/
structure PBlock where
  use : Nat
  erases : Nat
  reads : Nat
  saved : Nat
  flight : Nat
  late : Bool
  /-- its controller's penalty when its count was last set -/
  base : Nat
  savedBase : Nat
deriving DecidableEq, Repr

-- Log entry 6 (DESIGN CHOICE).
def PBlock.init : PBlock := ⟨0, 0, 0, 0, 0, false, 0, 0⟩

/-- What a unit read serves: the moves that wait for the unit, a memory operation, an element or firmware reader of a camp under a
descriptor's number, the SEAL of a descriptor, or the relocation of the unit's block. -/
inductive ReadFor where
  | move
  | op (id : Nat)
  | bulk (camp key : Nat)
  | seal (camp seq : Nat)
  | reloc
deriving DecidableEq, Repr

/-- A queued unit read (R178, R180): whether it is a background read, the object of the field that it serves, its camp and class, the
physical block that the map named when it was issued. -/
structure UnitRead where
  unit : Nat
  back : Bool
  field : Nat
  object : Nat
  camp : Nat
  cls : Nat
  block : Nat
  who : ReadFor
deriving DecidableEq, Repr

/-- A unit that has been read for an element or a firmware reader: whether it could be. -/
structure UnitGot where
  who : ReadFor
  unit : Nat
  ok : Bool
deriving DecidableEq, Repr

/-- A SEAL under way (R176): its descriptor, its image, and the units that it has read, in order. -/
structure Seal where
  camp : Nat
  seq : Nat
  image : Nat
  data : List Nat
deriving DecidableEq, Repr

/-- A relocation queued or running (R181, R177): the channel, the logical block, the target while it runs plus 1, the units copied, and
the units that a WRITE replaces with their data. -/
structure Reloc where
  chan : Nat
  lblock : Nat
  target : Nat
  copied : Nat
  writes : List (Nat × Nat)
deriving DecidableEq, Repr

/-- A unit of an INSTALL WRITE in a staging buffer (R176, R177). -/
structure Staged where
  camp : Nat
  seq : Nat
  image : Nat
  unit : Nat
  data : Nat
  done : Bool
deriving DecidableEq, Repr

/-- A controller (R193): 0 MOUNTING, 1 UP, 2 DARK; the channels that are up; its hottest sensor; its thermal pause. -/
structure CcSt where
  state : Nat
  chans : Nat
  temp : Nat
  paused : Bool
  /-- what unclean mounts have added to every block's count (R187) -/
  penalty : Nat
  /-- the channels whose pool has raised CELLAR_SPARES_LOW -/
  low : Nat
deriving DecidableEq, Repr

def CcSt.init : CcSt := ⟨0, 0, 0, false, 0, 0⟩

-- Log entries 5 (DESIGN CHOICE), 54 (DEDUCED), 168 (DEDUCED).
/-- Chapter 07. Units hold their 32 KiB as one number; an unlisted unit holds 0. The map is keyed by 16,384 channel + logical
block and answers the block of the same number where nothing is listed; physical blocks by 20,480 channel + block. -/
structure CellarPart where
  images : List Image
  units : Sparse Nat
  /-- units that no read can decode (R188) -/
  lost : Sparse Bool
  map : Sparse Nat
  blocks : Sparse PBlock
  reads : List UnitRead
  relocs : List Reloc
  staged : List Staged
  seals : List Seal
  got : List UnitGot
  /-- the transfers of a channel since its last one for a relocation past the hard limit, at most 3 (R182) -/
  turns : Sparse Nat
  ccs : Sparse CcSt
  mounted : Bool
  unclean : Bool
  /-- bit k: controller k's read counts were saved in a ramp-down -/
  savedClean : Nat
  /-- the penalty that controller k last saved -/
  savedPenalty : Sparse Nat
deriving DecidableEq, Repr
/-! ### Thread cores (chapter 08) -/

/-- What a thread waits for (R195). -/
inductive Wait where
  | none
  /-- RATION.REQ with its destination register -/
  | ration (rd : Nat)
  /-- the core's wide grant, at SETVL: destination, VL and EW to set -/
  | wide (rd vl ew : Nat)
  /-- FENCE with its kind mask -/
  | fence (mask : Nat)
  | barrier
  /-- ARR.WAIT: the array of the field and the destination -/
  | array (n rd : Nat)
deriving DecidableEq, Repr

/-- The kind of an issued operation (R214): 0 load, 1 store or atomic, 2 memory-side add. `dst` says where a load's result
goes. -/
inductive LoadDst where
  | none
  | g (r : Nat) (signed : Bool) (bytes : Nat)
  | v (r : Nat) (elems width : Nat)
  /-- the next step's input buffer of a slot (R316) -/
  | input (slot : Nat)
deriving DecidableEq, Repr

/-- What an operation asks of its service point (R216). -/
inductive MemKind where
  | read
  /-- the bytes to store, as a little-endian number -/
  | write (val : Nat)
  /-- an atomic: operation, type, compare value, operand (R212) -/
  | atomic (fn ty cmp val : Nat)
  /-- memory-side adds: element type 0 i32, 1 i64, 2 fp32, 3 bf16 -/
  | add (ty val : Nat)
deriving DecidableEq, Repr

-- Log entry 43 (DESIGN CHOICE).
/-- An operation on its way (R216 to R218): who issued it, the addresses of its elements, and its outcome once performed.
Strided accesses name one address per element. -/
structure MemOp where
  id : Nat
  /-- the issuing thread's key, or a firmware or debug access when `none` -/
  thread : Option Nat
  camp : Nat
  epoch : Nat
  kind : MemKind
  addrs : List Nat
  /-- bytes at each address -/
  width : Nat
  poison : Bool
  dst : LoadDst
  /-- the source field, for the rights and the own local window -/
  field : Nat
  performed : Bool
  result : Nat
  resultPoison : Bool
  /-- the frames that its read was served from (R98) -/
  against : List Nat
  /-- it stood in a channel queue when its stack entered GRACE (R136) -/
  queued : Bool
  /-- a read of a cellar home: 1 its unit read is queued, 2 delivered, 3 failed (R178) -/
  fed : Nat
  /-- the array that issued it (12 field + array), and for what: 0 tile fetch, 1 + r row r of a STREAM, 1024 + r row r of a DRAIN -/
  array : Option Nat
  tag : Nat
  /-- the PC of the issuing word -/
  pc : Nat
  /-- it waits for a granule (R248) -/
  waiting : Bool
  /-- the word that its result's poison came from (R168) -/
  badAt : Nat
deriving DecidableEq, Repr

/-- One hardware thread (R194). Registers are sparse: an unlisted g, p or v register holds 0. -/
structure ThreadSt where
  live : Bool
  job : Nat
  g : Sparse W64
  p : Sparse W64
  v : Sparse (BitVec 1024)
  vl : Nat
  ew : Nat
  pc : Nat
  /-- poison bits of g, p and v -/
  gp : Nat
  pp : Nat
  vp : Nat
  fpflags : Nat
  /-- explicit rations charged to wide mode (R209) -/
  charged : Nat
  wait : Wait
  /-- array programs started and not seen finished -/
  progs : List Nat
  /-- the word that the last poison which reached a register came from (R168) -/
  badAt : Nat
deriving DecidableEq, Repr

-- Log entry 6 (DESIGN CHOICE).
def ThreadSt.init : ThreadSt := ⟨false, 0, [], [], [], 0, 1, 0, 0, 0, 0, 0, 0, .none, [], 0⟩

/-- One core: rations that its threads have charged to its wide mode, when a thread last had a wide VL, the thread that issued last (R195),
and the threads that have given up their next issue slot (R208). -/
structure CoreSt where
  charged : Nat
  lastWide : Nat
  last : Nat
  yielded : Nat
deriving DecidableEq, Repr

def CoreSt.init : CoreSt := ⟨0, 0, 3, 0⟩

/-- One JOB (R196), or one resident kernel at step work (R200): 0 waiting to launch, 1 launching, 2 running, 3 stopped by a fault. -/
structure Job where
  id : Nat
  camp : Nat
  seq : Nat
  fields : Nat
  cores : Nat
  threads : Nat
  arrays : Nat
  code : Nat
  codeLen : Nat
  entry : Nat
  arg : Nat
  stackKib : Nat
  limitMs : Nat
  phase : Nat
  start : Nat
  /-- code, thread, core, field, pc, address of the first fault -/
  fault : Option (Nat × Nat × Nat × Nat × Nat × Nat)
  /-- the status plus 1 with which something other than a fault ends it, and its body -/
  ended : Nat
  body : Nat
  /-- a resident kernel: its program's words, and the slots whose rows it works for -/
  kernel : Bool
  words : List Nat
  rows : List Nat
deriving DecidableEq, Repr

/-- Chapter 08: the JOBs and the resident kernels, the threads, the cores, and every memory operation in flight. -/
structure ThreadPart where
  jobs : List Job
  nextJob : Nat
  threads : Sparse ThreadSt
  cores : Sparse CoreSt
  ops : List MemOp
  nextOp : Nat
deriving DecidableEq, Repr

/-! ### Matrix arrays (chapter 09) -/

/-- A tile (R232, R248): 0 EMPTY, 1 VALID, 2 INVALID, 3 POISONED, 4 SHIFTING; its FMT and its image, a little-endian number. -/
structure Tile where
  state : Nat
  fmt : Nat
  image : Nat
deriving DecidableEq, Repr

-- Log entry 114 (DEDUCED).
/-- A VALID accumulator row (R232): 128 fp32 sums, column 0 lowest, and its POISON flag. -/
structure AccRow where
  data : Nat
  poison : Bool
deriving DecidableEq, Repr

/-- One array (R232 to R248). -/
structure ArrSt where
  /-- who held it last: 0 none, 1 a JOB, which holds it still, 2 a resident kernel of the camp -/
  kind : Nat
  camp : Nat
  job : Nat
  active : Tile
  shadow : Tile
  /-- VALID rows; an unlisted row is not VALID -/
  acc : Sparse (Option AccRow)
  /-- word i of bank n at 512 n + i -/
  banks : Sparse W64
  /-- the sequencer has words to issue -/
  running : Bool
  bank : Nat
  index : Nat
  /-- a queued bank: its start index, and the thread and PC of its ARR.RUN -/
  next : Option (Nat × Nat × Nat)
  words : Nat
  err : Nat
  aborted : Bool
  nanSeen : Bool
  /-- an abort has not reached its last step -/
  aborting : Bool
  /-- the thread and PC of the ARR.RUN of the present program, until it has finished -/
  starter : Option (Nat × Nat)
  /-- the shift in progress: its FMT and the address of its image -/
  shift : Option (Nat × Nat)
  /-- STREAMs whose rows have not all left, oldest first: first row, rows, CLEAR -/
  flight : List (Nat × Nat × Bool)
  /-- the DRAIN in progress: first row, rows -/
  drain : Option (Nat × Nat)
  /-- the STALL code of the word at the head -/
  headStall : Nat
  /-- which accesses wait for a granule: bit 2 tile fetch, bit 3 activation read, bit 4 drain write -/
  late : Nat
  /-- since when STALL is not 0 (plus 1), and whether ARRAY_STALL was raised for this stall -/
  stallAt : Nat
  stallRaised : Bool
  /-- since when (plus 1) the shift grant and the stream grant idle in their hold time -/
  shiftIdle : Nat
  streamIdle : Nat
  /-- the threads of queued programs that an ABORT has cleared, until its last step (R240) -/
  dropped : List Nat
deriving DecidableEq, Repr

def Tile.empty : Tile := ⟨0, 0, 0⟩

-- Log entry 6 (DESIGN CHOICE).
def ArrSt.init : ArrSt :=
  ⟨0, 0, 0, .empty, .empty, [], [], false, 0, 0, none, 0, 0, false, false, false, none, none, [], none, 0, 0, 0, false, 0, 0, []⟩

/-! ### The paged KV cache (chapter 10) -/

/-- A page in use or reserved ahead (R259), keyed by field and first frame: its model, its reference count, its holes. -/
structure PageEnt where
  camp : Nat
  model : Nat
  frames : Nat
  refcnt : Nat
  holes : Nat
  /-- 2 a page, 5 reserved ahead -/
  kind : Nat
  sealed : Bool
  indexed : Bool
  dropped : Bool
deriving DecidableEq, Repr

/-- A tray (R259, R262): its slot, its pair, its camp, its bytes; whether the key and the value half have been
transplanted in this step. -/
structure TrayEnt where
  slot : Nat
  pair : Nat
  camp : Nat
  bytes : Nat
  keysMoved : Bool
  valuesMoved : Bool
deriving DecidableEq, Repr

/-- A prefix-index entry (R271): its key, its token ids, its pages (pair, field, frame), and when it last matched. -/
structure PrefixEnt where
  camp : Nat
  model : Nat
  row : Nat
  hash : Nat
  toks : List Nat
  pages : List (Nat × Nat × Nat)
  matched : Nat
deriving DecidableEq, Repr

/-- A PTE block of a field's Sequence Page Tables (R256, R257), under its block number: its slot, its pair and FIRST_PAGE. NEXT and
COUNT follow from the blocks of the pair, the PTEs from `PagePart.ptes`. -/
structure PteBlk where
  slot : Nat
  pair : Nat
  first : Nat
deriving DecidableEq, Repr

/-- Chapter 10. PTEs are keyed by (slot 2^16 + pair) 2^13 + page, pages by field 2^20 + first frame, trays by field 2^16 +
tray, mass records as pages. -/
structure PagePart where
  ptes : Sparse Nat
  pages : Sparse (Option PageEnt)
  trays : Sparse (Option TrayEnt)
  index : List PrefixEnt
  mass : Sparse Nat
  /-- the fields whose KV_POOL_LOW is raised and not yet rearmed -/
  low : List Nat
  /-- the PTE blocks (R256), keyed by field 2^32 + block number -/
  blocks : Sparse (Option PteBlk)
  /-- the runs of a model's pool in a field (R261), by their first frames in ascending order, keyed by `poolKey` -/
  pools : Sparse (List Nat)
  /-- the elements of page services that have not been acknowledged (R274) -/
  elems : List PageElem
deriving DecidableEq, Repr

/-! ### Attention and sampling (chapters 11 and 12) -/

/-- A node of a merge tree (R287, R308): which tree, its level and index, whether it stands at its merge node, and its record. -/
structure TreeNode (α : Type) where
  src : Nat
  lvl : Nat
  idx : Nat
  arrived : Bool
  val : α
deriving DecidableEq, Repr

/-- A ring pass at one field (R291): the chunk in hand, its pages, and the running level-1 result. -/
structure AttFold where
  src : Nat
  field : Nat
  pages : Nat
  chunk : AttVal
  acc : Option AttVal
deriving DecidableEq, Repr

/-- A query position of a sequence and a pair in its step: `many` says that KV rows circulate for it (R290). -/
structure AttItem where
  camp : Nat
  slot : Nat
  pair : Nat
  pos : Nat
  scale : Nat
  queries : List Nat
  many : Bool
  fields : List Nat
  nodes : List (TreeNode AttVal)
  folds : List AttFold
  /-- finished level-2 results by source wafer -/
  wafers : List (Nat × AttVal)
deriving DecidableEq, Repr

/-- Chapter 11: the items, and the camps whose ATT_NAN is raised for their present step: camp, step. -/
structure AttPart where
  items : List AttItem
  nanSeen : List (Nat × Nat)
deriving DecidableEq, Repr

-- Log entry 101 (DEDUCED).
/-- A row being sampled (R306 to R314): its batch index, its shards by field with their logits, the fields whose shard is drained but not
yet read, the pass in hand (1, 2, 3), the fields that have run it, and this wafer's and the row's merged records. -/
structure SampRow where
  camp : Nat
  slot : Nat
  pos : Nat
  index : Nat
  pass : Nat
  shards : List (Nat × List Nat)
  queued : List Nat
  ran : List Nat
  nodes1 : List (TreeNode Pass1)
  nodes2 : List (TreeNode Pass2)
  here1 : Option Pass1
  here2 : Option Pass2
  m1 : Option Pass1
  m2 : Option Pass2
deriving DecidableEq, Repr

/-- Chapter 12: the rows; the bytes drained in a field's present wave of a step (camp, field, step, bytes); the camps whose SAMPLE_NAN and
SAMPLE_NONFINITE are raised for their present step (camp, step). -/
structure SampPart where
  rows : List SampRow
  waves : List (Nat × Nat × Nat × Nat)
  nanSeen : List (Nat × Nat)
  oddSeen : List (Nat × Nat)
deriving DecidableEq, Repr

/-! ### The serving loop and the phases (chapters 13 and 14) -/

/-- A loaded model (R426, R552): 0 loading, 1 loaded, 2 its UNLOAD_MODEL consumed. `rank` is this wafer's place in its slice
group; `pool` the pages of its pool in a field (0 without a pool), `log` the granules of its token log. -/
structure Model where
  camp : Nat
  id : Nat
  state : Nat
  incomplete : Bool
  scoreOnly : Bool
  layers : Nat
  kvHeads : Nat
  group : Nat
  dim : Nat
  vocab : Nat
  team : Nat
  depth : Nat
  trayKib : Nat
  combineKib : Nat
  layout : Nat
  sliceW : Nat
  rank : Nat
  /-- pool rows, 0 without a pool -/
  rows : Nat
  log : Nat
  objs : List Nat
  seq : Nat
  unload : Nat
  bytesDram : Nat
  bytesCellar : Nat
  /-- frames per field reserved for its window copies (R552) -/
  windows : Nat
  /-- the folds that its load applies (R236) -/
  folds : List LoadFold
  /-- the parts of its embedding object (R316) -/
  embeds : List EmbedPart
deriving DecidableEq, Repr

-- Log entry 104 (DEDUCED).
/-- A row's result record as the sampling unit writes it to the serving core (R314), and the status: 0 OK, else what ends the request. -/
structure StepResult where
  camp : Nat
  slot : Nat
  position : Nat
  token : Nat
  logit : Nat
  logprob : Nat
  lse : Nat
  survivors : Nat
  flags : Nat
  nans : Nat
  index : Nat
  status : Nat
deriving DecidableEq, Repr

-- Log entry 76 (DESIGN CHOICE).
/-- A request (R328): its descriptor's parameters and its token ids, waiting or admitted. `kind` is 0 GENERATE, 1 FORK_GROUP,
2 SCORE; `tokens` prompt and forced tokens; `readBad` 0, or the status that a failed read of its token ids gives (R386). -/
structure Request where
  camp : Nat
  seq : Nat
  fn : Nat
  ring : Nat
  kind : Nat
  cls : Nat
  model : Nat
  forks : Nat
  promptLen : Nat
  maxNew : Nat
  tokens : List Nat
  readBad : Nat
  raw : Nat
  age : Nat
  deferred : Nat
  reason : Nat
deriving DecidableEq, Repr

/-- A slot that is not FREE (R325): 1 PREFILL, 2 DECODE, 3 PREEMPTED, 4 ENDING. `t` positions written; `todo` positions that its
prefill or recompute still writes, and `quota` those of the present step; `ended`
0, or the status plus 1 with which another chapter ended it. -/
structure Slot where
  slot : Nat
  camp : Nat
  seq : Nat
  fork : Nat
  state : Nat
  log : List Nat
  t : Nat
  todo : Nat
  quota : Nat
  /-- positions that a recompute still rewrites (R339), and those of the present step -/
  redo : Nat
  redoQuota : Nat
  /-- it recomputes after having been in DECODE -/
  resume : Bool
  /-- it waits for fork 0's prompt -/
  follows : Bool
  preempts : Nat
  deferred : Nat
  skip : Bool
  void : Bool
  /-- positions of its trays are lost (R166) -/
  trayLost : Bool
  held : Bool
  holes : Bool
  /-- tokens recorded -/
  gen : Nat
  admitted : Nat
  ended : Nat
  endBody : Nat
  /-- the model that its request names -/
  model : Nat
  /-- poison came into its input buffer (R316) -/
  badInput : Bool
deriving DecidableEq, Repr

-- Log entry 83 (DEDUCED).
/-- A sequence that has ended: its request, its fork index, and what the request's completion says of it (R355, R418). -/
structure ForkEnd where
  camp : Nat
  seq : Nat
  fork : Nat
  slot : Nat
  status : Nat
  generated : Nat
  deferred : Nat
  preempts : Nat
  t : Nat
  why : Nat
  body : Nat
deriving DecidableEq, Repr

-- Log entry 90 (DEDUCED).
/-- A PHASE in hand (R350): waiting, started (time plus 1), its drain limit passed, switched (time plus 1). -/
structure PhaseJob where
  camp : Nat
  seq : Nat
  target : Nat
  hold : Bool
  drainMs : Nat
  modelA : Nat
  modelB : Nat
  arena : Nat
  /-- unified address, host address, granules -/
  park : List (Nat × Nat × Nat)
  started : Nat
  limit : Bool
  switched : Nat
  held : Nat
  old : Nat
deriving DecidableEq, Repr

/-- A parked object (R360): its granules that have reached host memory, and whether all have. -/
structure Park where
  camp : Nat
  entry : Nat
  addr : Nat
  host : Nat
  granules : Nat
  done : List Nat
  landed : Bool
  started : Nat
deriving DecidableEq, Repr

/-- A REFRESH in hand (R361): whether it has written a tile, and the fields whose desks its kernels have asked (R367). -/
structure Refresh where
  camp : Nat
  seq : Nat
  model : Nat
  members : Nat
  started : Nat
  wrote : Bool
  tiles : Nat
  fields : List Nat
deriving DecidableEq, Repr

/-- One camp's phase (R348, R371): the phase, the models it serves, the policy version, the last switch and refresh, and
when it last went idle. -/
structure PhaseSt where
  phase : Nat
  modelA : Nat
  modelB : Nat
  version : Nat
  switchUs : Nat
  refreshUs : Nat
  idleAt : Nat
  projected : Nat
  /-- SERVE_QUEUE_FULL raised -/
  full : Bool
  /-- a boundary whose item 1 waits for room in TOKEN rings (R409) -/
  waiting : Bool
  /-- RATION deferral until RAMP_SETTLED (R336) -/
  ramping : Bool
  /-- parked frames were freed: the pools grow at item 5 (R360) -/
  grow : Bool
deriving DecidableEq, Repr

def PhaseSt.init : PhaseSt := ⟨0, 0, 0, 0, 0, 0, 0, 0, false, false, false, false⟩

/-- The serving loop and the phases. `stats` are the STATS that wait for item 4 (R432): camp and number. -/
structure ServePart where
  models : List Model
  queue : List Request
  requests : List Request
  slots : List Slot
  results : List StepResult
  forkEnds : List ForkEnd
  phases : Sparse PhaseSt
  phaseJobs : List PhaseJob
  parks : List Park
  refreshes : List Refresh
  stats : List (Nat × Nat)
  /-- CANCELs observed in the present step: camp, number, target -/
  cancels : List (Nat × Nat × Nat)
  /-- CANCELs consumed after the leader has held every STEP_DONE of the present step (R342) -/
  lateCancels : List (Nat × Nat × Nat)
  /-- requests completed at item 1 of the present boundary: camp, number, status -/
  justDone : List (Nat × Nat × Nat)
  /-- requests whose deferral the present boundary has counted: camp, number -/
  counted : List (Nat × Nat)
  nextAdmit : Nat
deriving DecidableEq, Repr

/-! ### Yilgil links, the domain and collectives (chapter 17) -/

/-- A port (R444 to R446, R467): 0 OFF, 1 DOWN, 2 TRAINING, 3 UP, 4 HELD; and its link layer (R441, R443). -/
structure YgPort where
  state : Nat
  /-- its lanes have asked for their rations -/
  asked : Bool
  /-- the logical lane that the spare carries, or 7 -/
  spareFor : Nat
  /-- the logical lane that the retrain in hand moves to the spare, or 7 -/
  sick : Nat
  peer : Nat
  peerPort : Nat
  delay : Nat
  eye : Nat
  /-- the times of its retrains and failed trainings, newest first -/
  history : List Nat
  /-- when it tries to train again -/
  retryAt : Nat
  /-- the next codeword expected; every codeword before a REPLAY of it is discarded -/
  rxSeq : Nat
  replaying : Bool
  /-- flits delivered and not taken yet -/
  stream : List Nat
  txSeq : Nat
  /-- codewords sent and not acknowledged, oldest first: number, flits -/
  unacked : List (Nat × List Nat)
  /-- what the peer's four buffers can take -/
  credits : List Nat
  /-- packets that wait for credit or for an acknowledgement: buffer, flits -/
  waiting : List (Nat × List Nat)
  /-- the codeword last named by a NAK, and how often without progress -/
  nakSeq : Nat
  naks : Nat
  /-- corrected symbols by logical lane, since a time -/
  laneHits : Sparse Nat
  laneSince : Nat
  /-- uncorrectable codewords, since a time -/
  bad : Nat
  badSince : Nat
deriving DecidableEq, Repr

-- Log entry 128 (DEDUCED).
def YgPort.init : YgPort := ⟨0, false, 7, 7, 0, 0, 0, 0, [], 0, 0, false, [], 0, [], [512, 512, 512, 512], [], 0, 0, [], 0, 0, 0⟩

/-- Whose work a part is (R455): a JOB's, by the physical address of its queue entry's first byte in the unified range; or a resident
kernel's. -/
inductive CollUser where
  | entry (addr : Nat)
  | att (slot pair pos : Nat)
  | pass1 (slot pos : Nat)
  | pass2 (slot pos : Nat)
  /-- the ring passes of one layer -/
  | ring (slot layer : Nat)
  /-- the step barrier of a slice group -/
  | step
deriving DecidableEq, Repr

-- Log entry 143 (DESIGN CHOICE).
/-- An open part of a collective instance (R455, R458). -/
structure CollPart where
  serial : Nat
  camp : Nat
  id : Nat
  field : Nat
  op : Nat
  group : Nat
  dtype : Nat
  root : Nat
  model : Nat
  members : Nat
  rank : Nat
  src : Nat
  dst : Nat
  length : Nat
  lateMs : Nat
  at_ : Nat
  pausedUs : Nat
  user : CollUser
deriving DecidableEq, Repr

/-- The ABORT messages of an instance that this member has sent or received (R459): who was named and who sent one, as member rank and
field. -/
structure AbortSet where
  camp : Nat
  id : Nat
  at_ : Nat
  named : List (Nat × Nat)
  senders : List Nat
deriving DecidableEq, Repr

/-- How an instance ended at an agent (R460). -/
structure CollEnd where
  id : Nat
  status : Nat
  module : Nat
  field : Nat
deriving DecidableEq, Repr

/-- The domain clock (R453, R454). -/
structure DomainSt where
  joined : Bool
  locked : Bool
  root : Nat
  offset : Int
  skew : Int
  lastMsg : Nat
  unlockedAt : Nat
  /-- what WAFER_TIME has still to gain or lose by slewing, and the µs since its last ns of it (R50, R453) -/
  slew : Int
  beat : Nat
deriving DecidableEq, Repr

-- Log entries 134 (DEDUCED), 140 (DEDUCED).
/-- Chapter 17. -/
structure YgPart where
  ports : Sparse YgPort
  domain : DomainSt
  parts : List CollPart
  nextPart : Nat
  /-- the last 4,096 ended instances of a camp at an agent, oldest first, by 16 field + camp -/
  ended : Sparse (List CollEnd)
  aborts : List AbortSet
  /-- the next entry of a collective queue, by (16 field + camp) 2^25 + granule -/
  heads : Sparse Nat
  /-- the next FLOW_SEQ of a flow received, plus 1, and sent -/
  flowsIn : Sparse Nat
  flowsOut : Sparse Nat
  /-- packets that wait for a port of their bundle: flits -/
  held : List (List Nat)
  /-- the fields that have sent SLOW -/
  slow : List Nat
  /-- the sources that have sent SLOW: camp, instance, member rank, field -/
  slowFrom : List (Nat × Nat × Nat × Nat)
  /-- members whose member list differs from this module's: camp, module -/
  split : List (Nat × Nat)
deriving DecidableEq, Repr

/-! ### The module (chapter 19) -/

-- Log entries 6 (DESIGN CHOICE), 154 (DEDUCED), 165 (DEDUCED).
/-- Chapter 19: the input, the rails, the logic sensors and throttle, the sideband, the coolant, the shunt, the trip. -/
structure ModulePart where
  vinMv : Nat
  iinDa : Nat
  pinW : Nat
  auxW : Nat
  pwrGood : Bool
  auxOk : Bool
  contactor : Bool
  /-- one bit per field: its stage runs -/
  stages : Nat
  shunt : Bool
  underVolt : Bool
  powerOver : Bool
  logicPct : Nat
  logicC : Sparse Nat
  vcoreMv : Sparse Nat
  lastStep : Nat
  coolSince : Nat
  force : Bool
  forceSince : Int
  forceHeld : Nat
  /-- one bit per host port: accepted assertion of PERST_N -/
  perst : Nat
  perstStuck : Nat
  inletC : Nat
  outletC : Nat
  flowDlpm : Nat
  coolantAlarm : Bool
  /-- THERM_TRIP_N latched -/
  trip : Bool
  /-- a trip recorded in boot flash that the next start-up reports: field and temperature -/
  tripNote : Option (Nat × Nat)
  /-- a power-off is ramping the wafer down (R503) -/
  offRamp : Bool
deriving DecidableEq, Repr

/-! ### The debug aperture (chapter 21): capture entries of 128 bytes by index (R548) -/

-- Log entry 24 (DESIGN CHOICE).
structure DbgPart where
  capture : Sparse Nat
  next : Nat
deriving DecidableEq, Repr

/-! ### What the block drives outward -/

-- Log entries 8 (DESIGN CHOICE), 121 (DEDUCED), 184 (DESIGN CHOICE).
/-- One message the block has sent: host writes, the reads that flush them, messages to the management controller, packets, pins. -/
inductive Out where
  /-- a write to host memory; `ro` says that it carries the RO attribute (R384) -/
  | hostWrite (fn addr len val : Nat) (ro : Bool)
  /-- the read of a port that carried a descriptor's data writes, before its completion is written (R561) -/
  | flushRead (fn : Nat)
  | msix (fn vec addr data : Nat)
  | readData (fn off val : Nat)
  | tlpStatus (fn status : Nat)
  /-- a packet delivered to its endpoint: its header and its payload flits -/
  | packet (site : Nat) (poison : Bool) (header : Nat) (payload : List Nat)
  | token (camp field step : Nat)
  | mctp (msgType code : Nat) (data : List Nat)
  /-- a codeword sent on a port: number, REPLAY, flits -/
  | codeword (port seq : Nat) (replay : Bool) (flits : List Nat)
  /-- an SPDM response, over DOE or over MCTP -/
  | spdm (doe : Bool) (code : Nat) (data : List Nat)
  | powerOff
  | throttle (pct : Nat)
  /-- an attention row for a layer's output projection (R288): its heads' bf16 rows -/
  | attRow (camp slot pair pos : Nat) (rows : List Nat)
  /-- a piece of a ring pass sent to the next wafer (R291) -/
  | ringPiece (field slot layer row src : Nat)
deriving DecidableEq, Repr

/-! ### The block -/

-- Log entry 8 (DESIGN CHOICE).
/-- Everything the spec gives the machine, one part per chapter. -/
structure Block where
  /-- The writable registers, keyed by offset (R2 to R12); an unlisted word reads its reset word. -/
  regs : Sparse W32
  /-- The values in force of STEP fields (R8, R9): keyed by offset, and by (camp + 1) 2^32 + offset for camp-read fields. -/
  force : Sparse W32
  /-- The latched high words (R3), keyed by function times 2^32 plus the offset of the low word. -/
  latch : Sparse (Option W32)
  /-- The staged low words (R4), keyed likewise. -/
  staged : Sparse (Option W32)
  /-- Chapter 01. -/
  wafer : WaferPart
  /-- Chapter 02. -/
  fab : FabPart
  /-- Chapter 15. -/
  host : HostPart
  /-- Chapter 16. -/
  ring : RingPart
  /-- Chapter 18. -/
  camp : CampPart
  /-- Chapter 20. -/
  boot : BootPart
  /-- Chapter 21. -/
  dbg : DbgPart
  /-- What the block has sent outward, newest first (the model's own record of its output wires). -/
  out : List Out
  /-- The model's own counter: how many free values have been taken. -/
  free : Nat
  /-- Chapter 03. -/
  rat : RationPart
  /-- Chapter 19. -/
  modu : ModulePart
  /-- Chapter 08. -/
  tc : ThreadPart
  /-- Chapter 09: the arrays, by 12 times the field plus the array. -/
  arr : Sparse ArrSt
  /-- Chapter 11. -/
  att : AttPart
  /-- Chapter 12. -/
  samp : SampPart
  /-- The memories, by physical global address. -/
  mem : MemPart
  /-- Chapter 04. -/
  tier : TierPart
  /-- Chapter 05. -/
  dram : DramPart
  /-- Chapter 06. -/
  integ : IntegPart
  /-- Chapter 07. -/
  cellar : CellarPart
  /-- Chapter 10. -/
  page : PagePart
  /-- Chapters 13 and 14. -/
  serve : ServePart
  /-- Chapter 17. -/
  yg : YgPart
deriving DecidableEq, Repr

-- Log entries 3 (DESIGN CHOICE), 6 (DESIGN CHOICE).
/-- The block right after reset. -/
def Block.reset : Block where
  regs := []
  force := []
  latch := []
  staged := []
  wafer := ⟨fuseKinds, 0, 0, [], 0, 0⟩
  fab := ⟨false, 0, 0, [], [], [], [], [], [], [], [], [], [], 0⟩
  host := ⟨[], [], [], [], [], [], [], [], []⟩
  ring := ⟨[], [], []⟩
  camp := ⟨[], [], [], 0, 0, 0, 0, 0, 0, 0, 0, 0, [], [], []⟩
  boot := ⟨false, Enables.init, 0, false, false, 0, 0, 0, 0, 0, 0, [], 0, false, false, false, [], 0, 0, 0, false, false, [], false, 0, 0⟩
  dbg := ⟨[], 0⟩
  out := []
  free := 0
  rat := ⟨[], 95, 95, [], 0⟩
  modu := ⟨0, 0, 0, 0, false, false, false, 0, false, false, false, 100, [], [], 0, 0, false, 0, 0, 0, 0, 0, 0, 0, false, false, none, false⟩
  tc := ⟨[], 0, [], [], [], 0⟩
  arr := []
  att := ⟨[], []⟩
  samp := ⟨[], [], [], []⟩
  mem := ⟨[], [], [], [], []⟩
  tier := ⟨[], [], [], [], [], [], [], [], [], [], [], [], false⟩
  dram := ⟨[], [], [], [], [], [], []⟩
  integ := ⟨[], [], [], false, 0, 0, 0⟩
  cellar := ⟨[], [], [], [], [], [], [], [], [], [], [], [], false, false, 0xFF, []⟩
  page := ⟨[], [], [], [], [], [], [], [], []⟩
  serve := ⟨[], [], [], [], [], [], [], [], [], [], [], [], [], [], [], 0⟩
  yg := ⟨[], ⟨false, false, 0, 0, 0, 0, 0, 0, 0⟩, [], 0, [], [], [], [], [], [], [], [], []⟩

-- Log entries 1 (DESIGN CHOICE), 184 (DESIGN CHOICE).
/-- The machine: the block and the commands that wait, first in, first out. -/
structure State where
  blk : Block
  pending : List Instr
deriving DecidableEq, Repr

-- Log entry 6 (DESIGN CHOICE).
/-- The machine right after reset (R521): every register at its Reset value, nothing listed in any store, the queue empty. -/
def State.reset : State := ⟨Block.reset, []⟩

/-- Why the machine could stop with a fault. No command of this block raises one: the spec gives every command an effect. -/
inductive Fault where
  /-- Raised by no meaning (safe: it cannot occur). -/
  | none
deriving DecidableEq, Repr

/-- Why the model could refuse a command. -/
inductive Refusal where
  /-- A command whose meaning is not written yet (raised by an arm of `exec` only; safe: the machine stops). -/
  | notModelled (mnemonic : String)
deriving DecidableEq, Repr

end Sys2Proof.Machine
end

