-- ==== Sys2Proof/Machine/Ops.lean ====
section
/-! DEFINITION. The named operations of the block: registers and their fields, the camp table, the wafer map, events,
completions, records and what goes outward. -/
namespace Sys2Proof.Machine

/-! ### Registers (R2 to R12) -/

/-- The bits of a register word below bit `lo + width` and from `lo` up. -/
def wordGet (w : W32) (lo width : Nat) : Nat := (w.extractLsb' lo width).toNat

/-- The word with `v` in the `width` bits from `lo` up. -/
def wordSet (w : W32) (lo width v : Nat) : W32 :=
  let mask : W32 := BitVec.ofNat 32 ((2 ^ width - 1) <<< lo)
  (w &&& ~~~mask) ||| (BitVec.ofNat 32 (v <<< lo) &&& mask)

/-- The word that stands at an offset of the bank. -/
def regWord (r : Sparse W32) (off : Nat) : W32 := sget resetWord r off

/-- A field of the bank. -/
def fldGet (r : Sparse W32) (f : Fld) : Nat := wordGet (regWord r f.off) f.lo f.width

/-- The bank with a field changed. -/
def fldSet (r : Sparse W32) (f : Fld) (v : Nat) : Sparse W32 :=
  sset resetWord r f.off (wordSet (regWord r f.off) f.lo f.width v)

/-- The bank with a counter raised by `n`, stopping at its top (R12). -/
def fldAdd (r : Sparse W32) (f : Fld) (n : Nat) : Sparse W32 := fldSet r f (satTo f.width (fldGet r f + n))

/-- Read a field: what it was last written (R11). -/
def Block.fget (b : Block) (f : Fld) : Nat := fldGet b.regs f

/-- Write a field. -/
def Block.fset (b : Block) (f : Fld) (v : Nat) : Block := { b with regs := fldSet b.regs f v }

/-- Count `n` events (R12). -/
def Block.count (b : Block) (f : Fld) (n : Nat) : Block := { b with regs := fldAdd b.regs f n }

/-- Count one event. -/
def Block.bump (b : Block) (f : Fld) : Block := b.count f 1

/-- Raise a highest-since-clear field. -/
def Block.peak (b : Block) (f : Fld) (v : Nat) : Block := b.fset f (max (b.fget f) v)

/-- The reset word behind a key of the in-force bank. -/
def forceWord (k : Nat) : W32 := resetWord (k % 2 ^ 32)

/-- A STEP field's value in force (R8). -/
def Block.inForce (b : Block) (f : Fld) : Nat := wordGet (sget forceWord b.force f.off) f.lo f.width

/-- A camp-read field's value in force for a camp (R9). -/
def Block.inForceFor (b : Block) (c : Nat) (f : Fld) : Nat :=
  wordGet (sget forceWord b.force ((c + 1) * 2 ^ 32 + f.off)) f.lo f.width

/-! ### The camp table (R470 to R473) -/

/-- The default image (R473). -/
def defaultImage (o : Nat) : Byte :=
  if o = 0 then 1 else if o = 6 then 0x10 else if o = 9 then 0x0C else if o = 10 then 0xE1
  else if o = 14 then 1 else if o = 17 then 0x40 else if o = 512 then 0x10 else if o = 579 then 30 else 0

/-- The bytes of an image. -/
def imageLen : Nat := 4736

def imgByte (m : Sparse Byte) (o : Nat) : Byte := sget defaultImage m o

/-- A little-endian field of an image. -/
def imgField (m : Sparse Byte) (o n : Nat) : Nat := readLE (imgByte m) o n

def campEnabled (m : Sparse Byte) (c : Nat) : Bool := bitAt (imgField m (32 * c) 1) 0
def campDram (m : Sparse Byte) (c : Nat) : Nat := imgField m (32 * c + 4) 4
def campSram (m : Sparse Byte) (c : Nat) : Nat := imgField m (32 * c + 8) 2
def campGuarantee (m : Sparse Byte) (c : Nat) : Nat := imgField m (32 * c + 10) 2
def campSlots (m : Sparse Byte) (c : Nat) : Nat := imgField m (32 * c + 12) 4
def campExtents (m : Sparse Byte) (c : Nat) : Nat := imgField m (32 * c + 16) 2
def campMembers (m : Sparse Byte) (c : Nat) : Nat := imgField m (32 * c + 18) 2
def fnByte (m : Sparse Byte) (fn : Nat) : Nat := imgField m (512 + fn) 1
def minSvn (m : Sparse Byte) : Nat := imgField m 576 2
def debugUnlock (m : Sparse Byte) : Bool := bitAt (imgField m 578 1) 0
def windowS (m : Sparse Byte) : Nat := imgField m 579 1
def fuseCommitMask (m : Sparse Byte) : Nat := imgField m 580 12

/-- A camp's member list, module IDs in rank order (R470, R471). -/
def memberList (m : Sparse Byte) (c : Nat) : List Nat :=
  (List.range (campMembers m c)).map fun i => (imgByte m (640 + 256 * c + i)).toNat

/-- Is the function mapped to a camp (R393)? -/
def Block.fnMapped (b : Block) (fn : Nat) : Bool := bitAt (fnByte b.camp.live fn) 4

/-- The function's camp. -/
def Block.fnCamp (b : Block) (fn : Nat) : Nat := bitsOf (fnByte b.camp.live fn) 0 4

/-- Does an FLR of the function reset its camp (R394)? -/
def Block.fnFlrCamp (b : Block) (fn : Nat) : Bool := bitAt (fnByte b.camp.live fn) 5

/-- Is the function mapped to this camp? -/
def Block.fnServes (b : Block) (fn c : Nat) : Bool := b.fnMapped fn && decide (b.fnCamp fn = c)

/-- Is the camp being reset (R533)? -/
def Block.resetting (b : Block) (c : Nat) : Bool := b.camp.resets.any (·.camp == c)

/-- Has the camp a step in progress? -/
def Block.inStep (b : Block) (c : Nat) : Bool := (sget (fun _ => StepSt.init) b.fab.steps c).inStep

/-! ### Functions (chapter 15) -/

def Block.fnSt (b : Block) (fn : Nat) : FnSt := sget (fun _ => FnSt.init) b.host.fns fn
def Block.portSt (b : Block) (p : Nat) : PortSt := sget (fun _ => PortSt.init) b.host.ports p

/-- A PF always exists; a VF exists while its PF's VF Enable is 1 and NumVFs reach it (R378). -/
def Block.fnExists (b : Block) (fn : Nat) : Bool :=
  decide (fn % 16 = 0) || ((b.portSt (fn / 16)).vfEnable && decide (fn % 16 ≤ (b.portSt (fn / 16)).numVfs))

/-- Can records reach the function (R390)? -/
def Block.fnReceives (b : Block) (fn : Nat) : Bool :=
  b.fnExists fn && (b.fnSt fn).bme && !(b.fnSt fn).d3 && (b.portSt (fn / 16)).up

/-- The key of an IDE stream. -/
def ideKey (port stream : Nat) : Nat := 8 * port + stream

def Block.ideSt (b : Block) (port stream : Nat) : IdeSt := sget (fun _ => IdeSt.init) b.host.ide (ideKey port stream)

-- Log entry 156 (DEDUCED).
/-- Does a stream's range cover a function (R392)? -/
def IdeSt.covers (x : IdeSt) (fn : Nat) : Bool := decide (x.state ≠ 0) && decide (x.ridBase ≤ fn % 16) && decide (fn % 16 ≤ x.ridLimit)

-- Log entry 156 (DEDUCED).
/-- Are the function's received TLPs dropped: its stream is Insecure until the host re-keys (R392)? -/
def Block.ideDrops (b : Block) (fn : Nat) : Bool :=
  (List.range 8).any fun i => (b.ideSt (fn / 16) i).covers fn && decide ((b.ideSt (fn / 16) i).state = 2)

/-- Does the function decode its BARs: it exists and is not in D3hot (R377, R378)? -/
def Block.fnDecodes (b : Block) (fn : Nat) : Bool := b.fnExists fn && !(b.fnSt fn).d3

/-! ### The wafer map (R13 to R17) -/

/-- First site, first column and length of each row (R13). -/
def gridRows : List (Nat × Nat × Nat) :=
  [(0, 3, 6), (6, 1, 10), (16, 0, 12), (28, 0, 12), (40, 0, 12), (52, 0, 12), (64, 0, 12), (76, 0, 12), (88, 1, 10), (98, 3, 6)]

/-- The row of a site. -/
def siteRow (s : Nat) : Nat :=
  if s < 6 then 0 else if s < 16 then 1 else if s < 28 then 2 else if s < 40 then 3 else if s < 52 then 4
  else if s < 64 then 5 else if s < 76 then 6 else if s < 88 then 7 else if s < 98 then 8 else 9

/-- The column of a site. -/
def siteCol (s : Nat) : Nat :=
  match gridRows[siteRow s]? with
  | some (first, col, _) => s - first + col
  | none => 0

/-- The site at a row and column, if the grid has one. -/
def siteAt (r c : Nat) : Option Nat :=
  match gridRows[r]? with
  | some (first, col, n) => if col ≤ c ∧ c < col + n then some (first + (c - col)) else none
  | none => none

/-- Does the site lack a grid neighbour (R13)? -/
def isEdge (s : Nat) : Bool :=
  let r := siteRow s; let c := siteCol s
  decide (r = 0) || decide (c = 0) || (siteAt (r - 1) c).isNone || (siteAt (r + 1) c).isNone || (siteAt r (c - 1)).isNone || (siteAt r (c + 1)).isNone

/-- The site of edge resource k: 0 to 23 Yilgil ports, 24 to 27 host ports, 28 to 35 cellar controllers (R17). -/
def edgeSite (k : Nat) : Nat :=
  [28, 40, 52, 64, 39, 51, 63, 75, 1, 2, 3, 4, 99, 100, 101, 102, 6, 7, 14, 15, 88, 89, 96, 97,
   16, 27, 76, 87, 0, 0, 5, 5, 98, 98, 103, 103].getD k 0

-- Log entry 3 (DESIGN CHOICE).
/-- The kind of a site: 0 FIELD, 1 SPARE, 2 PASS, 3 HOLE. -/
def siteKind (k : Sparse Nat) (s : Nat) : Nat := sget (fun _ => 0) k s

/-- How many sites below `n` have a kind. -/
def kindsBelow (k : Sparse Nat) (kind : Nat) : Nat → Nat
  | 0 => 0
  | n + 1 => (if siteKind k n = kind then 1 else 0) + kindsBelow k kind n

/-- The field of a site; 0xFF where it has none (R15). -/
def siteField (k : Sparse Nat) (s : Nat) : Nat := if siteKind k s = 0 then kindsBelow k 0 s else 0xFF

/-- The site of a field (R15); 0x7F for none. -/
def fieldSite (k : Sparse Nat) (f : Nat) : Nat :=
  ((List.range 104).find? fun s => decide (siteKind k s = 0) && decide (kindsBelow k 0 s = f)).getD 0x7F

-- Log entry 166 (DEDUCED).
/-- Has a field's power stage stopped while the module runs (R517)? -/
def Block.unpowered (b : Block) (f : Nat) : Bool := (b.modu.pwrGood || b.modu.offRamp) && decide (f < 96) && !bitAt b.modu.stages f

/-- The field of edge resource k. -/
def edgeField (b : Block) (k : Nat) : Nat := siteField b.wafer.kinds (edgeSite k)

def Block.fieldSt (b : Block) (f : Nat) : FieldSt := sget (fun _ => FieldSt.init) b.wafer.fields f

/-- The field's masks count only outside RESET and TESTING (R30). -/
def FieldSt.shown (f : FieldSt) (x : Nat) : Nat := if f.state < 2 then 0 else x

/-! ### Outward -/

-- Log entry 8 (DESIGN CHOICE).
/-- Send something outward. -/
def Block.send (b : Block) (o : Out) : Block := { b with out := o :: b.out }

/-- A TLP of a function arrives at its port: one of an Insecure stream is dropped (R392), one that the function does not decode receives
Unsupported Request (R385), and any other does what it says. -/
def Block.tlp (b : Block) (fn : Nat) (f : Block → Block) : Block :=
  if b.ideDrops fn then b
  else if b.fnDecodes fn = false then (b.bump (F.uncorrErrors (fn / 16))).send (.tlpStatus fn 1)
  else f b

-- Log entry 2 (DESIGN CHOICE).
/-- Take a fresh free value's index. -/
def Block.tick (b : Block) : Block := { b with free := b.free + 1 }

/-! ### Rings and records (R400 to R423) -/

/-- A ring's number among all rings. -/
def ringKey (fn i : Nat) : Nat := 64 * fn + i

def Block.ringSt (b : Block) (k : Nat) : RingSt := sget (fun _ => RingSt.init) b.ring.rings k

def ringKind (r : Sparse W32) (k : Nat) : Nat := fldGet r (F.ringCfgKind k)

/-- SIZE (R401). -/
def ringSize (r : Sparse W32) (k : Nat) : Nat := 2 ^ fldGet r (F.ringCfgLog2Size k)

/-- Entry bytes by kind (R400). -/
def entryBytes (kind : Nat) : Nat := if kind < 2 then 64 else if kind = 3 then 16 else 32

/-- Free entries of a device-written ring, records already waiting for it counted (R403, R409). -/
def ringFree (regs : Sparse W32) (p : RingPart) (k : Nat) : Nat :=
  let s := sget (fun _ => RingSt.init) p.rings k
  let size := ringSize regs k
  size - 1 - ((s.tail + size - s.head) % size + (p.outbox.filter fun r => ringKey r.fn r.ring == k).length)

/-- The bits of an event record without its phase (R423). -/
def Event.bits (e : Event) : Nat :=
  packBits [(0, 16, e.code), (16, 8, e.source), (24, 8, e.camp), (32, 64, e.time), (128, 128, e.payload)]

/-- The enabled EVENT rings that an event goes to (R411). -/
def eventRings (regs : Sparse W32) (live : Sparse Byte) (p : RingPart) (e : Event) : List Nat :=
  let c := if e.camp = 0xFF then 0 else e.camp
  (p.rings.filter fun kv =>
    kv.2.enabled && decide (ringKind regs kv.1 = 4) &&
    bitAt (fnByte live (kv.1 / 64)) 4 && decide (bitsOf (fnByte live (kv.1 / 64)) 0 4 = c) &&
    bitAt (fldGet regs (F.ringFilterAreaMask kv.1) <<< 1) (e.code / 256 % 16)).map (·.1)

/-- Is any EVENT ring enabled (R541)? -/
def anyEventRing (regs : Sparse W32) (p : RingPart) : Bool :=
  p.rings.any fun kv => kv.2.enabled && decide (ringKind regs kv.1 = 4)

/-- Queue an event for one ring, or drop and count it while the ring has fewer than 2 free entries (R409). -/
def pushEvent (regs : Sparse W32) (e : Event) (p : RingPart) (k : Nat) : RingPart :=
  if ringFree regs p k < 2 then
    { p with rings := supd (fun _ => RingSt.init) p.rings k fun s => { s with lost := s.lost + 1 } }
  else { p with outbox := p.outbox ++ [⟨k / 64, k % 64, 4, e.bits, false⟩] }

/-- The rings that drop an event. -/
def lostRings (regs : Sparse W32) (p : RingPart) (ks : List Nat) : List Nat := ks.filter fun k => ringFree regs p k < 2

/-- Count the events that rings dropped. -/
def countLost (r : Sparse W32) : List Nat → Sparse W32
  | [] => r
  | k :: ks => countLost (fldAdd (fldAdd r (F.eventsLost k) 1) F.eventsLostTotal 1) ks

/-- Hold an event for the management controller and assert ALERT_N (R541, R518). -/
def BootPart.hear (p : BootPart) (e : Event) : BootPart := { p with mgmt := p.mgmt ++ [e], alert := true }

-- Log entry 190 (DEDUCED).
/-- WAFER_TIME at the router of a site (R50): the root's count and what the router's own stands before it. -/
def Block.routerTime (b : Block) (site : Nat) : Nat :=
  ((1000 * b.fab.time + (sget (fun _ => SiteSt.init) b.fab.sites site).lag) / 1000).toNat

-- Log entry 10 (DESIGN CHOICE).
/-- WAFER_TIME at the router of a source (R423, R50). -/
def sourceTime (b : Block) (source : Nat) : Nat := if source = 0xFF then b.fab.time else b.routerTime (fieldSite b.wafer.kinds source)

-- Log entry 10 (DESIGN CHOICE).
/-- Raise an event (R411, R541). -/
def Block.raise (b : Block) (code source camp payload : Nat) : Block :=
  let e : Event := ⟨code, source, camp, sourceTime b source, payload⟩
  let ks := eventRings b.regs b.camp.live b.ring e
  { b with
    regs := countLost b.regs (lostRings b.regs b.ring ks)
    ring := ks.foldl (pushEvent b.regs e) b.ring
    boot := if anyEventRing b.regs b.ring then b.boot else b.boot.hear e }

/-- Raise an event when a condition holds. -/
def Block.raiseIf (b : Block) (c : Bool) (code source camp payload : Nat) : Block :=
  if c then b.raise code source camp payload else b

-- Log entry 177 (DEDUCED).
/-- Put a record into a function's outbox (R413). -/
def Block.record (b : Block) (r : Rec) : Block := { b with ring := { b.ring with outbox := b.ring.outbox ++ [r] } }

-- Log entries 149 (DEDUCED), 177 (DEDUCED).
/-- Queue a record of a camp's work; where its function is no longer the camp's, the record is discarded and counted (R390, R480). -/
def Block.recordFor (b : Block) (camp : Nat) (r : Rec) : Block :=
  if b.fnServes r.fn camp then b.record r else (b.bump F.recordsDiscarded).bump (F.fnDiscards r.fn)

/-! ### Descriptors and completions (R414 to R419) -/

/-- Bytes `o` to `o + n - 1` of a descriptor. -/
def Desc.field (d : Desc) (o n : Nat) : Nat := bitsOf d.raw (8 * o) (8 * n)

/-- `w` bits from bit `lo` of byte `o` of a descriptor. -/
def Desc.bits (d : Desc) (o lo w : Nat) : Nat := bitsOf d.raw (8 * o + lo) w

/-- The consumed descriptor of a camp with a sequence number. -/
def Block.desc? (b : Block) (camp seq : Nat) : Option Desc := b.ring.descs.find? fun d => d.camp == camp && d.seq == seq

/-- Is this a REQUEST opcode (R416)? -/
def isRequestOp (op : Nat) : Bool := decide (0x20 ≤ op)

/-- The bits of a completion without its phase (R417). -/
def completionBits (d : Desc) (now status : Nat) (generated deferred preempted : Nat) (body : Nat) : Nat :=
  packBits ([(0, 64, d.cookie), (64, 8, status), (73, 6, d.ring), (128, 128, body)] ++
    (if isRequestOp d.op then [(80, 24, satTo 24 generated), (104, 16, satTo 16 deferred), (120, 8, satTo 8 preempted)]
     else [(80, 32, satTo 32 ((now - d.at_) / 1000))]))

-- Log entry 35 (DEDUCED).
/-- PROT_DENIED is counted and raised (R490): the requester's unit, the kind of the refusal, the descriptor's number, the address. -/
def Block.protDenied (b : Block) (camp unit kind seq addr : Nat) : Block :=
  (b.bump F.protDeniedTotal).raise 0x0701 0xFF camp (packBits [(0, 10, unit), (16, 3, kind), (32, 32, seq), (64, 64, addr)])

-- Log entry 35 (DEDUCED).
/-- The KIND and ADDRESS of a descriptor that completes CAMP_DENIED: 5 a cellar image of another camp, 6 an object that the descriptor
names; `off` is its offending byte. -/
def Desc.denial (d : Desc) (off : Nat) : Nat × Nat :=
  if d.op = 0x01 ∨ d.op = 0x03 then (5, 0) else (6, d.field off 8)

/-- Write a completion for a descriptor (R417). CAMP_DENIED raises PROT_DENIED (R490); a JOB and a COPY raise it where their address is
refused. -/
def Block.report (b : Block) (d : Desc) (status generated deferred preempted body : Nat) : Block :=
  let r : Rec := ⟨d.fn, fldGet b.regs (F.ringCfgCplRing (ringKey d.fn d.ring)), 2,
    completionBits d b.fab.time status generated deferred preempted body, d.irq⟩
  let b1 := b.recordFor d.camp r
  if status = 0x25 ∧ d.op ≠ 0x06 ∧ d.op ≠ 0x07 then b1.protDenied d.camp (0x258 + d.fn / 16) (d.denial body).1 d.seq (d.denial body).2 else b1

/-- Forget a descriptor. -/
def Block.forget (b : Block) (d : Desc) : Block :=
  { b with ring := { b.ring with descs := dropFirst (fun x => x.camp == d.camp && x.seq == d.seq) b.ring.descs } }

/-- The cellar units read for a descriptor's elements are forgotten with it. -/
def Block.dropGot (b : Block) (camp key : Nat) : Block :=
  { b with cellar := { b.cellar with got := b.cellar.got.filter fun x => x.who != .bulk camp key } }

/-- Write the descriptor's one completion and forget the descriptor (R417). -/
def Block.finish (b : Block) (d : Desc) (status generated deferred preempted body : Nat) : Block :=
  ((b.report d status generated deferred preempted body).forget d).dropGot d.camp d.seq

/-- A completion of CONTROL work. -/
def Block.complete (b : Block) (d : Desc) (status body : Nat) : Block := b.finish d status 0 0 0 body

/-- A refusal at consumption: the body names the first offending byte (R418). -/
def Block.refuse (b : Block) (d : Desc) (status offset : Nat) : Block := b.complete d status offset

/-- Complete the descriptor of a camp with a sequence number, if it is still open. -/
def Block.completeSeq (b : Block) (camp seq status body : Nat) : Block :=
  match b.desc? camp seq with
  | some d => b.complete d status body
  | none => b

/-- Mark a descriptor's work as running. -/
def Block.start (b : Block) (d : Desc) : Block :=
  { b with ring := { b.ring with descs := b.ring.descs.map fun x =>
      if x.camp == d.camp && x.seq == d.seq then { x with started := true } else x } }

-- Log entry 7 (DESIGN CHOICE).
/-- Run the work of a consumed descriptor of an opcode that has not started, or leave the block as it is. -/
def Block.withDesc (b : Block) (camp seq op : Nat) (f : Desc → Block → Block) : Block :=
  match b.desc? camp seq with
  | some d => if d.op = op ∧ d.started = false then f d b else b
  | none => b

end Sys2Proof.Machine
end

