-- ==== Sys2Proof/Machine/Regs.lean ====
section
/-! DEFINITION. Register writes field by field (R2 to R12, R528): classes, access types, late writes, STEP fields taken
up, 64-bit staging, and who may reach BAR0 (R380). -/
namespace Sys2Proof.Machine

/-! ### One field of one write -/

/-- BANK_MODE codes of 3 act and read as 0 (R148). -/
def bankNorm : Nat → Nat → Nat
  | 0, _ => 0
  | n + 1, v => (if v % 4 = 3 then 0 else v % 4) + 4 * bankNorm n (v / 4)

/-- What a written value is taken as. -/
def Norm.apply (n : Norm) (v : Nat) : Nat :=
  match n with
  | .asWritten => v
  | .zeroAs k => if v = 0 then k else v
  | .clamp lo hi => max lo (min v hi)
  | .bankModes => bankNorm 16 v

/-- The value a write gives a field: the bits written, taken as the register table says. -/
def FieldDef.written (f : FieldDef) (v : W32) : Nat := f.norm.apply (wordGet v f.lo f.width)

/-- One field of a write (R6, R11): a STATIC field of an enabled block keeps its value (R7). -/
def FieldDef.write (f : FieldDef) (enabled : Bool) (v w : W32) : W32 :=
  if f.cls = .static ∧ enabled = true then w
  else match f.acc with
    | .rw => wordSet w f.lo f.width (f.written v)
    | .w1c => wordSet w f.lo f.width (wordGet w f.lo f.width &&& (2 ^ f.width - 1 - wordGet v f.lo f.width))
    | .wc => wordSet w f.lo f.width 0

-- Log entry 225 (DESIGN CHOICE).
/-- Does the write differ from a STATIC field that it may not change (R7)? What counts is the value that the bits written are taken as. -/
def FieldDef.late (f : FieldDef) (enabled : Bool) (v w : W32) : Bool :=
  decide (f.cls = .static) && enabled && decide (f.written v ≠ wordGet w f.lo f.width)

/-- A whole word: every field under its own class. -/
def RegDef.write (r : RegDef) (enabled : Bool) (v w : W32) : W32 := r.fields.foldl (fun a f => f.write enabled v a) w

/-! ### Owners (R528) -/

/-- Is the owning block enabled, so that its STATIC fields take no write? The fields of R56, R85, R113 and R129 are
written only at the bring-up hold (R525). -/
def Block.ownerEnabled (b : Block) (o : Owner) (off : Nat) : Bool :=
  let bringupHold := b.boot.hold && decide (b.boot.stage = 4)
  match o with
  | .none => false
  | .fabric | .rationMaster => b.boot.en.fabric || !bringupHold
  | .tier | .sram => !bringupHold
  | .dram => b.boot.en.dram
  | .dramTest => !b.boot.bringup
  | .integ => b.boot.en.integ
  | .cellar => b.boot.en.cellar
  | .yilgil => b.boot.en.yilgil
  | .ring => (b.ringSt ((off - 0xD10000) / 0x40)).enabled

/-- The counters of late writes (R528). -/
def lateCounters (o : Owner) (off : Nat) : List Fld :=
  match o with
  | .none => []
  | .fabric => [F.fabLateWrite]
  | .rationMaster => [F.rmLateWrite]
  | .tier => [F.tierLateWrite]
  | .dram | .dramTest => [F.dramLateWrite]
  | .sram => [F.sramLateWrite ((off - 0x1030000) / 0x80000)]
  | .integ => [F.integLateWrite]
  | .cellar => [F.cellarLateWrite]
  | .yilgil => [F.ygLateWrite]
  | .ring => [F.ringLateWrite ((off - 0xD10000) / 0x40), F.ringLateWriteTotal]

/-! ### STEP fields (R8, R9) -/

/-- The STEP registers of one camp. -/
def campStepOffs (c : Nat) : List Nat :=
  [0x600100 + 8 * c, 0x600104 + 8 * c, 0xC00100 + 0x40 * c, 0xC00104 + 0x40 * c, 0xC00108 + 0x40 * c,
   0xC0010C + 0x40 * c, 0xC00808 + 0x20 * c]

/-- The camp-read STEP registers (R9). -/
def campReadOffs : List Nat := [0xA00004, 0xA00008, 0xA0000C, 0xC00000]

/-- The unit STEP registers (R9). -/
def unitStepOffs : List Nat := 0xA0000C :: (List.range 96).map fun f => 0x1010000 + 0x80000 * f

/-- Take the pending words at some offsets into force, under a key offset. -/
def takeUp (regs : Sparse W32) (key : Nat) : List Nat → Sparse W32 → Sparse W32
  | [], m => m
  | o :: os, m => takeUp regs key os (sset forceWord m (key + o) (regWord regs o))

-- Log entry 175 (DEDUCED).
/-- What stands in force as a camp's guarantee where nothing is listed (R146). -/
def guarDefault (c : Nat) : Nat := if c = 0 then 225 else 0

/-- What a boundary of camp c takes up at item 4 (R8, R9, R126): its own STEP fields, its copy of the camp-read fields, the
pending unit fields, and its guarantee of the camp table. -/
def Block.takeStep (b : Block) (c : Nat) : Block :=
  { b with
    force := takeUp b.regs 0 unitStepOffs (takeUp b.regs ((c + 1) * 2 ^ 32) campReadOffs (takeUp b.regs 0 (campStepOffs c) b.force))
    dram := { b.dram with guar := sset guarDefault b.dram.guar c (campGuarantee b.camp.live c) } }

/-- The camps without a step in progress. -/
def Block.idleCamps (b : Block) : List Nat := (List.range 16).filter fun c => !b.inStep c

/-- What a STEP write takes into force at once (R8, R9): a camp's field when that camp has no step in progress, a
camp-read field for each such camp, a unit field when no camp has one. -/
def Block.takeIdle (b : Block) (off : Nat) : Block :=
  let own := (List.range 16).filter fun c => (campStepOffs c).contains off && !b.inStep c
  let f1 := if own = [] then b.force else takeUp b.regs 0 [off] b.force
  let f2 := if campReadOffs.contains off then b.idleCamps.foldl (fun m c => takeUp b.regs ((c + 1) * 2 ^ 32) [off] m) f1 else f1
  let f3 := if unitStepOffs.contains off && decide (b.idleCamps.length = 16) then takeUp b.regs 0 [off] f2 else f2
  { b with force := f3 }

/-! ### One word -/

/-- Write one word of the bank, field by field. -/
def Block.writeWord (b : Block) (off : Nat) (v : W32) : Block :=
  match regAt off with
  | none => b
  | some r =>
    let en := b.ownerEnabled r.owner off
    let w := regWord b.regs off
    let late := r.fields.any fun f => f.late en v w
    let regs := sset resetWord b.regs off (r.write en v w)
    let regs := if late then (lateCounters r.owner off).foldl (fun m f => fldAdd m f 1) regs else regs
    ({ b with regs := regs } : Block).takeIdle off

/-! ### 64-bit registers (R3, R4) -/

/-- The 64-bit registers, by the offset of the low word; BAR4's DBG_BASE at 0x4000_0000 plus its offset. -/
def wideRegs : List Nat :=
  [0x8, 0x400010, 0x500010, 0x700010, 0x900048, 0xB00008, 0xE00010, 0xE00018, 0x200010, 0x4ffff000]

/-- The writable ones. -/
def wideWritable : List Nat := [0x500010, 0x700010, 0xB00008, 0x4ffff000]

/-- The key of a function's latch or staged word. -/
def latchKey (fn off : Nat) : Nat := fn * 2 ^ 32 + off

/-- The low word staged by a function for a 64-bit register. -/
def Block.stagedLow (b : Block) (fn off : Nat) : Option W32 := sget (fun _ => none) b.staged (latchKey fn off)

/-- A write to the low word is held in staging (R4). -/
def Block.stageLow (b : Block) (fn off : Nat) (v : W32) : Block :=
  { b with staged := sset (fun _ => none) b.staged (latchKey fn off) (some v) }

/-- A write to the high word applies both words (R4): the staged low word, or the low word as it stands. -/
def Block.applyHigh (b : Block) (fn off : Nat) (v : W32) : Block :=
  let low := (b.stagedLow fn off).getD (regWord b.regs off)
  (({ b with staged := sset (fun _ => none) b.staged (latchKey fn off) none }).writeWord off low).writeWord (off + 4) v

/-! ### Who may reach BAR0 (R380, R491, R542) -/

-- Log entry 16 (DEDUCED).
/-- The identity, global and field map block. -/
def isIdentity (off : Nat) : Bool := decide (off < 0x100000)

/-- The function-local words (R388, R399). -/
def isLocal (off : Nat) : Bool := decide (0xDC0000 ≤ off) && decide (off < 0xDD2000)

/-- May the function read the word? -/
def Block.mayRead (b : Block) (fn off : Nat) : Bool :=
  isIdentity off || isLocal off || (decide (fn % 16 = 0) && b.fnMapped fn)

-- Log entry 16 (DEDUCED).
/-- May the function write the word? Only FN 0 writes the consent and the reset blocks (R491, R542). -/
def Block.mayWrite (b : Block) (fn off : Nat) : Bool :=
  if isIdentity off then false
  else if isLocal off then true
  else if off < 0x300000 then decide (fn = 0)
  else decide (fn % 16 = 0) && b.fnServes fn 0

/-- May the function reach BAR4 (R382, R546)? -/
def Block.mayDebug (b : Block) (fn : Nat) : Bool := decide (fn % 16 = 0) && b.fnServes fn 0 && b.boot.bringup

/-! ### The function-local words (R388, R389, R399) -/

def vecKey (fn v : Nat) : Nat := 2048 * fn + v

def Block.vec (b : Block) (fn v : Nat) : VecSt := sget (fun _ => VecSt.init) b.host.vecs (vecKey fn v)

def Block.setVec (b : Block) (fn v : Nat) (s : VecSt) : Block :=
  { b with host := { b.host with vecs := sset (fun _ => VecSt.init) b.host.vecs (vecKey fn v) s } }

/-- Write a function-local word: a table entry's words, or a moderation word; the PBA is read-only. -/
def Block.writeLocal (b : Block) (fn off : Nat) (v : W32) : Block :=
  if off < 0xDC8000 then
    let n := (off - 0xDC0000) / 16
    let s := b.vec fn n
    b.setVec fn n (match (off - 0xDC0000) % 16 / 4 with
      | 0 => { s with addr := s.addr / 2 ^ 32 * 2 ^ 32 + v.toNat }
      | 1 => { s with addr := s.addr % 2 ^ 32 + v.toNat * 2 ^ 32 }
      | 2 => { s with data := v.toNat }
      | _ => { s with masked := v.getLsbD 0 })
  else if 0xDD0000 ≤ off then
    let n := (off - 0xDD0000) / 4
    b.setVec fn n { b.vec fn n with holdoff := wordGet v 0 12, count := if wordGet v 16 12 = 0 then 1 else wordGet v 16 12 }
  else b

/-- Read a function-local word. -/
def Block.readLocal (b : Block) (fn off : Nat) : Nat :=
  if off < 0xDC8000 then
    let s := b.vec fn ((off - 0xDC0000) / 16)
    match (off - 0xDC0000) % 16 / 4 with
    | 0 => s.addr % 2 ^ 32
    | 1 => s.addr / 2 ^ 32
    | 2 => s.data
    | _ => if s.masked then 1 else 0
  else if off < 0xDC8100 then
    packBits ((List.range 32).map fun i => (i, 1, if (b.vec fn ((off - 0xDC8000) * 8 + i)).pba then 1 else 0))
  else if 0xDD0000 ≤ off then
    let s := b.vec fn ((off - 0xDD0000) / 4)
    packBits [(0, 12, s.holdoff), (16, 12, s.count)]
  else 0

end Sys2Proof.Machine
end

