-- ==== Sys2Proof/Machine/Fabric.lean ====
section
/-! DEFINITION. Chapter 02, the Guyline fabric: routes (R43), heartbeats (R54), wafer time (R50, R51), step tokens (R52); and the capture
buffer of chapter 21 (R548). -/
namespace Sys2Proof.Machine

-- Log entries 16 (DEDUCED), 17 (DEDUCED).
/-- A write of a BAR0 register that acts: refused under R380 and counted, or done. -/
def Block.barWrite (b : Block) (fn off : Nat) (f : Block → Block) : Block :=
  b.tlp fn fun b => if b.mayWrite fn off then f b else b.bump F.deniedWrites

/-! ### Routes (R43) -/

/-- Does a router work: its site stands and is no HOLE? -/
def working (k : Sparse Nat) (r c : Nat) : Bool :=
  match siteAt r c with
  | some s => decide (siteKind k s ≠ 3)
  | none => false

/-- The `n + 1` cells from `x` toward `y`, in either direction. -/
def cells (x y : Nat) : List Nat :=
  if x ≤ y then (List.range (y - x + 1)).map (x + ·) else (List.range (x - y + 1)).map (x - ·)

/-- The row-then-column path from a to b passes only working routers. -/
def directOk (k : Sparse Nat) (a b : Nat) : Bool :=
  ((cells (siteCol a) (siteCol b)).all fun c => working k (siteRow a) c) &&
  ((cells (siteRow a) (siteRow b)).all fun r => working k r (siteCol b))

/-- Its hops. -/
def directHops (a b : Nat) : Nat :=
  (max (siteCol a) (siteCol b) - min (siteCol a) (siteCol b)) + (max (siteRow a) (siteRow b) - min (siteRow a) (siteRow b))

/-- The better of two waypoints: fewer hops, then the lower site (R43 item 3). -/
def betterWay (x y : Option (Nat × Nat)) : Option (Nat × Nat) :=
  match x, y with
  | none, y => y
  | x, none => x
  | some (h, w), some (h', w') => if h' < h ∨ (h' = h ∧ w' < w) then some (h', w') else some (h, w)

/-- The route from a to b (R43): its hops and its waypoint, 0x7F for none; nothing where there is none. -/
def route (k : Sparse Nat) (a b : Nat) : Option (Nat × Nat) :=
  if directOk k a b then some (directHops a b, 0x7F)
  else (List.range 104).foldl (fun best w =>
    if directOk k a w && directOk k w b then betterWay best (some (directHops a w + directHops w b, w)) else best) none

/-- The field whose desk serves a unit on a site's router (R185): the site's own, or that of the nearest FIELD site by route hops, ties to the
lower site. -/
def Block.siteDesk (b : Block) (s : Nat) : Nat :=
  if siteField b.wafer.kinds s ≠ 0xFF then siteField b.wafer.kinds s
  else
    let near := (List.range 104).foldl (fun best t =>
      if siteKind b.wafer.kinds t = 0 then
        match (route b.wafer.kinds s t).map (·.1), best with
        | some h, none => some (h, t)
        | some h, some (h', t') => if h < h' then some (h, t) else some (h', t')
        | none, x => x
      else best) none
    match near with
    | some (_, t) => siteField b.wafer.kinds t
    | none => 0xFF

/-- A query names a HOLE or a site above 103 (R58). -/
def routeErr (k : Sparse Nat) (a b : Nat) : Bool :=
  decide (103 < a) || decide (103 < b) || decide (siteKind k a = 3) || decide (siteKind k b = 3)

/-- ROUTE_RESULT (R58). -/
def Block.routeResult (b : Block) : Nat :=
  let a := b.fget F.srcSite
  let d := b.fget F.dstSite
  let err := routeErr b.wafer.kinds a d
  let r := if b.fab.routesOk && !err then route b.wafer.kinds a d else none
  packBits [(0, 8, (r.map (·.1)).getD 0), (8, 7, (r.map (·.2)).getD 0x7F), (30, 1, if err then 1 else 0),
    (31, 1, if r.isSome then 1 else 0)]

/-- ROUTE_QUERY: the write selects the pair (R58). -/
def routeQueryEff (fn value : Nat) (b : Block) : Block :=
  b.barWrite fn 0x400008 fun b => b.writeWord 0x400008 (BitVec.ofNat 32 value)

/-! ### Capture (R548) -/

-- Log entry 24 (DESIGN CHOICE).
/-- Record a packet in the capture buffer, if capture runs at this site for this kind and class (R548). -/
def Block.captureEntry (b : Block) (site kind cls port header payload : Nat) (room : Bool) : Block :=
  if b.fget F.dbgCaptureKind = kind ∧ kind ≠ 0 ∧ b.fget F.dbgCaptureSite = site ∧ bitAt (b.fget F.dbgCaptureClassMask) cls = true then
    if room then
      { b with
        dbg := { capture := sset (fun _ => 0) b.dbg.capture b.dbg.next
                   (packBits [(0, 256, header), (256, 256, payload), (512, 64, b.routerTime site), (576, 3, port), (584, 1, 1)])
                 next := (b.dbg.next + 1) % 131072 }
        regs := fldAdd b.regs F.captureCount 1 }
    else b.bump F.captureDrops
  else b

/-! ### Wafer time (R50, R51) -/

def Block.siteSt (b : Block) (s : Nat) : SiteSt := sget (fun _ => SiteSt.init) b.fab.sites s

def Block.setSite (b : Block) (s : Nat) (x : SiteSt) : Block :=
  { b with fab := { b.fab with sites := sset (fun _ => SiteSt.init) b.fab.sites s x } }

-- Log entry 190 (DEDUCED).
/-- One router hears a sync message and finds its offset to the root (R50): what it measures is what it slews away. It is locked while what it
measures and what its counter shows are within ±5 ns; TIME_RELOCKED follows a TIME_UNLOCKED (R57), so the first lock after start-up raises
nothing. -/
def Block.syncSite (b : Block) (s : Nat) (offset : Int) : Block :=
  let x := b.siteSt s
  let near := decide (offset.natAbs ≤ 5) && decide (x.lag.natAbs ≤ 5000)
  let back := near && decide (x.unlockedAt ≠ 0)
  let b1 := b.setSite s { x with locked := near, offset := offset, lastSync := b.fab.time, error := 1000 * offset, unlockedAt := if back then 0 else x.unlockedAt }
  b1.raiseIf back 0x0682 (siteField b.wafer.kinds s) 0xFF (packBits [(0, 8, s), (32, 32, (b.fab.time - x.unlockedAt) / 1000)])

/-- TIME_SYNC: a sync round of the time root; `offsets` names each router reached with its signed offset in ns. -/
def timeSyncEff (offsets : List (Nat × Int)) (b : Block) : Block :=
  if b.boot.en.fabric then
    let b1 := offsets.foldl (fun b so => b.syncSite so.1 so.2) b
    { b1 with fab := { b1.fab with spread := min 255 (offsets.foldl (fun m so => max m so.2.natAbs) 0) } }
  else b

/-- A step of at most 200 from x toward y: 200 ppm of 1 µs in ps (R50). -/
def slewed (x y : Int) : Int := if x < y then min y (x + 200) else max y (x - 200)

-- Log entry 190 (DEDUCED).
/-- One µs of a router's counter: it trims its rate by at most 200 ppm, toward the root, and takes up what its oscillator has been found to be
off no faster; so the counter never steps (R50, R51). -/
def SiteSt.slew (x : SiteSt) : SiteSt := { x with lag := slewed x.lag x.error, error := slewed x.error 0 }

-- Log entry 190 (DEDUCED).
/-- One µs of every router's counter. -/
def Block.slewRouters (b : Block) : Block :=
  { b with fab := { b.fab with sites := (b.fab.sites.map fun kv => (kv.1, kv.2.slew)).filter fun kv => decide (kv.2 ≠ SiteSt.init) } }

/-- TIME_UNLOCKED: a router without a sync for 1 ms is unlocked, and the event is raised once (R51). -/
def timeUnlockedEff (site : Nat) (b : Block) : Block :=
  let x := b.siteSt site
  if b.boot.en.fabric = true ∧ siteKind b.wafer.kinds site ≠ 3 ∧ x.unlockedAt = 0 ∧ x.lastSync + 1000000 ≤ b.fab.time then
    (b.setSite site { x with locked := false, unlockedAt := b.fab.time }).raise 0x0681 (siteField b.wafer.kinds site) 0xFF
      (packBits [(0, 8, site), (32, 32, toTwos 32 x.offset)])
  else b

/-! ### Heartbeats (R54) -/

def linkKey (site port : Nat) : Nat := 8 * site + port

/-- LINK_HEARTBEAT: the heartbeat of a router's output is sent, and acknowledged or not. -/
def linkHeartbeatEff (site port : Nat) (acked : Bool) (b : Block) : Block :=
  if acked && !b.fab.dead.contains (site, port) then
    { b with fab := { b.fab with lastAck := sset (fun _ => 0) b.fab.lastAck (linkKey site port) b.fab.time } }
  else b

/-! ### The step token (R52) -/

def campFieldKey (c f : Nat) : Nat := 128 * c + f

def Block.campField (b : Block) (c f : Nat) : CampField := sget (fun _ => CampField.init) b.fab.campFields (campFieldKey c f)

def Block.setCampField (b : Block) (c f : Nat) (x : CampField) : Block :=
  { b with fab := { b.fab with campFields := sset (fun _ => CampField.init) b.fab.campFields (campFieldKey c f) x } }

def Block.stepSt (b : Block) (c : Nat) : StepSt := sget (fun _ => StepSt.init) b.fab.steps c

def Block.setStepSt (b : Block) (c : Nat) (x : StepSt) : Block :=
  { b with fab := { b.fab with steps := sset (fun _ => StepSt.init) b.fab.steps c x } }

-- Log entry 191 (DESIGN CHOICE).
/-- A field that has received the token answers it once its units have finished (`unitsDone`) and every
transaction of the step has been acknowledged. -/
def stepDoneField (c f : Nat) (unitsDone : Bool) (b : Block) : Block :=
  let x := b.campField c f
  if unitsDone = true ∧ x.member = true ∧ x.acks = 0 ∧ x.done ≠ x.token then b.setCampField c f { x with done := x.token } else b

-- Log entry 98 (DESIGN CHOICE).
/-- The fields that hold a camp's work. -/
def Block.memberFields (b : Block) (c : Nat) : List Nat := (List.range 96).filter fun f => (b.campField c f).member

-- Log entries 79 (DESIGN CHOICE), 98 (DESIGN CHOICE), 180 (DEDUCED).
/-- Does the leader hold STEP_DONE from every field (R52)? -/
def Block.stepComplete (b : Block) (c : Nat) : Bool :=
  (b.stepSt c).inStep && (b.memberFields c).all fun f => decide ((b.campField c f).done = (b.stepSt c).token)

-- Log entry 191 (DESIGN CHOICE).
/-- Issue the next step token of a camp to every field that holds its work; the step after 0xFFFF_FFFF is 0. -/
def Block.issueToken (b : Block) (c : Nat) : Block :=
  let n := ((b.stepSt c).token + 1) % 2 ^ 32
  (b.memberFields c).foldl (fun b f => b.send (.token c f n)) (b.setStepSt c ⟨n, true⟩)

-- Log entry 71 (DEDUCED).
/-- A unit of a field issues a transaction of a camp's step, or one is acknowledged (R52). -/
def Block.ackAdd (b : Block) (c f n : Nat) : Block := b.setCampField c f { b.campField c f with acks := (b.campField c f).acks + n }

-- Log entry 71 (DEDUCED).
def Block.ackDrop (b : Block) (c f n : Nat) : Block := b.setCampField c f { b.campField c f with acks := (b.campField c f).acks - n }

end Sys2Proof.Machine
end

