-- ==== Sys2Proof/Machine/Mesh.lean ====
section
/-! DEFINITION. Chapter 02, the mesh: flits and packets (R38, R39), endpoints (R40), virtual channels and their credits (R41), routes as routers
take them (R43), arbitration (R47, R53), and outputs that have stopped (R54, R55). -/
namespace Sys2Proof.Machine

/-! ### Endpoints (R40) -/

/-- What an endpoint number names at a site. -/
inductive Endpoint where
  | core (n : Nat)
  | array (n : Nat)
  | bank (n : Nat)
  | chan (n : Nat)
  | lantern (n : Nat)
  | desk
  | dma
  | sampler
  /-- of DRAM 0, SRAM 1, core-local memory 2 -/
  | weeder (mem : Nat)
  | router
  | yilgil (p : Nat)
  | host (p : Nat)
  | cellar (k : Nat)
deriving DecidableEq, Repr

/-- The edge resource of an EDGE_MAP index. -/
def edgeEndpoint (k : Nat) : Endpoint := if k < 24 then .yilgil k else if k < 28 then .host (k - 24) else .cellar (k - 28)

-- Log entry 193 (DEDUCED).
/-- The endpoint of a unit number at a site: the units of its field, the router's control, and the edge resources on the site. -/
def endpointAt (k : Sparse Nat) (site unit : Nat) : Option Endpoint :=
  let field : Option Endpoint :=
    if unit < 0x120 then some (.core unit)
    else if 0x140 ≤ unit ∧ unit < 0x14C then some (.array (unit - 0x140))
    else if 0x180 ≤ unit ∧ unit < 0x198 then some (.bank (unit - 0x180))
    else if 0x1C0 ≤ unit ∧ unit < 0x1E0 then some (.chan (unit - 0x1C0))
    else if unit = 0x200 ∨ unit = 0x201 then some (.lantern (unit - 0x200))
    else match unit with
      | 0x210 => some .desk
      | 0x211 => some .dma
      | 0x212 => some .sampler
      | 0x213 | 0x214 | 0x215 => some (.weeder (unit - 0x213))
      | _ => none
  if siteKind k site = 3 ∨ 103 < site then none
  else if unit = 0x220 then some .router
  else if 0x240 ≤ unit ∧ unit < 0x264 then if edgeSite (unit - 0x240) = site then some (edgeEndpoint (unit - 0x240)) else none
  else if siteKind k site = 0 then field
  else none

/-! ### The header flit (R39) -/

def hdrCls (h : Nat) : Nat := bitsOf h 0 2
def hdrLeg (h : Nat) : Nat := bitsOf h 2 1
def hdrPayload (h : Nat) : Nat := bitsOf h 8 5
def hdrSite (h : Nat) : Nat := bitsOf h 16 7
def hdrWay (h : Nat) : Nat := bitsOf h 24 7
def hdrFrom (h : Nat) : Nat := bitsOf h 32 7
def hdrToUnit (h : Nat) : Nat := bitsOf h 40 10
def hdrFromUnit (h : Nat) : Nat := bitsOf h 56 10
def hdrCamp (h : Nat) : Nat := bitsOf h 72 4
def hdrSeq (h : Nat) : Nat := bitsOf h 80 16
def hdrTag (h : Nat) : Nat := bitsOf h 96 32
def hdrAddress (h : Nat) : Nat := bitsOf h 128 64
def hdrOp (h : Nat) : Nat := bitsOf h 192 8
def hdrSize (h : Nat) : Nat := bitsOf h 200 8
def hdrByteEn (h : Nat) : Nat := bitsOf h 208 32

/-- Does a header keep what the layout asks: reserved bits 0, at most 16 payload flits, and no address on COLL and CTRL? -/
def hdrOk (h : Nat) : Bool :=
  decide (bitsOf h 4 4 = 0) && decide (bitsOf h 13 3 = 0) && decide (bitsOf h 23 1 = 0) && decide (bitsOf h 31 1 = 0) && decide (bitsOf h 39 1 = 0) &&
  decide (bitsOf h 50 6 = 0) && decide (bitsOf h 66 6 = 0) && decide (bitsOf h 76 4 = 0) && decide (bitsOf h 240 16 = 0) &&
  decide (hdrPayload h ≤ 16) && (decide (hdrCls h < 2) || decide (hdrAddress h = 0))

/-- A header with its waypoint, and one on its second leg. -/
def withWay (h w : Nat) : Nat := h - hdrWay h * 2 ^ 24 + w * 2 ^ 24
def onLeg1 (h : Nat) : Nat := if bitAt h 2 then h else h + 4

/-! ### Ports and virtual channels (R41, R43) -/

/-- The site that a router's port faces: 0 N, 1 E, 2 S, 3 W. -/
def nextSite (s port : Nat) : Option Nat :=
  let r := siteRow s
  let c := siteCol s
  match port with
  | 0 => if r = 0 then none else siteAt (r - 1) c
  | 1 => siteAt r (c + 1)
  | 2 => siteAt (r + 1) c
  | 3 => if c = 0 then none else siteAt r (c - 1)
  | _ => none

/-- The output toward a site, along the row first; 4, the crossbar, at the site itself. -/
def portToward (s t : Nat) : Nat :=
  if siteCol s < siteCol t then 1 else if siteCol t < siteCol s then 3
  else if siteRow s < siteRow t then 2 else if siteRow t < siteRow s then 0 else 4

/-- A packet that reaches its waypoint goes on its second leg. -/
def turned (s h : Nat) : Nat := if hdrLeg h = 0 ∧ hdrWay h = s then onLeg1 h else h

/-- The output that a packet takes at a site, and the virtual channel that it takes there. -/
def wayOut (s h : Nat) : Nat × Nat :=
  let t := turned s h
  (portToward s (if hdrLeg t = 0 ∧ hdrWay t ≠ 0x7F then hdrWay t else hdrSite t), 4 * hdrLeg t + hdrCls t)

/-- The key of an input virtual channel of a site; of a wire, by the input that it leads to. -/
def vcKey (site port vc : Nat) : Nat := 64 * site + 8 * port + vc

def Block.vc (b : Block) (key : Nat) : VcSt := sget (fun _ => VcSt.init) b.fab.vcs key
def Block.setVc (b : Block) (key : Nat) (x : VcSt) : Block := { b with fab := { b.fab with vcs := sset (fun _ => VcSt.init) b.fab.vcs key x } }
def Block.wire (b : Block) (key : Nat) : List Flit := sget (fun _ => []) b.fab.wires key
def Block.setWire (b : Block) (key : Nat) (x : List Flit) : Block := { b with fab := { b.fab with wires := sset (fun _ => []) b.fab.wires key x } }
def outKey (site port : Nat) : Nat := 8 * site + port
def Block.outSt (b : Block) (key : Nat) : OutSt := sget (fun _ => OutSt.init) b.fab.outs key
def Block.setOut (b : Block) (key : Nat) (x : OutSt) : Block := { b with fab := { b.fab with outs := sset (fun _ => OutSt.init) b.fab.outs key x } }

/-- Flits that a virtual channel's buffer holds: 4 on each of a link's four lanes. -/
def vcDepth : Nat := 16

/-- The input that an output leads to, where its link is there and not dead. -/
def Block.farInput (b : Block) (s port vc : Nat) : Option Nat :=
  match nextSite s port with
  | some t => if siteKind b.wafer.kinds t = 3 ∨ b.fab.dead.contains (s, port) ∨ b.unpowered (siteField b.wafer.kinds t) then none else some (vcKey t ((port + 2) % 4) vc)
  | none => none

/-- Has an output a credit of a virtual channel? The crossbar hands over to the site's endpoints, which take what is theirs (R42). -/
def Block.hasCredit (b : Block) (s port vc : Nat) : Bool :=
  if port = 4 then !b.fab.dead.contains (s, 4)
  else match b.farInput s port vc with
    | some k => decide ((b.vc k).flits.length + (b.wire k).length < vcDepth)
    | none => false

/-! ### Arbitration (R47, R53) -/

/-- The inputs of a site whose first flit is a header that asks for an output's virtual channel, with since when. -/
def Block.contenders (b : Block) (s port vc : Nat) : List (Nat × Nat) :=
  (b.fab.vcs.filter fun kv => decide (kv.1 / 64 = s)).filterMap fun kv =>
    match kv.2.flits with
    | f :: _ => if f.head = true ∧ wayOut s f.raw = (port, vc) then some (kv.2.since, kv.1) else none
    | [] => none

-- Log entry 192 (DEDUCED).
/-- The pair of least first number. -/
def earliest : List (Nat × Nat) → Option (Nat × Nat)
  | [] => none
  | x :: xs =>
    match earliest xs with
    | some y => some (if y.1 < x.1 then y else x)
    | none => some x

-- Log entry 192 (DEDUCED).
/-- The input that an output's virtual channel serves: the one whose packet holds it, else the one that has asked longest. -/
def Block.chosen (b : Block) (s port vc : Nat) : Option Nat :=
  match sget (fun _ => 0) (b.outSt (outKey s port)).hold vc with
  | k + 1 => if (b.vc k).flits.isEmpty then none else some k
  | 0 => (earliest (b.contenders s port vc)).map (·.2)

-- Log entry 192 (DEDUCED).
/-- The virtual channel that an output serves next, in rotation from the one after the last, with its input. -/
def Block.turnOf (b : Block) (s port : Nat) : Option (Nat × Nat) :=
  ((List.range 8).map fun i => ((b.outSt (outKey s port)).turn + 1 + i) % 8).findSome? fun vc =>
    if b.hasCredit s port vc then (b.chosen s port vc).map (vc, ·) else none

/-! ### Delivery (R42) -/

/-- A packet for a camp that has been reset since it was sent is discarded by its endpoint, which counts it. -/
def Block.discardPacket (b : Block) (site : Nat) (h : Nat) : Block :=
  let f := siteField b.wafer.kinds site
  match endpointAt b.wafer.kinds site (hdrToUnit h) with
  | some (.chan n) => b.bump (F.chanCampDiscards f n)
  | some (.cellar k) => b.bump (F.ccCampDiscards k)
  | some .sampler => b.bump (F.suCampDiscards f)
  | some .dma => b.bump (F.dmaCampDiscards f)
  | _ => b

-- Log entry 193 (DEDUCED).
/-- A whole packet reaches its site: its endpoint takes it, with POISON where a flit of it was uncorrectable. -/
def Block.deliverPacket (b : Block) (site port : Nat) (room : Bool) (flits : List Flit) : Block :=
  match flits with
  | [] => b
  | f :: pay =>
    let poison := flits.any (·.poison) || bitAt f.raw 3
    let h := if poison ∧ bitAt f.raw 3 = false then f.raw + 8 else f.raw
    let b1 := if hdrCls h = 2 then b.captureEntry site 2 2 port h ((pay.head?.map (·.raw)).getD 0) room else b
    if f.epoch < sget (fun _ => 0) b.fab.epochs (hdrCamp h) then b1.discardPacket site h
    else if (endpointAt b.wafer.kinds site (hdrToUnit h)).isNone then b1
    else b1.send (.packet site poison h (pay.map (·.raw)))

/-! ### A flit goes on -/

/-- The first flit of an input is gone; the packet that it closed leaves the front to the next. -/
def Block.popFlit (b : Block) (key : Nat) (f : Flit) : Block :=
  let x := b.vc key
  let b1 := b.setVc key { x with flits := x.flits.drop 1, since := if f.last then b.fab.serial else x.since }
  if f.last then { b1 with fab := { b1.fab with serial := b1.fab.serial + 1 } } else b1

-- Log entry 194 (DEDUCED).
/-- An output sends the first flit of an input on a virtual channel; a packet holds the virtual channel from its header to its last flit. -/
def Block.sendFlit (b : Block) (s port vc key : Nat) (room : Bool) : Block :=
  match (b.vc key).flits with
  | [] => b
  | f :: _ =>
    let g : Flit := if f.head then { f with raw := turned s f.raw } else f
    let o := b.outSt (outKey s port)
    let b1 := (b.popFlit key f).setOut (outKey s port) ⟨vc, sset (fun _ => 0) o.hold vc (if f.last then 0 else key + 1)⟩
    if port = 4 then
      let k := vcKey s 4 vc
      let got := sget (fun _ => []) b1.fab.inbox k ++ [g]
      let b2 : Block := { b1 with fab := { b1.fab with inbox := sset (fun _ => []) b1.fab.inbox k (if f.last then [] else got) } }
      if f.last then b2.deliverPacket s (key / 8 % 8) room got else b2
    else match b1.farInput s port vc with
      | some k => b1.setWire k (b1.wire k ++ [g])
      | none => b1

/-- Every output of every router that holds flits sends one, if it can. -/
def Block.meshPass (b : Block) (room : Bool) : Block :=
  (((b.fab.vcs.map fun kv => kv.1 / 64).dedup).filter fun s => !b.unpowered (siteField b.wafer.kinds s)).foldl (fun b s => (List.range 5).foldl (fun b port =>
    match b.turnOf s port with
    | some (vc, key) => b.sendFlit s port vc key room
    | none => b) b) b

/-- Outputs send until none can (the fuel is the number of flits in buffers; each goes one hop). -/
def Block.meshRun (b : Block) (room : Bool) : Block :=
  (List.range (sumOf (b.fab.vcs.map fun kv => kv.2.flits.length))).foldl (fun b _ => b.meshPass room) b

/-! ### Receiving (R38) -/

/-- FABRIC_FLIT_UE of a packet's flit. -/
def Block.flitUe (b : Block) (site port h flag : Nat) : Block :=
  ((b.bump (F.siteFlitUe site)).bump F.flitUeTotal).raise 0x0140 (siteField b.wafer.kinds site) 0xFF
    (packBits [(0, 8, site), (8, 8, port), (16, 8, hdrCls h), (24, 8, hdrLeg h), (32, 8, hdrSite h), (40, 16, hdrToUnit h), (56, 8, flag)])

/-- A flit enters the buffer of its virtual channel; its packet comes to the front of an empty one. -/
def Block.pushFlit (b : Block) (key : Nat) (f : Flit) : Block :=
  let x := b.vc key
  let b1 := b.setVc key { x with flits := x.flits ++ [f], since := if x.flits.isEmpty ∧ f.head then b.fab.serial else x.since }
  if x.flits.isEmpty ∧ f.head then { b1 with fab := { b1.fab with serial := b1.fab.serial + 1 } } else b1

-- Log entry 193 (DEDUCED).
/-- A header flit is received; one that the check cannot correct takes its packet with it. -/
def Block.headerFlit (b : Block) (site port key : Nat) (err : Nat) (f : Flit) (room : Bool) : Block :=
  let n := hdrPayload f.raw
  let b1 := b.setVc key { b.vc key with left := n, header := f.raw, drop := decide (err = 2) }
  if err = 2 then b1.flitUe site port f.raw 1
  else (if n = 0 then b1.captureEntry site 1 (hdrCls f.raw) port f.raw 0 room else b1).pushFlit key { f with head := true, last := decide (n = 0) }

/-- A payload flit of the packet that an input is receiving; one that the check cannot correct poisons its packet. -/
def Block.payloadFlit (b : Block) (site port key : Nat) (err : Nat) (f : Flit) (room : Bool) : Block :=
  let x := b.vc key
  let b1 := b.setVc key { x with left := x.left - 1 }
  if x.drop then b1
  else
    let b2 := if err = 2 then b1.flitUe site port x.header 0 else b1
    let b3 := if x.left = hdrPayload x.header then b2.captureEntry site 1 (hdrCls x.header) port x.header f.raw room else b2
    b3.pushFlit key { f with poison := f.poison || decide (err = 2), head := false, last := decide (x.left = 1) }

/-- A flit of an input is received, as the check finds it: 0 clean, 1 corrected, 2 uncorrectable. -/
def Block.takeFlit (b : Block) (site port key err : Nat) (f : Flit) (room : Bool) : Block :=
  let b1 := if err = 1 then (b.bump (F.siteFlitCe site)).bump F.flitCeTotal else b
  if (b.vc key).left = 0 then b1.headerFlit site port key err f room else b1.payloadFlit site port key err f room

-- Log entry 194 (DEDUCED).
/-- The header of a packet that an endpoint of a site sends: the router gives it the waypoint of its route. -/
def Block.routedHeader (b : Block) (site vc h : Nat) : Option Nat :=
  if hdrOk h = true ∧ hdrFrom h = site ∧ hdrLeg h = 0 ∧ hdrCls h = vc ∧ (endpointAt b.wafer.kinds site (hdrFromUnit h)).isSome = true ∧
      routeErr b.wafer.kinds site (hdrSite h) = false then
    (route b.wafer.kinds site (hdrSite h)).map fun r => withWay h r.2
  else none

/-- FLIT_RECEIVE: a router receives a flit at an input port, in the virtual channel of a class and leg. From another router it is the flit that the link has carried
longest; at the crossbar, port 4, an endpoint of the site sends `flit`, first a packet's header and then its payload. `err` is what the check
finds; `room` says whether the capture buffer can take entries at once. -/
def flitReceiveEff (site port cls leg err flit : Nat) (room : Bool) (b : Block) : Block :=
  let vc := cls + 4 * leg
  let key := vcKey site port vc
  if b.boot.en.fabric = false ∨ b.fab.routesOk = false ∨ 103 < site ∨ siteKind b.wafer.kinds site = 3 ∨ b.unpowered (siteField b.wafer.kinds site) ∨ 4 < port ∨ 3 < cls ∨ 1 < leg ∨ 2 < err then b
  else if port = 4 then
    let x := b.vc key
    if vcDepth ≤ x.flits.length then b
    else if x.left = 0 then
      match b.routedHeader site vc flit with
      | some h => (b.takeFlit site port key err ⟨h, false, true, false, sget (fun _ => 0) b.fab.epochs (hdrCamp h)⟩ room).meshRun room
      | none => b
    else (b.takeFlit site port key err ⟨flit % 2 ^ 256, false, false, false, 0⟩ room).meshRun room
  else match b.wire key with
    | [] => b
    | f :: rest => ((b.setWire key rest).takeFlit site port key err f room).meshRun room

/-! ### Waiting for credits, and outputs that have stopped (R54, R55) -/

/-- The virtual channels of an input that wait for a credit on a live link. -/
def Block.waitsForCredit (b : Block) (key : Nat) (x : VcSt) : Bool :=
  let s := key / 64
  match x.flits with
  | [] => false
  | f :: _ =>
    let held := (b.fab.outs.filter fun kv => decide (kv.1 / 8 = s)).flatMap fun kv => (kv.2.hold.filter fun h => decide (h.2 = key + 1)).map fun h => (kv.1 % 8, h.1)
    let way := if f.head then some (wayOut s f.raw) else held.head?
    match way with
    | some (port, vc) => decide (port < 4) && (b.farInput s port vc).isSome && !b.hasCredit s port vc
    | none => false

/-- One µs of waiting for credits is counted. -/
def Block.tickMesh (b : Block) : Block :=
  (b.meshRun true).count F.creditWaitUs ((b.fab.vcs.filter fun kv => b.waitsForCredit kv.1 kv.2).length)

-- Log entry 234 (DEDUCED).
/-- The class and leg of the oldest packet that waits at an output, 0xFF each where none waits. One whose hand-over had started, as `begun` says, is
the oldest. -/
def Block.oldestAt (b : Block) (s port : Nat) (begun : Nat × Nat) : Nat × Nat :=
  let ready := (List.range 8).filterMap fun vc => (b.chosen s port vc).map fun k => ((b.vc k).since, vc)
  if begun.1 < 4 ∧ begun.2 < 2 then begun
  else match earliest ready with
    | some (_, vc) => (vc % 4, vc / 4)
    | none => (0xFF, 0xFF)

-- Log entry 234 (DEDUCED).
/-- FABRIC_STALL: an output whose link has not acknowledged for STALL_LIMIT_US is dead; the event is raised once per link, by the router whose
output faces it. What waits there waits until the reset (R55). `cls` and `leg` name the packet whose hand-over had started, 0xFF each where none
had. -/
def fabricStallEff (site port cls leg : Nat) (b : Block) : Block :=
  let age := (b.fab.time - sget (fun _ => 0) b.fab.lastAck (linkKey site port)) / 1000
  if b.boot.en.fabric = true ∧ siteKind b.wafer.kinds site ≠ 3 ∧ b.fab.dead.contains (site, port) = false ∧ max 1 (b.fget F.stallLimitUs) ≤ age then
    let w := b.oldestAt site port (cls, leg)
    (((({ b with fab := { b.fab with dead := b.fab.dead ++ [(site, port)] } } : Block).bump (F.siteStalls site)).bump
      F.stallsTotal).raise 0x0680 (siteField b.wafer.kinds site) 0xFF
        (packBits [(0, 8, site), (8, 8, port), (16, 8, w.1), (24, 8, w.2), (32, 32, age)]))
  else b

end Sys2Proof.Machine
end

