-- ==== Sys2Proof/Machine/Ration.lean ====
section
/-! DEFINITION. Chapter 03: the ration desks and the master: requests, ramps, handover, tapers, ballast, loans, ceilings and
throttle. -/
namespace Sys2Proof.Machine

/-! ### Levels and ceilings -/

/-- A value at k sixteenths, rounded up (R80). -/
def atFraction (amount k : Nat) : Nat := cdiv (amount * k) 16

/-- What a grant counts at its engine's clock fraction. -/
def Grant.counted (g : Grant) : Nat := atFraction g.amount g.k

def sumGrants (gs : List Grant) : Nat := (gs.map Grant.counted).foldl (· + ·) 0

/-- What waiting requests have been handed or ramped, each up to its amount. -/
def sumReqs (qs : List Req) : Nat := (qs.map fun r => min r.amount (r.handed + r.ramped)).foldl (· + ·) 0

/-- The level of a desk (R62): floor, grants, what waiting requests have been handed or ramped, tapers, ballast; and the field test's
draw. -/
def Desk.level (d : Desk) : Nat := d.floor + sumGrants d.grants + sumReqs d.queue + d.taper + d.caught + d.test

/-- The ballast in use: carrying ramps, and tapering after a catch (R69). -/
def Desk.ballast (d : Desk) : Nat := (d.queue.map (·.ramped)).foldl (· + ·) 0 + d.caught

def Block.desk (b : Block) (f : Nat) : Desk := sget (fun _ => Desk.init) b.rat.desks f

def Block.setDesk (b : Block) (f : Nat) (d : Desk) : Block :=
  { b with rat := { b.rat with desks := sset (fun _ => Desk.init) b.rat.desks f d } }

/-- The field ceiling in force (R81). -/
def Block.ceiling (b : Block) (f : Nat) : Nat := b.inForce (F.deskConfigCeiling f)

/-- The sum of the 96 ceilings (R79). -/
def Block.ceilingSum (b : Block) : Nat := ((List.range 96).map b.ceiling).foldl (· + ·) 0

/-- WAFER_CAP as it acts: above 122,880 as 122,880 (R85). -/
def Block.waferCap (b : Block) : Nat := min (b.fget F.rmConfigWaferCap) 122880

/-- THROTTLE_PCT: the lowest of its sources (R79). -/
def Block.throttlePct (b : Block) : Nat := min b.modu.logicPct (if b.modu.force then 30 else 100)

/-- E_f of a ceiling among a sum, under a cap and a throttle (R79). -/
def effCeiling (ceiling sum cap pct : Nat) : Nat :=
  min (ceiling * pct / 100) (if sum = 0 then 0 else cap * ceiling * pct / (sum * 100))

/-- The effective ceiling of field f (R79). -/
def Block.effCeiling (b : Block) (f : Nat) : Nat :=
  Machine.effCeiling (b.ceiling f) b.ceilingSum b.waferCap b.throttlePct

/-- Is the desk OVER (R80)? -/
def Block.deskOver (b : Block) (f : Nat) : Bool := decide (b.effCeiling f < (b.desk f).level)

/-- The summed levels of the desks (RM_STATUS.LEVEL). -/
def Block.waferLevel (b : Block) : Nat := ((List.range 96).map fun f => (b.desk f).level).foldl (· + ·) 0

/-! ### The queue (R70) -/

/-- What a request still needs. -/
def Req.need (r : Req) : Nat := r.amount - (r.handed + r.ramped)

/-- Put a request behind every request of its class or a higher one. -/
def enter (r : Req) : List Req → List Req
  | [] => [r]
  | q :: qs => if r.cls < q.cls then r :: q :: qs else q :: enter r qs

-- Log entry 199 (DEDUCED).
/-- One request is ramped at a time (R65): one queued ahead of it takes over what the ballast has ramped. -/
def takeRamp : List Req → List Req
  | r :: q :: qs =>
    let t := min r.need q.ramped
    { r with ramped := r.ramped + t } :: { q with ramped := q.ramped - t } :: qs
  | qs => qs

-- Log entry 199 (DEDUCED).
/-- A request joins the queue (R70). -/
def enqueue (r : Req) (qs : List Req) : List Req := takeRamp (enter r qs)

/-- Hand released rations to the queue in order (R66): each request takes what it still needs, and the first that is not
covered whole takes the rest and ends the handover. Answers the queue and what is left over. -/
def handOver : Nat → List Req → List Req × Nat
  | n, [] => ([], n)
  | n, q :: qs =>
    let need := q.need
    if n < need then ({ q with handed := q.handed + n } :: qs, 0)
    else
      let r := handOver (n - need) qs
      ({ q with handed := q.handed + need } :: r.1, r.2)

/-- Is the request covered? -/
def Req.covered (r : Req) : Bool := decide (r.amount ≤ r.handed + r.ramped)

/-- The covered requests at the head of the queue leave it (R65, R66). Answers the queue and those delivered. -/
def deliver : List Req → List Req × List Req
  | [] => ([], [])
  | q :: qs => if q.covered then ((deliver qs).1, q :: (deliver qs).2) else (q :: qs, [])

def Req.toGrant (r : Req) : Grant := ⟨r.who, r.cls, r.camp, r.amount, r.standing, 16⟩

/-- What the delivered requests make of the grants: a new grant each, or a step of a clock back up (R80). -/
def receive (gs : List Grant) (rs : List Req) : List Grant :=
  rs.foldl (fun gs r => if r.clock then gs.map fun g => if g.who == r.who then { g with k := min 16 (g.k + 1) } else g else gs ++ [r.toGrant]) gs

/-- The thread of a thread-core requester. -/
def askerThread (f : Nat) (a : Asker) : Nat := (f * 288 + a.unit) * 4 + a.thread

/-- Does a thread wait at SETVL for its core's wide grant? -/
def Wait.isWide : Wait → Bool
  | .wide _ _ _ => true
  | _ => false

/-- What a delivered grant does to the threads that wait for it (R76, R209): RATION.REQ writes its amount, and the threads
of the core that wait for the wide grant set their VL. -/
def ThreadPart.granted (p : ThreadPart) (f : Nat) (r : Req) (now : Nat) : ThreadPart :=
  if r.who.unit < 0x120 ∧ r.who.sub = 0 then
    { p with threads := supd (fun _ => ThreadSt.init) p.threads (askerThread f r.who) fun t =>
        match t.wait with
        | .ration rd => { t with g := if rd = 0 then t.g else sset (fun _ => 0) t.g rd (BitVec.ofNat 64 r.amount),
                                 gp := setBit t.gp rd false, wait := .none }
        | _ => t }
  else if r.who.unit < 0x120 ∧ r.who.sub = 1 then
    { p with
      threads := (List.range 4).foldl (fun m i => supd (fun _ => ThreadSt.init) m ((f * 288 + r.who.unit) * 4 + i) fun t =>
        match t.wait with
        | .wide rd vl ew => { t with g := if rd = 0 then t.g else sset (fun _ => 0) t.g rd (BitVec.ofNat 64 vl),
                                     gp := setBit t.gp rd false, vl := vl, ew := ew, wait := .none }
        | _ => t) p.threads
      cores := supd (fun _ => CoreSt.init) p.cores (f * 288 + r.who.unit) fun c => { c with lastWide := now } }
  else p

/-- Count and pass on the grants delivered at a desk. -/
def Block.delivered (b : Block) (f : Nat) : List Req → Block
  | [] => b
  | r :: rs =>
    if r.clock then Block.delivered (b.bump F.rmThrottleSteps) f rs
    else
    let b1 := ((b.bump (F.deskGrants f)).count (F.deskHandovers f) (if r.handed = 0 then 0 else 1)).count (F.deskWaitUs f)
      ((b.fab.time - r.at_) / 1000)
    Block.delivered { b1 with tc := b1.tc.granted f r b.fab.time } f rs

/-- Release rations at a desk: OVER, with the released rations still drawn, they taper; otherwise they go to the queue in order, what is
left over tapers, and the requests covered are delivered (R66, R67, R80). -/
def Block.giveBack (b : Block) (f n : Nat) : Block :=
  let d := b.desk f
  if b.effCeiling f < d.level + n then (b.setDesk f { d with taper := d.taper + n }).count (F.deskTapers f) (if n = 0 then 0 else 1)
  else
    let h := handOver n d.queue
    let r := deliver h.1
    let b1 := b.setDesk f { d with queue := r.1, grants := receive d.grants r.2, taper := d.taper + h.2 }
    (b1.count (F.deskTapers f) (if h.2 = 0 then 0 else 1)).delivered f r.2

/-- The grant a requester holds at a desk. -/
def Block.grantOf (b : Block) (f : Nat) (who : Asker) : Option Grant := (b.desk f).grants.find? (·.who == who)

def Block.holds (b : Block) (f : Nat) (who : Asker) : Bool := (b.grantOf f who).isSome

/-- Does a requester hold a grant that covers an operation of `n` rations (R61)? -/
def Block.covers (b : Block) (f : Nat) (who : Asker) (n : Nat) : Bool :=
  match b.grantOf f who with
  | some g => decide (n ≤ g.amount)
  | none => false

/-- Does a requester wait for a grant at a desk? -/
def Block.waits (b : Block) (f : Nat) (who : Asker) : Bool := (b.desk f).queue.any fun q => q.who == who && !q.clock

/-- Requests leave a queue together, and what they were handed or ramped is given back (R74). -/
def Block.removeReqs (b : Block) (f : Nat) (out : Req → Bool) : Block :=
  let d := b.desk f
  let gone := d.queue.filter out
  if gone.isEmpty then b
  else (b.setDesk f { d with queue := d.queue.filter fun q => !out q }).giveBack f (sumOf (gone.map fun q => min q.amount (q.handed + q.ramped)))

/-- A requester releases its grant (R66); a step of its clock back up goes with it. -/
def Block.release (b : Block) (f : Nat) (who : Asker) : Block :=
  match b.grantOf f who with
  | some g =>
    let b1 := b.removeReqs f fun q => q.clock && q.who == who
    let d := b1.desk f
    (b1.setDesk f { d with grants := dropFirst (·.who == who) d.grants }).giveBack f g.counted
  | none => b

/-- A waiting request is removed by its requester's end (R74); what it was handed or ramped is given back. -/
def Block.withdraw (b : Block) (f : Nat) (who : Asker) : Block := b.removeReqs f fun q => !q.clock && q.who == who

/-- A requester's automatic grant is released; one that stands stays until the plan drops it (R77). -/
def Block.releaseAuto (b : Block) (f : Nat) (who : Asker) : Block :=
  match b.grantOf f who with
  | some g => if g.standing then b else b.release f who
  | none => b

/-- A requester's automatic request is withdrawn; one of the plan stays. -/
def Block.withdrawAuto (b : Block) (f : Nat) (who : Asker) : Block := b.removeReqs f fun q => !q.clock && !q.standing && q.who == who

/-- The payload of RATION_STARVED and RATION_REFUSED (R84). -/
def Block.reqPayload (b : Block) (f : Nat) (who : Asker) (cls reason amount waited : Nat) : Nat :=
  packBits [(0, 16, who.unit), (16, 8, who.thread), (24, 2, cls), (26, 6, reason), (32, 16, amount), (64, 32, waited),
    (96, 16, (b.desk f).level), (112, 16, b.effCeiling f)]

/-- Why a desk refuses a request at once: 0 for not at all (R73). -/
def Block.refusal (b : Block) (f : Nat) (who : Asker) (amount : Nat) : Nat :=
  if amount = 0 then 1
  else if 256 < amount then 2
  else if b.ceiling f - (b.desk f).floor < amount then 3
  else if b.holds f who || b.waits f who then 4
  else 0

/-- A request reaches a desk (R70): refused, counted and raised, or queued; a taper under way is taken by handover, and a
refused RATION.REQ writes 0 (R76). -/
def Block.request (b : Block) (f : Nat) (who : Asker) (cls camp amount : Nat) (standing : Bool) : Block :=
  let why := b.refusal f who amount
  if why ≠ 0 then
    let b1 := (b.bump (F.deskRefused f)).raise 0x0302 f camp (b.reqPayload f who cls why amount 0)
    { b1 with tc := if who.sub = 0 ∧ b.waits f who = false then b1.tc.granted f ⟨who, cls, camp, 0, 0, 0, 0, 0, false, false, false⟩ b.fab.time else b1.tc }
  else
    let d := b.desk f
    let r : Req := ⟨who, cls, camp, amount, 0, 0, b.fab.time, 0, false, standing, false⟩
    let b1 := b.setDesk f { d with queue := enqueue r d.queue, taper := if b.deskOver f then d.taper else 0 }
    if b.deskOver f then b1
    else
      let h := handOver d.taper (enqueue r d.queue)
      let x := deliver h.1
      (b1.setDesk f { d with queue := x.1, grants := receive d.grants x.2, taper := h.2 }).delivered f x.2

/-! ### Arrays, and who holds them (R241) -/

def arrKey (f n : Nat) : Nat := 12 * f + n

def Block.array (b : Block) (f n : Nat) : ArrSt := sget (fun _ => ArrSt.init) b.arr (arrKey f n)

def Block.setArray (b : Block) (f n : Nat) (x : ArrSt) : Block := { b with arr := sset (fun _ => ArrSt.init) b.arr (arrKey f n) x }

/-- An array's units as requesters (R72, R243): 0 shift, 1 stream, 2 the standing grant of firmware. -/
def arrAsker (n engine : Nat) : Asker := ⟨0x140 + n, 0xFF, engine⟩

/-- An array passes to the resident kernels of a camp: it is cleared unless they held it last; one that a JOB holds passes when the JOB
leaves it (R241). -/
def Block.passArray (b : Block) (f n c : Nat) : Block :=
  let x := b.array f n
  if x.kind = 1 ∨ (x.kind = 2 ∧ x.camp = c) then b else b.setArray f n { ArrSt.init with kind := 2, camp := c }

/-- A requester asks for a standing grant of an array: the array passes to its camp. -/
def Block.passTo (b : Block) (f : Nat) (who : Asker) (c : Nat) : Block :=
  if 0x140 ≤ who.unit ∧ who.unit < 0x14C ∧ who.sub = 2 then b.passArray f (who.unit - 0x140) c else b

/-! ### Rows -/

/-- RATION_REQUEST. -/
def rationRequestEff (f unit thread sub cls camp amount : Nat) (standing : Bool) (b : Block) : Block :=
  let who : Asker := ⟨unit, thread, sub⟩
  (if b.refusal f who amount = 0 then b.passTo f who camp else b).request f who cls camp amount standing

/-- RATION_RELEASE. -/
def rationReleaseEff (f unit thread sub : Nat) (b : Block) : Block := b.release f ⟨unit, thread, sub⟩

/-- A class's starvation time in µs (R85). -/
def Block.starveUs (b : Block) (cls : Nat) : Nat :=
  match cls with
  | 0 => b.fget F.rmStarveClass0
  | 1 => b.fget F.rmStarveClass1 * 10
  | _ => b.fget F.rmStarveClass2 * 100

/-- RATION_STARVED: a request that has waited past its class's starvation time, time held under undervoltage left out,
raises the event once and keeps its place (R74). -/
def rationStarvedEff (f unit thread sub : Nat) (b : Block) : Block :=
  match (b.desk f).queue.find? (·.who == ⟨unit, thread, sub⟩) with
  | some r =>
    let waited := (b.fab.time - r.at_) / 1000
    if r.starved = false ∧ b.starveUs r.cls < waited - r.heldUs then
      let d := b.desk f
      ((b.setDesk f { d with queue := d.queue.map fun x => if x.who == r.who then { x with starved := true } else x }).bump
        (F.deskStarved f)).raise 0x0301 f r.camp (b.reqPayload f r.who r.cls 0 r.amount waited)
    else b
  | none => b

-- Log entry 12 (DESIGN CHOICE).
/-- LOAN_EXPIRY: the loan slots of a field whose period has passed return to their pools (R64). -/
def loanExpiryEff (f : Nat) (b : Block) : Block :=
  let d := b.desk f
  let live (l : List Nat) : List Nat := l.filter (b.fab.time < ·)
  b.setDesk f { d with up := live d.up, down := live d.down, matchUp := live d.matchUp, matchDown := live d.matchDown }

/-- An engine loses `lost` rations of its draw without a taper: the desk's free ballast catches what it can, and the rest is an
excursion (R69). -/
def Block.catchDrop (b : Block) (f unit camp lost : Nat) : Block :=
  let d := b.desk f
  let caught := min lost (512 - d.ballast)
  let pay := packBits [(0, 16, unit), (16, 16, lost), (32, 16, caught)]
  let b1 := b.setDesk f { d with caught := d.caught + caught }
  let b2 := if caught = 0 then b1 else (b1.bump (F.deskCatches f)).raise 0x0303 f camp pay
  if lost = caught then b2 else (b2.bump F.rmExcursions).raise 0x0304 f camp pay

/-- A requester loses the whole draw of its grant (R69). -/
def Block.dropDraw (b : Block) (f : Nat) (who : Asker) : Block :=
  match b.grantOf f who with
  | some g =>
    let b1 := b.removeReqs f fun q => q.clock && q.who == who
    let d := b1.desk f
    (b1.setDesk f { d with grants := dropFirst (·.who == who) d.grants }).catchDrop f who.unit g.camp g.counted
  | none => b

/-- UNPLANNED_DROP: an engine loses its draw without a taper. -/
def unplannedDropEff (f unit thread sub : Nat) (b : Block) : Block := b.dropDraw f ⟨unit, thread, sub⟩

/-! ### The tick (R63, R64, R65, R67, R80) -/

/-- The lowest fraction an engine is stepped to: a pod controller's burst grant 4/16, others 1/16 (R80). -/
def minFraction (a : Asker) : Nat := if 0x1C0 ≤ a.unit ∧ a.unit < 0x1E0 ∧ a.sub = 0 then 4 else 1

-- Log entry 13 (DESIGN CHOICE).
/-- The grant whose engine steps down next: the one with the highest clock fraction, of these the first of the list. -/
def nextDown : List Grant → Option Grant
  | [] => none
  | g :: gs => match nextDown gs with
    | some x => if minFraction g.who < g.k ∧ x.k ≤ g.k then some g else some x
    | none => if minFraction g.who < g.k then some g else none

-- Log entries 13 (DESIGN CHOICE), 200 (DEDUCED).
/-- Step clocks down while the down slew has room and the desk is `excess` over: what a step takes from its grant tapers. Answers the
grants, the rations that still taper, those that fell, and the steps taken (the fuel is every step that the grants have). -/
def stepDown : Nat → Nat → Nat → List Grant → List Grant × Nat × Nat × Nat
  | 0, _, _, gs => (gs, 0, 0, 0)
  | n + 1, room, excess, gs =>
    if room = 0 ∨ excess = 0 then (gs, 0, 0, 0)
    else match nextDown gs with
      | none => (gs, 0, 0, 0)
      | some g =>
        let dec := g.counted - atFraction g.amount (g.k - 1)
        let fall := min room dec
        let r := stepDown n (room - fall) (excess - dec) (gs.map fun x => if x.who == g.who then { x with k := x.k - 1 } else x)
        (r.1, r.2.1 + (dec - fall), r.2.2.1 + fall, r.2.2.2 + 1)

/-- Clocks step back up (R80): a grant below full rate, with no step under way, asks for its next sixteenth where the ceiling has room
for it; a step that costs nothing is made at once. Answers the grants, the queue, the steps made and the room left. -/
def stepUp (now : Nat) : Nat → List Grant → List Req → List Grant × List Req × Nat
  | _, [], qs => ([], qs, 0)
  | room, g :: gs, qs =>
    let inc := atFraction g.amount (g.k + 1) - g.counted
    if 16 ≤ g.k ∨ (qs.any fun q => q.clock && q.who == g.who) = true ∨ room < inc then
      let r := stepUp now room gs qs
      (g :: r.1, r.2)
    else if inc = 0 then
      let r := stepUp now room gs qs
      ({ g with k := g.k + 1 } :: r.1, r.2.1, r.2.2 + 1)
    else
      let r := stepUp now (room - inc) gs (enqueue ⟨g.who, g.cls, g.camp, inc, 0, 0, now, 0, false, false, true⟩ qs)
      (g :: r.1, r.2)

/-- Ramp the queue (R65): its head, while the whole of what it needs fits under the ceiling; with slew left, the next. -/
def rampQueue : Nat → Nat → List Req → List Req
  | _, _, [] => []
  | room, cap, q :: qs =>
    if cap < q.need then q :: qs
    else
      let t := min room q.need
      let q' := { q with ramped := q.ramped + t }
      if q'.covered then q' :: rampQueue (room - t) (cap - t) qs else q' :: qs

/-- The down slew and the up slew of a desk in one tick (R63, R64). -/
def Desk.downSlew (d : Desk) : Nat := 1 + d.down.length + d.matchDown.length
def Desk.upSlew (d : Desk) : Nat := 1 + d.up.length + d.matchUp.length

/-- What the field test still rises: to a level of 800 rations (R522). -/
def Desk.testRise (d : Desk) (testing : Nat) : Nat := if testing = 1 then 800 - d.level else 0

/-- What falls in one tick, within `room`: tapers, caught ballast, the test's draw on its way back. Answers what is left of the room. -/
def Desk.fall (d : Desk) (testing room : Nat) : Desk × Nat :=
  let t := min room d.taper
  let c := min (room - t) d.caught
  let x := if testing = 2 then min (room - t - c) d.test else 0
  ({ d with taper := d.taper - t, caught := d.caught - c, test := d.test - x }, room - t - c - x)

/-- Steps of clocks back up are given up: what they were handed or ramped tapers (R80). -/
def Desk.dropClocks (d : Desk) : Desk :=
  { d with queue := d.queue.filter fun q => !q.clock
           taper := d.taper + sumOf ((d.queue.filter (·.clock)).map fun q => min q.amount (q.handed + q.ramped)) }

-- Log entries 199 (DEDUCED), 200 (DEDUCED).
/-- One desk moves for one µs. An OVER desk's tapers and caught ballast fall, and it steps clocks down; otherwise waiting requests take
the taper, the rest of it falls, clocks ask to step back up, and the queue ramps, unless undervoltage holds rising ramps (R504).
`maxUp` and `maxDown` are what the wafer's net change leaves to this desk (R63). Answers the desk, the requests delivered and the
clock steps. -/
def Desk.move (d : Desk) (eff : Nat) (held : Bool) (testing now maxUp maxDown : Nat) : Desk × List Req × Nat :=
  let room := min (if held then 1 else d.downSlew) maxDown
  if eff < d.level then
    let x := d.dropClocks.fall testing room
    if x.1.level ≤ eff then (x.1, [], 0)
    else
      let r := stepDown (16 * x.1.grants.length) x.2 (x.1.level - eff) x.1.grants
      ({ x.1 with grants := r.1, taper := x.1.taper + r.2.1 }, [], r.2.2.2)
  else
    let h := handOver d.taper d.queue
    let y := deliver h.1
    let x := (({ d with queue := y.1, grants := receive d.grants y.2, taper := h.2 } : Desk).fall testing room).1
    if held then
      let q := match x.queue with | [] => [] | q :: qs => (if q.ramped = 0 then q else { q with heldUs := q.heldUs + 1 }) :: qs
      ({ x with queue := q }, y.2, 0)
    else
      let up := min x.upSlew maxUp
      let s := stepUp now (eff - x.level) x.grants x.queue
      let z := deliver (rampQueue up (eff - x.level) s.2.1)
      let w : Desk := { x with grants := receive s.1 z.2, queue := z.1 }
      let rise := min (up - (w.level - x.level)) (min (w.testRise testing) (eff - w.level))
      ({ w with test := w.test + (if z.1.isEmpty then rise else 0) }, y.2 ++ z.2, s.2.2)

/-- Is a ramp running: does the head of the queue fit (R62, R65), and is it not held (R504)? -/
def Block.deskRamps (b : Block) (f : Nat) : Bool :=
  let d := b.desk f
  !b.modu.underVolt && match d.queue with
    | [] => false
    | q :: _ => decide (d.level + q.need ≤ b.effCeiling f)

/-- What the head of a queue and those behind it may ramp under a ceiling's room: the requests that fit, in queue order (R64, R65). -/
def fitting : Nat → List Req → Nat
  | _, [] => 0
  | room, q :: qs => if room < q.need then 0 else q.need + fitting (room - q.need) qs

/-- A desk's pending rise and fall (R64): what may ramp; and what tapers, with what an OVER desk is over its ceiling. -/
def Block.pendingUp (b : Block) (f : Nat) : Nat :=
  let d := b.desk f
  fitting (b.effCeiling f - d.level) d.queue + d.testRise b.rat.testing
-- Log entry 200 (DEDUCED).
def Block.pendingDown (b : Block) (f : Nat) : Nat :=
  let d := b.desk f
  let x := d.taper + d.caught + (if b.rat.testing = 2 then d.test else 0)
  max x (d.level - b.effCeiling f)

-- Log entry 11 (DEDUCED).
/-- Every desk moves in turn. `rise` and `fall` are what the desks before it rose and fell: the net change of the summed levels stays
within 122 rations either way (R63). -/
def Block.moveDesks (b : Block) (rise fall : Nat) : List Nat → Block
  | [] => b
  | f :: fs =>
    let d := b.desk f
    let r := d.move (b.effCeiling f) b.modu.underVolt b.rat.testing b.fab.time (122 + fall - rise) (122 + rise - fall)
    (((b.setDesk f r.1).count F.rmThrottleSteps r.2.2).delivered f r.2.1).moveDesks (rise + (r.1.level - d.level)) (fall + (d.level - r.1.level)) fs

/-- The ramp of the field test turns back once every desk is at 800 rations or at its ceiling, and is over once it has come back (R522). -/
def Block.testTurns (b : Block) : Block :=
  let next := match b.rat.testing with
    | 1 => if (List.range 96).all fun f => decide (min 800 (b.effCeiling f) ≤ (b.desk f).level) then 2 else 1
    | 2 => if (List.range 96).all fun f => decide ((b.desk f).test = 0) then 0 else 2
    | x => x
  { b with rat := { b.rat with testing := next } }

/-- The order in which the master serves desks from a pool: by the class of the head request, then in rotation after the desk `last`
that the pool served last (R64). Desks without a request (tapers) come last. -/
def lendOrder (b : Block) (last : Nat) (fs : List Nat) : List Nat :=
  let rot := fs.filter (last < ·) ++ fs.filter (· ≤ last)
  let cls (f : Nat) := match (b.desk f).queue with | [] => 3 | q :: _ => q.cls
  (List.range 4).flatMap fun c => rot.filter fun f => cls f = c

-- Log entry 11 (DEDUCED).
/-- Does a desk ask for a slot: is its pending change LOAN_MIN or more, and more than its slots carry in one tick (R64)? -/
def Block.asksSlot (b : Block) (pending slew : Nat) : Bool := decide (b.fget F.rmLoanLoanMin ≤ pending) && decide (slew < pending) && decide (slew ≤ 26)

-- Log entry 11 (DEDUCED).
/-- Lend one rising slot to each desk that asks, while the pool lasts. -/
def Block.lendUp (b : Block) (expiry : Nat) : Nat → List Nat → Block
  | _, [] => b
  | free, f :: fs =>
    let d := b.desk f
    if 0 < free ∧ b.asksSlot (b.pendingUp f) d.upSlew = true then
      let b1 := (b.setDesk f { d with up := d.up ++ [expiry] }).bump F.rmLoans
      Block.lendUp { b1 with rat := { b1.rat with lastServed := f } } expiry (free - 1) fs
    else b.lendUp expiry free fs

-- Log entry 11 (DEDUCED).
/-- The same for falling slots. -/
def Block.lendDown (b : Block) (expiry : Nat) : Nat → List Nat → Block
  | _, [] => b
  | free, f :: fs =>
    let d := b.desk f
    if 0 < free ∧ b.asksSlot (b.pendingDown f) d.downSlew = true then
      let b1 := (b.setDesk f { d with down := d.down ++ [expiry] }).bump F.rmLoans
      Block.lendDown { b1 with rat := { b1.rat with lastDown := f } } expiry (free - 1) fs
    else b.lendDown expiry free fs

-- Log entry 12 (DESIGN CHOICE).
/-- Lend matched pairs beyond the pools: one rising and one falling slot to two desks that ask (R64). -/
def Block.lendMatched (b : Block) (expiry : Nat) : List (Nat × Nat) → Block
  | [] => b
  | (u, d) :: r =>
    if u = d then b.lendMatched expiry r
    else
      let b1 := b.setDesk u { b.desk u with matchUp := (b.desk u).matchUp ++ [expiry] }
      let b2 := b1.setDesk d { b1.desk d with matchDown := (b1.desk d).matchDown ++ [expiry] }
      (b2.count F.rmMatchedLoans 2).lendMatched expiry r

-- Log entry 12 (DESIGN CHOICE).
/-- The slots of the pools in use. -/
def Block.lentUp (b : Block) : Nat := (b.rat.desks.map fun kv => kv.2.up.length).foldl (· + ·) 0
-- Log entry 12 (DESIGN CHOICE).
def Block.lentDown (b : Block) : Nat := (b.rat.desks.map fun kv => kv.2.down.length).foldl (· + ·) 0

-- Log entry 11 (DEDUCED).
/-- The master lends for the coming µs (R64); no slot under undervoltage (R504). -/
def Block.lend (b : Block) : Block :=
  if b.modu.underVolt then b
  else
    let fs := b.rat.desks.map (·.1)
    let expiry := b.fab.time + b.fget F.rmLoanLoanPeriodUs * 1000
    let b0 := b.lendUp expiry (26 - b.lentUp) (lendOrder b b.rat.lastServed fs)
    let b1 := b0.lendDown expiry (26 - b0.lentDown) (lendOrder b b.rat.lastDown fs)
    if b1.fget F.rmLoanMatched = 1 then
      let ups := (lendOrder b b1.rat.lastServed fs).filter fun f => b1.asksSlot (b1.pendingUp f) (b1.desk f).upSlew
      let downs := (lendOrder b b1.rat.lastDown fs).filter fun f => b1.asksSlot (b1.pendingDown f) (b1.desk f).downSlew
      b1.lendMatched expiry (ups.zip downs)
    else b1

-- Log entries 9 (DESIGN CHOICE), 183 (DESIGN CHOICE).
/-- The camps whose plan increase has no standing request left waiting: RAMP_SETTLED (R78). -/
def Block.settle (b : Block) : List (Nat × Nat) → Block
  | [] => b
  | (c, t) :: r =>
    if (b.rat.desks.any fun kv => kv.2.queue.any fun q => q.standing && q.camp == c) then b.settle r
    else (({ b with rat := { b.rat with plans := b.rat.plans.filter (·.1 != c) } } : Block).raise 0x0306 0xFF c
      (packBits [(0, 24, b.waferLevel), (32, 32, (b.fab.time - (t - 1)) / 1000)])).settle r

/-- The largest net rise and fall of one tick (RM_SLEW_PEAK). -/
def Block.slewPeaks (b : Block) (before : Nat) : Block :=
  (b.peak F.rmSlewPeakUp (b.waferLevel - before)).peak F.rmSlewPeakDown (before - b.waferLevel)

/-- Time full is counted for every full ring (R409). -/
def countFull (regs : Sparse W32) : List (Nat × RingSt) → Sparse W32
  | [] => regs
  | (k, s) :: r => countFull (if s.full && s.enabled then fldAdd regs (F.fullUs k) 1 else regs) r

-- Log entry 229 (DEDUCED).
/-- One µs of the root's counter. It slews towards the domain's time by at most 200 parts per million: 1 ns in 5 µs (R50, R453). -/
def Block.clockTick (b : Block) : Block :=
  let d := b.yg.domain
  if d.slew = 0 then { b with fab := { b.fab with time := b.fab.time + 1000 } }
  else if d.beat < 4 then { b with fab := { b.fab with time := b.fab.time + 1000 }, yg := { b.yg with domain := { d with beat := d.beat + 1 } } }
  else if 0 < d.slew then { b with fab := { b.fab with time := b.fab.time + 1001 }, yg := { b.yg with domain := { d with beat := 0, slew := d.slew - 1 } } }
  else { b with fab := { b.fab with time := b.fab.time + 999 }, yg := { b.yg with domain := { d with beat := 0, slew := d.slew + 1 } } }

-- Log entry 163 (DEDUCED).
/-- One µs of WAFER_TIME passes over the wafer: every desk moves its ramps and tapers within its slew, the
master lends loan slots, and plan increases that are fully granted settle. The tick is the model's 1 µs of WAFER_TIME
(R50, R63). -/
def Block.rationTickDesks (b : Block) : Block :=
  if b.boot.en.fabric then
    let before := b.waferLevel
    let b0 := (({ b.clockTick with regs := countFull b.regs b.ring.rings } : Block).slewRouters).tickMesh
    let b1 := ((b0.moveDesks 0 0 (List.range 96)).testTurns.lend).slewPeaks before
    b1.settle b1.rat.plans
  else b

/-! ### What changes the throttle (R79, R84) -/

/-- RATION_THROTTLE is raised where THROTTLE_PCT or WAFER_CAP changed. -/
def Block.throttleEvent (b : Block) (old : Block) : Block :=
  if b.throttlePct ≠ old.throttlePct ∨ b.fget F.rmConfigWaferCap ≠ old.fget F.rmConfigWaferCap then
    let src := if b.throttlePct = old.throttlePct then 0
      else (if b.modu.logicPct < 100 then 1 else 0) + (if b.modu.force then 2 else 0)
    (b.raise 0x0305 0xFF 0xFF (packBits [(0, 8, b.throttlePct), (8, 8, src), (16, 24, b.waferCap)])).send (.throttle b.throttlePct)
  else b

/-- A camp's waiting requests are removed and counted, and its plan increase is forgotten (R78, R83). -/
def Block.withdrawCamp (b : Block) (c : Nat) : Block :=
  let b1 := b.rat.desks.foldl (fun b kv =>
    let mine (q : Req) : Bool := q.camp == c
    (b.removeReqs kv.1 mine).count (F.deskWithdrawn kv.1) (kv.2.queue.filter mine).length) b
  { b1 with rat := { b1.rat with plans := b1.rat.plans.filter (·.1 != c) } }

-- Log entry 201 (DEDUCED).
/-- The grants held for a camp's work are released, as its engines have drained (R83). -/
def Block.releaseCamp (b : Block) (c : Nat) : Block :=
  b.rat.desks.foldl (fun b kv => kv.2.grants.foldl (fun b g => if g.camp == c then b.release kv.1 g.who else b) b) b

/-- A desk as the ramp-down finds it: every grant and every covered part of a request tapers (R82). -/
def Desk.rampDown (d : Desk) : Desk :=
  { d with queue := [], grants := [], taper := d.taper + sumGrants d.grants + sumReqs d.queue }

/-- The master releases every grant; the wafer then tapers to its floors at the slew of R63 (R82). -/
def RationPart.rampDown (p : RationPart) : RationPart :=
  { p with desks := p.desks.map fun kv => (kv.1, kv.2.rampDown), plans := [], testing := if p.testing = 0 then 0 else 2 }

/-- Is every desk at its floor? -/
def Block.atFloors (b : Block) : Bool := b.rat.desks.all fun kv => decide (kv.2.level = kv.2.floor)

/-! ### JOBs as requesters -/

/-- The class of a thread's work (R71): a JOB's is 1. -/
def jobClass : Nat := 1

/-- The pods of a field that a JOB's cores lie in (72 cores to a pod). -/
def Job.pods (j : Job) : List Nat := (List.range 4).filter fun p => (List.range 72).any fun i => bitAt j.cores (72 * p + i)

/-- A core's thread as a requester: engine 0 RATION.REQ, 1 the core's wide mode, 2 the pod's wake (R75, R209). -/
def threadAsker (core thr : Nat) : Asker := ⟨core, thr, 0⟩
def wideAsker (core : Nat) : Asker := ⟨core, 0xFF, 1⟩
def wakeAsker (pod : Nat) : Asker := ⟨72 * pod, 0xFF, 2⟩

end Sys2Proof.Machine
end

