-- ==== Sys2Proof/Machine/Memory.lean ====
section
/-! DEFINITION. The global address space (R87, R88, R116) and the bytes behind it: poison words (R152, R153), codewords,
the codes (R149), and flip masks (R165). -/
namespace Sys2Proof.Machine

/-! ### Addresses (R87) -/

/-- Where a global address lies. -/
inductive Place where
  | ownCore (off : Nat)
  | local_ (f core off : Nat)
  | sram (f bank off : Nat)
  | dram (f off : Nat)
  | unified (f granule off : Nat)
  | device (off : Nat)
  | unmapped
deriving DecidableEq, Repr

def localBase : Nat := 0x0000040000000000
def sramBase : Nat := 0x0000080000000000
def dramBase : Nat := 0x0000100000000000
def unifiedBase : Nat := 0x0001000000000000
def deviceBase : Nat := 0x0002000000000000

/-- The place of an address (R87). -/
def place (a : Nat) : Place :=
  if a < 0x40000 then .ownCore a
  else if localBase ≤ a ∧ a < localBase + 96 * 0x10000000 then
    let o := (a - localBase) % 0x10000000
    if o / 0x40000 < 288 then .local_ ((a - localBase) / 0x10000000) (o / 0x40000) (o % 0x40000) else .unmapped
  else if sramBase ≤ a ∧ a < sramBase + 96 * 0x10000000 then
    let o := (a - sramBase) % 0x10000000
    if o / 0x400000 < 24 then .sram ((a - sramBase) / 0x10000000) (o / 0x400000) (o % 0x400000) else .unmapped
  else if dramBase ≤ a ∧ a < dramBase + 96 * 0x1000000000 then
    let o := (a - dramBase) % 0x1000000000
    if o < 0x800000000 then .dram ((a - dramBase) / 0x1000000000) o else .unmapped
  else if a / 2 ^ 48 = 1 then
    if bitsOf a 40 8 < 96 then .unified (bitsOf a 40 8) (bitsOf a 15 25) (bitsOf a 0 15) else .unmapped
  else if deviceBase ≤ a ∧ (a - deviceBase < 0x4000000 ∨ (0x10000000 ≤ a - deviceBase ∧ a - deviceBase < 0x10000000 + 64 * 4096)) then
    .device (a - deviceBase)
  else .unmapped

/-- The physical address of a byte of a core's local memory. -/
def localAddr (f core off : Nat) : Nat := localBase + f * 0x10000000 + core * 0x40000 + off

/-- The physical address of a 32 KiB frame: tier 1 SRAM, tier 2 DRAM (R90). -/
def frameAddr (f tier frame : Nat) : Nat :=
  if tier = 1 then sramBase + f * 0x10000000 + frame * 0x8000 else dramBase + f * 0x1000000000 + frame * 0x8000

/-- The unified address of a granule (R88). -/
def granuleAddr (f g : Nat) : Nat := unifiedBase + f * 2 ^ 40 + g * 0x8000

/-- Is a physical address in a DRAM window? -/
def isDram (p : Nat) : Bool := decide (dramBase ≤ p) && decide (p < unifiedBase)

/-- The field of a physical address. -/
def physField (p : Nat) : Nat :=
  if isDram p then (p - dramBase) / 0x1000000000
  else if sramBase ≤ p then (p - sramBase) / 0x10000000 else (p - localBase) / 0x10000000

/-- The channel of a DRAM address (R116). -/
def dramChan (p : Nat) : Nat := bitsOf p 15 5

/-- The row of a DRAM address. -/
def dramRow (p : Nat) : Nat := bitsOf (p - dramBase) 20 15 % 32768

/-- The bank of a DRAM address: 4 BG + BA (R116). -/
def dramBank (p : Nat) : Nat := 4 * bitsOf p 7 2 + bitsOf p 9 2

/-- The memory of a physical address: 0 DRAM, 1 SRAM, 2 core-local (R168). -/
def memOf (p : Nat) : Nat := if isDram p then 0 else if sramBase ≤ p then 1 else 2

/-- The unit of a physical address: channel, bank or thread core. -/
def unitOf (p : Nat) : Nat :=
  if isDram p then dramChan p
  else if sramBase ≤ p then (p - sramBase) % 0x10000000 / 0x400000 else (p - localBase) % 0x10000000 / 0x40000

/-- The bytes of the code word at an address (R149): 32 in DRAM, 8 elsewhere. -/
def wordBytes (p : Nat) : Nat := if isDram p then 32 else 8

/-- The address of its code word. -/
def wordOf (p : Nat) : Nat := p / wordBytes p * wordBytes p

/-! ### Banks and caches (R129, R130) -/

/-- The mode of an SRAM bank: 0 SCRATCH, 1 CACHE, 2 TRAY. -/
def Block.bankMode (b : Block) (f bank : Nat) : Nat :=
  if bank < 16 then bitsOf (b.fget (F.bankMode0 f)) (2 * bank) 2 else bitsOf (b.fget (F.bankMode1 f)) (2 * (bank - 16)) 2

def Block.bankReady (b : Block) (f bank : Nat) : Bool := bitAt ((b.fieldSt f).shown (b.fieldSt f).banks) bank

/-- The ready CACHE banks of a pod. -/
def Block.cacheBanks (b : Block) (f pod : Nat) : List Nat :=
  ((List.range 6).map (6 * pod + ·)).filter fun k => b.bankReady f k && decide (b.bankMode f k = 1)

/-- Has a pod a shared cache? -/
def Block.podCached (b : Block) (f pod : Nat) : Bool := !(b.cacheBanks f pod).isEmpty

/-! ### Bytes -/

-- Log entry 5 (DESIGN CHOICE).
/-- Write bytes into the memory itself. -/
def MemPart.put (m : MemPart) (p : Nat) : List Byte → MemPart
  | [] => m
  | x :: xs => MemPart.put { m with bytes := sset (fun _ => 0) m.bytes p x } (p + 1) xs

/-- Write a poison word over a word of the memory (R152): its data bytes are 0. -/
def MemPart.poisonWord (m : MemPart) (p : Nat) : MemPart :=
  let w := wordOf p
  let m1 := m.put w (List.replicate (wordBytes p) 0)
  { m1 with poison := sset (fun _ => false) m1.poison w true, bad := sset (fun _ => 0) m1.bad w 0 }

/-- Write data into one word of the memory: a partial write to a poisoned word leaves it poisoned and is dropped; a write
that covers the word replaces the poison (R153). -/
def MemPart.putWord (m : MemPart) (p : Nat) (xs : List Byte) : MemPart :=
  let w := wordOf p
  let whole := decide (p = w) && decide (xs.length = wordBytes p)
  if sget (fun _ => false) m.poison w && !whole then m
  else
    let m1 := m.put p xs
    { m1 with poison := sset (fun _ => false) m1.poison w false, bad := sset (fun _ => 0) m1.bad w 0 }

/-! ### The codes (R149) -/

/-- What the decoder makes of a codeword. -/
inductive Decoded where
  | clean
  | corrected
  | lost
  /-- beyond the code: delivered as if corrected, with other data -/
  | wrong
  | poison
deriving DecidableEq, Repr

/-- The symbols or bits of an error pattern that are wrong. -/
def badUnits (dram : Bool) (pattern : Nat) : Nat :=
  if dram then ((List.range 36).filter fun j => bitsOf pattern (8 * j) 8 ≠ 0).length else popCount pattern 72

/-- The lowest wrong bit of a pattern. -/
def lowestBit (pattern : Nat) : Nat := ((List.range 288).find? (bitAt pattern)).getD 0

-- Log entries 40 (DEDUCED), 216 (DESIGN CHOICE).
/-- The lane that a correction counts against: its lowest wrong bit's; symbol j travels on lanes 4j to 4j + 3, a beat on each group of four
bits (R138). -/
def laneOf (pattern : Nat) : Nat := 4 * (lowestBit pattern / 8) + lowestBit pattern % 4

-- Log entry 40 (DEDUCED).
/-- Decode the codeword at an address. -/
def Block.decodeAt (b : Block) (w : Nat) : Decoded :=
  let pattern := sget (fun _ => 0) b.mem.bad w
  let n := badUnits (isDram w) pattern
  let corrects := if isDram w ∧ b.fget F.dramConfigEccMode = 1 then 2 else 1
  let detects := if isDram w then (if b.fget F.dramConfigEccMode = 1 then 2 else 3) else 2
  if sget (fun _ => false) b.mem.poison w then .poison
  else if n = 0 then .clean
  else if n ≤ corrects then .corrected
  else if n ≤ detects then .lost
  else if Config.miscorrects w b.free then .wrong else .lost

-- Log entries 38 (DEDUCED), 219 (DESIGN CHOICE).
/-- Soft errors strike a codeword: a pattern is XORed into it. -/
def Block.strike (b : Block) (w pattern : Nat) : Block :=
  let width := if isDram w then 288 else 72
  if pattern % 2 ^ width = 0 then b
  else { b with mem := { b.mem with bad := supd (fun _ => 0) b.mem.bad w fun x => x ^^^ (pattern % 2 ^ width) } }

/-- Soft errors strike a codeword's data bits and, above them, its check bits (R149). -/
def Block.strikeCode (b : Block) (w data check : Nat) : Block :=
  let width := if isDram w then 256 else 64
  b.strike w (data % 2 ^ width + check * 2 ^ width)

/-! ### Flip masks (R165) -/

/-- The error pattern of an armed mask: for DRAM a byte of pattern on each selected symbol, else the mask's 72 bits. -/
def Block.flipPattern (b : Block) (dram : Bool) : Nat :=
  let mask := b.fget F.flipMask0 + 2 ^ 32 * b.fget F.flipMask1 + 2 ^ 64 * b.fget F.flipMask2
  if dram then packBits ((List.range 36).map fun j => (8 * j, 8, if bitAt mask j then bitsOf mask 36 8 else 0)) else mask

def Block.flipAddr (b : Block) : Nat := b.fget F.flipAddrLo + 2 ^ 32 * b.fget F.flipAddrHi

/-- Is a flip mask armed for the word? -/
def Block.flipArmed (b : Block) (p : Nat) : Bool :=
  decide (b.fget F.flipCtrlArm = 1) && decide (wordOf b.flipAddr = wordOf p)

/-- The mask is XORed into the word just written (R165). -/
def Block.flipApply (b : Block) (p : Nat) : Block :=
  let w := wordOf p
  let b1 : Block := { b with mem := { b.mem with bad := sset (fun _ => 0) b.mem.bad w (b.flipPattern (isDram p)) } }
  (((b1.fset F.flipCtrlArm 0).fset F.flipCtrlApplied 1).bump F.flipsApplied).raise 0x010A (physField p) 0xFF
    (packBits [(0, 8, memOf p), (16, 16, unitOf p), (64, 64, w)])

/-- Write data into one word of the memory, an armed mask applied. -/
def Block.putWord (b : Block) (p : Nat) (xs : List Byte) : Block :=
  let whole := decide (p = wordOf p) && decide (xs.length = wordBytes p)
  if sget (fun _ => false) b.mem.poison (wordOf p) && !whole then b
  else
    let b1 : Block := { b with mem := b.mem.putWord p xs }
    if b.flipArmed p then b1.flipApply p else b1

/-- Write bytes into the memory, word by word (the fuel is the number of bytes). -/
def Block.putBytes (b : Block) (p : Nat) : Nat → List Byte → Block
  | 0, _ => b
  | n + 1, xs =>
    if xs.isEmpty then b
    else
      let k := wordBytes p - p % wordBytes p
      Block.putBytes (b.putWord p (xs.take k)) (p + k) n (xs.drop k)

end Sys2Proof.Machine
end

