-- ==== Sys2Proof/Machine/Regulator.lean ====
section
/-! DEFINITION. The pod controllers: what an access costs a channel (R118), the occupancy limits (R123, R127, R135), and the camps'
token buckets (R125, R126). -/
namespace Sys2Proof.Machine

/-! ### Channels and controllers -/

/-- A channel's key. -/
def chanKey (f n : Nat) : Nat := 32 * f + n

def Block.chan (b : Block) (f n : Nat) : ChanSt := sget (fun _ => ChanSt.init) b.dram.chans (chanKey f n)

def Block.setChan (b : Block) (f n : Nat) (x : ChanSt) : Block :=
  { b with dram := { b.dram with chans := sset (fun _ => ChanSt.init) b.dram.chans (chanKey f n) x } }

def Block.stack (b : Block) (f : Nat) : StackSt := sget (fun _ => StackSt.init) b.dram.stackSts f

def Block.setStack (b : Block) (f : Nat) (x : StackSt) : Block :=
  { b with dram := { b.dram with stackSts := sset (fun _ => StackSt.init) b.dram.stackSts f x } }

def ctlKey (f p : Nat) : Nat := 4 * f + p

def Block.ctl (b : Block) (f p : Nat) : CtlSt := sget (fun _ => CtlSt.init) b.dram.ctls (ctlKey f p)

def Block.setCtl (b : Block) (f p : Nat) (x : CtlSt) : Block :=
  { b with dram := { b.dram with ctls := sset (fun _ => CtlSt.init) b.dram.ctls (ctlKey f p) x } }

def podChans (p : Nat) : List Nat := (List.range 8).map (8 * p + ·)

-- Log entry 46 (DEDUCED).
/-- The pod controller as a requester: engine 0 its burst mode, engine 1 its refresh burst (R40, R124). -/
def ctlAsker (p engine : Nat) : Asker := ⟨0x1C0 + 8 * p, 0xFF, engine⟩

-- Log entry 46 (DEDUCED).
/-- Does the controller run in burst mode (R123)? -/
def Block.bursting (b : Block) (f p : Nat) : Bool := b.covers f (ctlAsker p 0) 32

-- Log entry 44 (DEDUCED).
/-- Does a DRAM address answer as dark (R136, R137)? -/
def Block.darkAt (b : Block) (p : Nat) : Bool :=
  isDram p && (decide ((b.chan (physField p) (dramChan p)).state = 3) || decide ((b.stack (physField p)).state = 3) ||
    decide ((b.stack (physField p)).state = 4))

/-! ### What an access costs (R118) -/

/-- Cut a run at the borders of 128-byte lines (the fuel is one more than the lines it touches). -/
def segments (p n : Nat) : Nat → List (Nat × Nat)
  | 0 => []
  | k + 1 => if n = 0 then [] else let m := min n (128 - p % 128); (p, m) :: segments (p + m) (n - m) k

-- Log entry 68 (DEDUCED).
def segs (p n : Nat) : List (Nat × Nat) := segments p n (n / 128 + 2)

-- Log entry 211 (DESIGN CHOICE).
/-- How an access within one line is carried without a cache: bursts and narrow slots. -/
def carried (read : Bool) (p n : Nat) : Nat × Nat :=
  if read then (if p % 32 + n ≤ 32 then (0, 1) else (1, 0))
  else if n = 128 then (1, 0)
  else
    let subs := (List.range 4).filter fun i => decide (32 * i < p % 128 + n) && decide (p % 128 < 32 * i + 32)
    (0, sumOf (subs.map fun i => if p % 128 ≤ 32 * i ∧ 32 * i + 32 ≤ p % 128 + n then 1 else 2))

/-! ### Occupancy (R118, R123, R127, R135) -/

/-- The occupancy limit of a controller in units, the lowest that applies (R127). A stack is at 5 while an operation of its channel queues
is served in GRACE (R136). -/
def Block.occLimit (b : Block) (f p : Nat) : Nat :=
  let mode := match b.grantOf f (ctlAsker p 0) with
    | some g => 16 * g.k
    | none => 64
  let heat := match (b.stack f).state with | 2 => 128 | 3 | 5 => 32 | _ => 256
  min mode heat

-- Log entry 215 (DESIGN CHOICE).
/-- Has a channel room for one more operation in the coming µs: is neither its data bus nor its narrow path taken beyond it? -/
def Block.chanRoom (b : Block) (f n : Nat) : Bool :=
  let c := b.chan f n
  decide (c.busy < 256 * (b.fab.time + 1000)) && decide (c.narrow < b.fab.time + 1000)

-- Log entry 215 (DESIGN CHOICE).
/-- Bursts and narrow slots pass over a channel's bus, each taking its share of the time that the limit leaves. -/
def Block.occupy (b : Block) (f n bursts narrow : Nat) : Block :=
  if bursts + narrow = 0 then b
  else
    let c := b.chan f n
    b.setChan f n { c with
      busy := max c.busy (256 * b.fab.time) + cdiv (512 * (128 * bursts + 32 * narrow)) (max 1 (b.occLimit f (n / 8)))
      narrow := if narrow = 0 then c.narrow else max c.narrow b.fab.time + narrow }

/-- Bursts and narrow slots are served by a channel and counted (R118). -/
def Block.served (b : Block) (f n bursts narrow : Nat) : Block :=
  ((b.count (F.bursts f n) bursts).count (F.narrow f n) narrow).occupy f n bursts narrow

/-! ### The token buckets (R125 to R127) -/

/-- A GUARANTEE or CAP as it acts (R127): first the dark channels' share, then the limit's. -/
def scaled (v ready limit : Nat) : Nat :=
  let u := if ready < 8 then v * ready / 8 else v
  if limit < 225 then u * limit / 225 else u

def Block.podReady (b : Block) (f p : Nat) : Nat := ((podChans p).filter fun n => decide ((b.chan f n).state ≠ 3)).length

-- Log entry 175 (DEDUCED).
/-- GUARANTEE in force (R126). -/
def Block.guarantee (b : Block) (c : Nat) : Nat := sget guarDefault b.dram.guar c

/-- CAP in force: above 256 as 256, and never below GUARANTEE (R125, R146). -/
def Block.capUnits (b : Block) (c : Nat) : Nat := max (min 256 (b.inForce (F.regCampACap c))) (b.guarantee c)

-- Log entry 36 (DEDUCED).
/-- A bucket's depth in bytes. -/
def Block.depthBytes (b : Block) (c : Nat) : Nat := 1024 * max 4 (b.inForce (F.regCampBDepthKib c))

def bucketKey (f p c : Nat) : Nat := 16 * ctlKey f p + c

/-- Buckets of one depth as those of another hold them: the tokens stay, up to the new depth. -/
def Bucket.atDepth (x : Bucket) (d : Nat) : Bucket :=
  if x.depth = 0 then ⟨0, 0, d⟩ else ⟨x.guarantee + d - x.depth, x.cap + d - x.depth, d⟩

/-- A camp's buckets at a controller, at the depth in force. -/
def Block.bucket (b : Block) (f p c : Nat) : Bucket :=
  (sget (fun _ => Bucket.init) b.dram.buckets (bucketKey f p c)).atDepth (b.depthBytes c)

/-- Buckets that are full are listed no longer. -/
def Bucket.norm (x : Bucket) : Bucket := if x.guarantee = 0 ∧ x.cap = 0 then Bucket.init else x

def Block.setBucket (b : Block) (f p c : Nat) (x : Bucket) : Block :=
  { b with dram := { b.dram with buckets := sset (fun _ => Bucket.init) b.dram.buckets (bucketKey f p c) x.norm } }

/-- One µs refills every bucket at the rate in force in it: 4 bytes per ns and unit. -/
def Block.refill (b : Block) : Block :=
  b.dram.buckets.foldl (fun b kv =>
    let f := kv.1 / 64
    let p := kv.1 / 16 % 4
    let c := kv.1 % 16
    let x := b.bucket f p c
    let rate (v : Nat) : Nat := 4000 * scaled v (b.podReady f p) (b.occLimit f p)
    b.setBucket f p c ⟨x.guarantee - rate (b.guarantee c), x.cap - rate (b.capUnits c), x.depth⟩) b

-- Log entry 36 (DEDUCED).
/-- The tier in which an operation of some bytes is eligible: 0, 1, or nothing (R125). One larger than a bucket needs a full one. -/
def Block.covered (b : Block) (f p c bytes : Nat) : Option Nat :=
  let x := b.bucket f p c
  let n := min bytes x.depth
  if x.guarantee + n ≤ x.depth then some 0 else if x.cap + n ≤ x.depth then some 1 else none

-- Log entries 36 (DEDUCED), 37 (DESIGN CHOICE).
/-- Spend an operation's tokens, from its tier's bucket and from the cap bucket; its camp is the one that its tier served last. -/
def Block.spend (b : Block) (f p c bytes : Nat) : Block :=
  let tier := (b.covered f p c bytes).getD 1
  let x := b.bucket f p c
  let b1 := b.setBucket f p c { x with guarantee := x.guarantee + (if tier = 0 then bytes else 0), cap := x.cap + bytes }
  let y := b1.ctl f p
  b1.setCtl f p (if tier = 0 then { y with last0 := c } else { y with last1 := c })

/-- A camp's work passes over a channel: its tokens are spent, and it is counted (R128). -/
def Block.charge (b : Block) (camp f n bursts narrow : Nat) : Block :=
  if bursts + narrow = 0 then b else (b.spend f (n / 8) camp (128 * bursts + 32 * narrow)).served f n bursts narrow

end Sys2Proof.Machine
end

