-- ==== Sys2Proof/Machine/Cache.lean ====
section
/-! DEFINITION. The pods' shared caches (R130, R131), and the bytes of a physical address as its readers and writers meet them. -/
namespace Sys2Proof.Machine

/-! ### Lines, sets and ways (R130) -/

def MemPart.line (m : MemPart) (p : Nat) : Option Line := if isDram p then sget (fun _ => none) m.lines (p / 128) else none

-- Log entry 214 (DESIGN CHOICE).
/-- The number of a DRAM address's 128-byte line among those of its pod. -/
def podLine (p : Nat) : Nat := (p - dramBase) % 2 ^ 36 / 2 ^ 20 * 2 ^ 11 + (p - dramBase) % 2 ^ 18 / 128

-- Log entry 214 (DESIGN CHOICE).
/-- The set of a DRAM address: a CACHE bank holds 2,048 sets of 16 lines, and consecutive lines of the pod fall in consecutive sets. -/
def Block.cacheSet (b : Block) (p : Nat) : Nat :=
  podLine p % max 1 (2048 * (b.cacheBanks (physField p) (dramChan p / 8)).length)

/-- A set's key: its controller's, and its number. -/
def Block.setKey (b : Block) (p : Nat) : Nat := 2 ^ 14 * ctlKey (physField p) (dramChan p / 8) + b.cacheSet p

-- Log entry 214 (DESIGN CHOICE).
/-- The SRAM address at which a line's way holds a byte of a DRAM address. -/
def Block.wayAddr (b : Block) (p way : Nat) : Nat :=
  let s := b.cacheSet p
  let bank := (b.cacheBanks (physField p) (dramChan p / 8)).getD (s / 2048) 0
  sramBase + physField p * 0x10000000 + bank * 0x400000 + (s % 2048 * 16 + way) * 128 + p % 128

/-- The lines of a DRAM address's set: (address over 128, line). -/
def Block.setLines (b : Block) (p : Nat) : List (Nat × Line) :=
  b.mem.lines.filterMap fun kv => match kv.2 with
    | some l => if b.setKey (128 * kv.1) = b.setKey p then some (kv.1, l) else none
    | none => none

-- Log entry 214 (DESIGN CHOICE).
/-- The pseudo-LRU tree of 16 ways after a use of one: node n has the children 2n and 2n + 1, and each node on the way points away. -/
def plruTouch (t way : Nat) : Nat :=
  ((List.range 4).foldl (fun (x : Nat × Nat) i =>
    let right := bitAt way (3 - i)
    (setBit x.1 x.2 (!right), 2 * x.2 + (if right then 1 else 0))) (t, 1)).1

-- Log entry 214 (DESIGN CHOICE).
/-- The way that the tree points at. -/
def plruVictim (t : Nat) : Nat := (List.range 4).foldl (fun n _ => 2 * n + (if bitAt t n then 1 else 0)) 1 - 16

/-- A way of a line's set has been used. -/
def Block.useWay (b : Block) (p way : Nat) : Block :=
  { b with mem := { b.mem with plru := supd (fun _ => 0) b.mem.plru (b.setKey p) fun t => plruTouch t way } }

/-- The way in which a new line of a set stands, and the address of the line that it replaces there. -/
def Block.wayFor (b : Block) (p : Nat) : Nat × Option Nat :=
  let ls := b.setLines p
  match (List.range 16).find? fun w => !(ls.any fun x => x.2.way == w) with
  | some w => (w, none)
  | none =>
    let w := plruVictim (sget (fun _ => 0) b.mem.plru (b.setKey p))
    (w, (ls.find? fun x => x.2.way == w).map fun x => 128 * x.1)

/-! ### Bytes -/

-- Log entry 5 (DESIGN CHOICE).
/-- What a byte reads as: from the cache's line where one holds it, else from the memory; unlisted bytes read 0. -/
def MemPart.byte (m : MemPart) (p : Nat) : Byte :=
  match m.line p with
  | some l => BitVec.ofNat 8 (bitsOf l.data (8 * (p % 128)) 8)
  | none => sget (fun _ => 0) m.bytes p

/-- Does the word that holds a byte hold poison? -/
def MemPart.poisoned (m : MemPart) (p : Nat) : Bool :=
  match m.line p with
  | some l => bitAt l.poison (p % 128 / 32)
  | none => sget (fun _ => false) m.poison (wordOf p)

/-- The code word that holds a byte: a cached line's in its bank, else the memory's own. -/
def Block.codeAt (b : Block) (p : Nat) : Nat :=
  match b.mem.line p with
  | some l => wordOf (b.wayAddr p l.way)
  | none => wordOf p

/-- A byte as a reader gets it: 0 at a dark channel, and a free value from a miscorrected codeword (R149). -/
def Block.readByte (b : Block) (p : Nat) : Byte :=
  if b.darkAt p then 0 else if b.decodeAt (b.codeAt p) = .wrong then Config.wrongByte p b.free else b.mem.byte p

/-- The bytes of a run as a reader gets them. -/
def Block.readBytes (b : Block) (p n : Nat) : List Byte := (List.range n).map fun i => b.readByte (p + i)

/-- Does a run of bytes hold poison (a dark channel answers POISON)? -/
def Block.poisonIn (b : Block) (p n : Nat) : Bool :=
  (List.range n).any fun i => b.darkAt (p + i) || b.mem.poisoned (p + i)

/-- The poisoned runs of `n` bytes at a physical place, word by word: (offset, bytes). -/
def Block.poisonRuns (b : Block) (p n : Nat) : List (Nat × Nat) :=
  let w := wordBytes p
  (List.range (cdiv (p % w + n) w)).filterMap fun i =>
    let s := max p (wordOf p + w * i)
    let e := min (p + n) (wordOf p + w * i + w)
    if b.darkAt s || b.mem.poisoned s then some (s - p, e - s) else none

/-! ### Lines come and go (R130, R131) -/

def Block.setLine (b : Block) (p : Nat) (l : Option Line) : Block :=
  { b with mem := { b.mem with lines := sset (fun _ => none) b.mem.lines (p / 128) l } }

/-- The codewords of a line's bank that hold some of its bytes are written: their errors go, and an armed mask is applied (R165). -/
def Block.lineWords (b : Block) (p way n : Nat) : Block :=
  (List.range (cdiv (p % 8 + n) 8)).foldl (fun b i =>
    let w := wordOf (b.wayAddr p way) + 8 * i
    let b1 : Block := { b with mem := { b.mem with bad := sset (fun _ => 0) b.mem.bad w 0 } }
    if b1.flipArmed w then b1.flipApply w else b1) b

/-- Write a line's sub-blocks back by one burst: its data, and poison words where it holds poison. -/
def Block.writeBack (b : Block) (p : Nat) (l : Line) : Block :=
  let a := p / 128 * 128
  let f := physField p
  let xs := b.readBytes a 128
  let b1 := (List.range 4).foldl (fun b i =>
    if bitAt l.poison i then { b with mem := b.mem.poisonWord (a + 32 * i) }
    else b.putWord (a + 32 * i) ((xs.drop (32 * i)).take 32)) (b.setLine p none)
  (b1.bump (F.writebacks f)).served f (dramChan p) 1 0

/-- A line leaves the cache: written back when dirty. -/
def Block.evictLine (b : Block) (p : Nat) : Block :=
  match b.mem.line p with
  | some l => if l.dirty then b.writeBack p l else b.setLine p none
  | none => b

/-- A line is dropped without a write-back (R131, R137). -/
def Block.dropLine (b : Block) (p : Nat) : Block :=
  match b.mem.line p with
  | some _ => (b.setLine p none).bump (F.linesDropped (physField p))
  | none => b

/-- A line is allocated: in a way that stands free, else in the one that the pseudo-LRU bits choose, whose line leaves first. -/
def Block.allocLine (b : Block) (p : Nat) (l : Line) : Block :=
  let x := b.wayFor p
  let b1 := match x.2 with
    | some q => b.evictLine q
    | none => b
  ((b1.setLine p (some { l with way := x.1 })).lineWords (p / 128 * 128) x.1 128).useWay p x.1

/-- The bytes of a sub-block that a store covers, merged into a line; a sub-block covered in part keeps its poison and
drops the data, one covered whole loses the poison (R153). -/
def Line.merge (l : Line) (o : Nat) : List Byte → Line
  | [] => l
  | x :: xs =>
    let i := o / 32
    let whole := decide (o % 32 = 0) && decide (32 ≤ (x :: xs).length)
    let l1 : Line := if bitAt l.poison i ∧ o % 32 = 0 ∧ whole = true then { l with poison := setBit l.poison i false } else l
    let l2 : Line := if bitAt l1.poison i then l1
      else { l1 with dirty := true, data := l1.data - bitsOf l1.data (8 * o) 8 * 2 ^ (8 * o) + x.toNat * 2 ^ (8 * o) }
    Line.merge l2 (o + 1) xs

/-- A miss fills a line by a burst. -/
def Block.fill (b : Block) (p : Nat) : Block :=
  let a := p / 128 * 128
  let bad := packBits ((List.range 4).map fun i => (i, 1, if sget (fun _ => false) b.mem.poison (a + 32 * i) then 1 else 0))
  (b.allocLine p ⟨false, ofBytesLE (b.readBytes a 128), bad, 0⟩).bump (F.cacheMisses (physField p))

/-- Bytes are merged into a line that stands in the cache; it is dirty then. -/
def Block.mergeLine (b : Block) (p : Nat) (xs : List Byte) : Block :=
  match b.mem.line p with
  | some l => ((b.setLine p (some { l.merge (p % 128) xs with dirty := true })).lineWords p l.way xs.length).useWay p l.way
  | none => b

/-- Store bytes within one line through the cache: a hit merges; a miss allocates, filled unless the store covers the whole line. -/
def Block.storeLine (b : Block) (p : Nat) (xs : List Byte) : Block :=
  let f := physField p
  if (b.mem.line p).isSome then (b.mergeLine p xs).bump (F.cacheHits f)
  else if xs.length = 128 then ((b.allocLine p ⟨true, 0, 0, 0⟩).mergeLine p xs).bump (F.cacheMisses f)
  else (b.fill p).mergeLine p xs

/-! ### Accesses that do not allocate (R130, R137) -/

/-- The lines of a bulk access are looked up: a hit or a miss each, an answer at a dark channel. -/
def Block.lookBulk (b : Block) (p n : Nat) : Block :=
  (segs p n).foldl (fun b s =>
    let f := physField s.1
    if b.darkAt s.1 then b.bump (F.darkAccesses f (dramChan s.1))
    else if isDram s.1 = false ∨ b.podCached f (dramChan s.1 / 8) = false then b
    else match b.mem.line s.1 with
      | some l => (b.useWay s.1 l.way).bump (F.cacheHits f)
      | none => b.bump (F.cacheMisses f)) b

/-- What a bulk access costs its channels: (channel's first address, bursts, narrow slots) of each line that it touches. -/
def Block.bulkSlots (b : Block) (read : Bool) (p n : Nat) : List (Nat × Nat × Nat) :=
  (segs p n).filterMap fun s =>
    if isDram s.1 = false ∨ b.darkAt s.1 = true ∨ (read = true ∧ (b.mem.line s.1).isSome = true) then none
    else
      let k := carried read s.1 s.2
      some (s.1, k.1, k.2)

/-- A camp's bulk access passes its channels, each once, and the regulators. -/
def Block.chargeBulk (b : Block) (camp : Nat) (read : Bool) (p n : Nat) : Block :=
  let xs := b.bulkSlots read p n
  ((xs.map fun x => (physField x.1, dramChan x.1)).dedup).foldl (fun b c =>
    let mine := xs.filter fun x => physField x.1 == c.1 && dramChan x.1 == c.2
    b.charge camp c.1 c.2 (sumOf (mine.map (·.2.1))) (sumOf (mine.map (·.2.2)))) b

-- Log entry 212 (DESIGN CHOICE).
/-- A write of a DMA element, move or DRAIN: a line that holds the place is invalidated after its data merges, and the
bytes go to the memory (R130). -/
def Block.storeBulk (b : Block) (p : Nat) (xs : List Byte) : Block :=
  let b0 := b.lookBulk p xs.length
  if b.darkAt p then b0
  else
    let b1 := (List.range (cdiv (p % 128 + xs.length) 128)).foldl (fun b i => b.evictLine (p / 128 * 128 + 128 * i)) b0
    b1.putBytes p xs.length xs

/-- Write poison over the words that a run of bytes touches (R153). -/
def Block.poisonBytes (b : Block) (p n : Nat) : Block :=
  if b.darkAt p then b
  else
    (List.range (cdiv (p % wordBytes p + n) (wordBytes p))).foldl (fun b i =>
      let w := wordOf p + wordBytes p * i
      match b.mem.line w with
      | some l => b.setLine w (some { l with dirty := true, poison := setBit l.poison (w % 128 / 32) true })
      | none => { b with mem := b.mem.poisonWord w }) b

/-- Bytes land at a physical place by a bulk write, their poisoned runs (offset, bytes) as poison words (R153). -/
def Block.landBytes (b : Block) (p : Nat) (xs : List Byte) (bad : List (Nat × Nat)) : Block :=
  bad.foldl (fun b r => b.poisonBytes (p + r.1) r.2) (b.storeBulk p xs)

/-- Copy `n` bytes as a bulk read and a bulk write, poison words with them (R153). -/
def Block.copyBytes (b : Block) (dst src n : Nat) : Block :=
  (b.lookBulk src n).tick.landBytes dst (b.readBytes src n) (b.poisonRuns src n)

/-! ### Plain stores -/

/-- Store bytes at a physical address within one 128-byte line or one word: dropped at a dark channel, through the shared
cache where the pod has one, else into the memory. -/
def Block.storePart (b : Block) (p : Nat) (xs : List Byte) : Block :=
  if b.darkAt p then b.bump (F.darkAccesses (physField p) (dramChan p))
  else if isDram p && b.podCached (physField p) (dramChan p / 8) then b.storeLine p xs
  else b.putBytes p xs.length xs

/-- Store bytes from a physical address on, line by line. -/
def Block.storeBytes (b : Block) (p : Nat) : Nat → List Byte → Block
  | 0, _ => b
  | n + 1, xs =>
    if xs.isEmpty then b
    else
      let k := 128 - p % 128
      Block.storeBytes (b.storePart p (xs.take k)) (p + k) n (xs.drop k)

/-- Drop every cached line of a frame (R131). -/
def Block.dropFrameLines (b : Block) (p : Nat) : Block :=
  (List.range 256).foldl (fun b i => b.dropLine (p + 128 * i)) b

end Sys2Proof.Machine
end

