-- ==== Sys2Proof/Machine/Models.lean ====
section
/-! DEFINITION. A loaded model's shape over the wafer: pairs, teams and fields (R252, R254, R255), its pool (R261, R552) and its
token log. -/
namespace Sys2Proof.Machine

/-- Frames per page by head dimension (R252). -/
def pageFrames (d : Nat) : Nat := d / 32

def Model.pf (m : Model) : Nat := pageFrames m.dim

/-- The KV heads of one layer that lie on this wafer (R255). -/
def Model.headsHere (m : Model) : Nat :=
  if m.layout = 1 then m.kvHeads else ((List.range m.kvHeads).filter fun h => h % m.sliceW = m.rank).length

/-- How many pairs lie on this wafer. -/
def Model.pairs (m : Model) : Nat := m.layers * m.headsHere

/-- Does a pair lie on this wafer (R255)? -/
def Model.pairHere (m : Model) (p : Nat) : Bool :=
  decide (p < m.layers * m.kvHeads) && (decide (m.layout = 1) || decide (p % m.kvHeads % m.sliceW = m.rank))

/-- A pair's rank among the wafer's pairs, in ascending pair number. -/
def Model.pairRank (m : Model) (p : Nat) : Nat :=
  if m.layout = 1 then p else (p / m.kvHeads) * m.headsHere + p % m.kvHeads / m.sliceW

/-- The wafer's pairs. -/
def Model.pairList (m : Model) : List Nat := (List.range (m.layers * m.kvHeads)).filter m.pairHere

/-- Does a row lie on this wafer (R255)? -/
def Model.rowHere (m : Model) (i : Nat) : Bool := decide (m.layout ≠ 1) || decide (i % m.sliceW = m.rank)

/-- The number of teams. -/
def Model.teams (m : Model) : Nat := 96 / m.team

/-- The field of a pair's page i (R254). -/
def Model.pageField (m : Model) (p i : Nat) : Nat :=
  let r := m.pairRank p
  (r % m.teams) * m.team + (i + r / m.teams) % m.team

/-- The pairs of a field's team. -/
def Model.teamPairs (m : Model) (f : Nat) : Nat := cdiv (m.pairs - f / m.team) m.teams

-- Log entry 73 (DEDUCED).
/-- The pages that a pool row takes in a field: the team's pairs spread over its fields (R261). -/
def Model.pagesPerRow (m : Model) (f : Nat) : Nat := if f / m.team < m.pairs then cdiv (m.teamPairs f) m.team else 0

-- Log entry 73 (DEDUCED).
/-- The pages that a model's pool of its rows is meant to have in a field. -/
def Model.poolAim (m : Model) (f : Nat) : Nat := m.rows * m.pagesPerRow f

/-- The granules per field of a token log for a number of rows: two entries of 4 bytes per pool position, spread over the 96
fields (R339, R552). -/
def logGranules (rows : Nat) : Nat := cdiv (cdiv (rows * 256 * 8) 96) 0x8000

/-- The bytes of a tray, D positions of 4d bytes (R262). -/
def Model.trayBytes (m : Model) : Nat := m.depth * 4 * m.dim

def Block.model? (b : Block) (c id : Nat) : Option Model := b.serve.models.find? fun m => m.camp == c && m.id == id

def Block.setModel (b : Block) (c id : Nat) (h : Model → Model) : Block :=
  { b with serve := { b.serve with models := b.serve.models.map fun m => if m.camp == c && m.id == id then h m else m } }

/-- The pages of a model in use or reserved ahead in a field. -/
def Block.pagesUsed (b : Block) (m : Model) (f : Nat) : Nat :=
  (b.page.pages.filter fun kv => decide (kv.1 / 2 ^ 20 = f) && match kv.2 with
    | some p => p.camp == m.camp && p.model == m.id
    | none => false).length

def poolKey (f camp model : Nat) : Nat := (16 * f + camp) * 2 ^ 16 + model

/-- The runs of a model's pool in a field, by their first frames (R261). -/
def Block.pool (b : Block) (m : Model) (f : Nat) : List Nat := sget (fun _ => []) b.page.pools (poolKey f m.camp m.id)

def Block.setPool (b : Block) (m : Model) (f : Nat) (l : List Nat) : Block :=
  { b with page := { b.page with pools := sset (fun _ => []) b.page.pools (poolKey f m.camp m.id) l } }

/-- The pages of a model's pool in a field. -/
def Block.poolPages (b : Block) (m : Model) (f : Nat) : Nat := (b.pool m f).length

/-- Does a frame of a field lie in a pool? -/
def Block.inPool (b : Block) (f n : Nat) : Bool :=
  b.serve.models.any fun m => (b.pool m f).any fun r => decide (r ≤ n) && decide (n < r + m.pf)

/-- A model's step-work models: may a request of a kind name it in its camp's phase (R348)? -/
def Block.phaseSt (b : Block) (c : Nat) : PhaseSt := sget (fun _ => PhaseSt.init) b.serve.phases c

/-- The class of a camp's step work: 0 for GENERATE, 1 otherwise (R71, R367). -/
def Block.stepClass (b : Block) (c : Nat) : Nat := if (b.phaseSt c).phase = 0 then 0 else 1

/-- The class of a JOB's work, or of a step kernel's (R71, R209). -/
def Block.workClass (b : Block) (j : Job) : Nat := if j.kernel then b.stepClass j.camp else jobClass

/-- The class of the work that a number names. -/
def Block.idClass (b : Block) (id : Nat) : Nat := ((b.tc.jobs.find? fun j => j.id == id).map b.workClass).getD jobClass

def Block.setPhase (b : Block) (c : Nat) (h : PhaseSt → PhaseSt) : Block :=
  { b with serve := { b.serve with phases := supd (fun _ => PhaseSt.init) b.serve.phases c h } }

end Sys2Proof.Machine
end

