-- ==== Sys2Proof/Machine/Tier.lean ====
section
/-! DEFINITION. Chapter 04: the tier directory: entries and objects (R90 to R94), frames and quotas (R98, R102, R131), hints
(R95 to R97), moves and victims (R98 to R101), streaming windows (R103), deadlines and substitutes (R104, R105), and dark
tiers (R106, R107, R111). -/
namespace Sys2Proof.Machine

/-! ### Entries, objects, frames -/

def dirKey (f g : Nat) : Nat := f * 2 ^ 25 + g
def objKey (f n : Nat) : Nat := f * 2 ^ 16 + n
def frameKey (f tier n : Nat) : Nat := (4 * f + tier) * 2 ^ 21 + n

/-- Directory size in granules (R113). -/
def Block.dirSize (b : Block) : Nat := 2 ^ max 17 (min 25 (b.fget F.tierConfigDirLog2))

/-- Is the directory enabled (R113)? -/
def Block.tierOn (b : Block) : Bool := b.boot.en.dram

def Block.dirEntry (b : Block) (f g : Nat) : DirEntry := sget (fun _ => DirEntry.init) b.tier.dir (dirKey f g)

def Block.setDir (b : Block) (f g : Nat) (e : DirEntry) : Block :=
  { b with tier := { b.tier with dir := sset (fun _ => DirEntry.init) b.tier.dir (dirKey f g) e } }

def Block.obj (b : Block) (f n : Nat) : TierObj := sget (fun _ => TierObj.init) b.tier.objs (objKey f n)

def Block.setObj (b : Block) (f n : Nat) (o : TierObj) : Block :=
  { b with tier := { b.tier with objs := sset (fun _ => TierObj.init) b.tier.objs (objKey f n) o } }

def Block.frame (b : Block) (f tier n : Nat) : FrameUse := sget (fun _ => FrameUse.init) b.tier.frames (frameKey f tier n)

def Block.setFrame (b : Block) (f tier n : Nat) (u : FrameUse) : Block :=
  { b with tier := { b.tier with frames := sset (fun _ => FrameUse.init) b.tier.frames (frameKey f tier n) u } }

/-- The objects of a field: (number, object). -/
def Block.fieldObjs (b : Block) (f : Nat) : List (Nat × TierObj) :=
  (b.tier.objs.filter fun kv => decide (kv.1 / 2 ^ 16 = f)).map fun kv => (kv.1 % 2 ^ 16, kv.2)

/-- The granules of a field with an entry: (granule, entry). -/
def Block.fieldDir (b : Block) (f : Nat) : List (Nat × DirEntry) :=
  (b.tier.dir.filter fun kv => decide (kv.1 / 2 ^ 25 = f)).map fun kv => (kv.1 % 2 ^ 25, kv.2)

/-- The cellar controller of a logical unit, and its channel (R171, R172). -/
def unitChan (u : Nat) : Nat := u % 128
def unitCc (u : Nat) : Nat := u % 128 / 16

def Block.cc (b : Block) (k : Nat) : CcSt := sget (fun _ => CcSt.init) b.cellar.ccs k

/-- Is the unit's channel dark (R189)? -/
def Block.unitDark (b : Block) (u : Nat) : Bool :=
  decide ((b.cc (unitCc u)).state = 2) || !bitAt (b.cc (unitCc u)).chans (u % 16)

/-! ### Capacity (R551, R553, R102) -/

-- Log entries 97 (DEDUCED), 172 (DEDUCED).
/-- The firmware reserve of a field in granules (R551). -/
def Block.reserve (b : Block) : Nat := 114688 - 2048 + b.dirSize / 2048

/-- The DRAM frames of a field that resets have retired (R162); frame n lies in row n / 32 of channel n mod 32. -/
def Block.retiredFrames (b : Block) (f : Nat) : List Nat :=
  let x := sget (fun _ => IntegField.init) b.integ.fields f
  (((x.fused ++ x.soft).filter fun r => r.retired && decide (r.mem = 0)).map fun r => 32 * r.place + r.unit).dedup

/-- The dark channels of a field that placement has taken account of (R28). -/
def Block.capDark (b : Block) (f : Nat) : Nat := sget (fun _ => 0) b.tier.capDark f

/-- Does a DRAM frame count as capacity: its channel not known dark (R28), its place below the reserve, and it not retired? -/
def Block.dramFrameOk (b : Block) (f n : Nat) : Bool :=
  decide (n < 1048576 - b.reserve) && !bitAt (b.capDark f) (n % 32) && !(b.retiredFrames f).contains n

/-- Does an SRAM frame exist: in a ready SCRATCH bank (R90)? -/
def Block.sramFrameOk (b : Block) (f n : Nat) : Bool :=
  decide (n < 3072) && b.bankReady f (n / 128) && decide (b.bankMode f (n / 128) = 0)

def Block.frameOk (b : Block) (f tier n : Nat) : Bool := if tier = 1 then b.sramFrameOk f n else b.dramFrameOk f n

/-- The frames of a tier of a field that exist, less the combine areas that loaded models hold in SCRATCH (R299). -/
def Block.framesIn (b : Block) (f tier : Nat) : Nat :=
  if tier = 1 then 128 * ((List.range 24).filter fun k => b.bankReady f k && decide (b.bankMode f k = 0)).length -
    sumOf (b.serve.models.map fun m => cdiv m.combineKib 32)
  else
    let up := ((List.range 32).filter fun n => !bitAt (b.capDark f) n).length
    up * (32768 - b.reserve / 32) - ((b.retiredFrames f).filter fun n => decide (n < 1048576 - b.reserve) && !bitAt (b.capDark f) (n % 32)).length

/-- The frames of a tier of a field in use, among those that still exist; for one camp, or for all. -/
def Block.framesUsed (b : Block) (f tier : Nat) (camp : Option Nat) : Nat :=
  (b.tier.frames.filter fun kv => decide (kv.1 / 2 ^ 21 = 4 * f + tier) && decide (kv.2.use ≠ 0) && decide (kv.2.use ≠ 5) &&
    b.frameOk f tier (kv.1 % 2 ^ 21) && match camp with | some c => decide (kv.2.owner = c + 1) | none => true).length

/-- The frames of a field that pools and token logs hold beyond the pages in use: for one camp, or for all. -/
def Block.poolSpare (b : Block) (f : Nat) (camp : Option Nat) : Nat :=
  sumOf ((b.serve.models.filter fun m => match camp with | some c => m.camp == c | none => true).map fun m =>
    sumOf ((b.pool m f).map fun r => ((List.range m.pf).filter fun i => decide ((b.frame f 2 (r + i)).use = 0)).length) + m.log)

/-- The copies of a camp's STREAM objects in DRAM of a field. -/
def Block.streamCopies (b : Block) (f c : Nat) : Nat :=
  ((b.fieldDir f).filter fun ge => decide (ge.2.camp = c) && decide (ge.2.hint = 3) && decide (ge.2.tierA = 2) &&
    (decide (ge.2.state = 4) || decide (ge.2.state = 5))).length

/-- Window frames reserved and not taken yet (R552). -/
def Block.windowsLeft (b : Block) (f c : Nat) : Nat := sget (fun _ => 0) b.tier.reserved (16 * f + c) - b.streamCopies f c

def Block.windowsLeftAll (b : Block) (f : Nat) : Nat := ((List.range 16).map (b.windowsLeft f)).foldl (· + ·) 0

/-- The camp's quota in a tier (R102, R471). -/
def Block.quota (b : Block) (c tier : Nat) : Nat := if tier = 1 then campSram b.camp.live c else campDram b.camp.live c

/-- The frames available to a camp in a tier of a field: free, not reserved by others, and within its quota (R553);
`window` says that the use is a window copy, which draws on the camp's own reservation. -/
def Block.available (b : Block) (f tier c : Nat) (window : Bool) : Nat :=
  let res := if tier = 2 then b.windowsLeftAll f else 0
  let own := if tier = 2 then b.windowsLeft f c else 0
  let free := b.framesIn f tier - b.framesUsed f tier none - res - (if tier = 2 then b.poolSpare f none else 0)
  let within := b.quota c tier - b.framesUsed f tier (some c) - own - (if tier = 2 then b.poolSpare f (some c) else 0)
  min free within + (if window then own else 0)

-- Log entry 27 (DESIGN CHOICE).
/-- May a frame be handed out: does it exist, free, in no pool (R261), and in a channel that answers? -/
def Block.frameFree (b : Block) (f tier n : Nat) : Bool :=
  b.frameOk f tier n && decide ((b.frame f tier n).use = 0) && (decide (tier ≠ 2) || !(b.inPool f n || b.darkAt (frameAddr f 2 n)))

/-! ### Handing out and freeing frames (R98, R131, R155) -/

/-- The memory with a frame's bytes, poison words and bad bits cleared. -/
def MemPart.clearFrame (m : MemPart) (p : Nat) : MemPart :=
  let out (k : Nat) : Bool := decide (k < p) || decide (p + 0x8000 ≤ k)
  { m with bytes := m.bytes.filter fun kv => out kv.1, poison := m.poison.filter fun kv => out kv.1,
           bad := m.bad.filter fun kv => out kv.1 }

/-- Write a whole frame; an armed flip mask inside it is applied (R165). -/
def Block.fillFrame (b : Block) (p : Nat) (xs : List Byte) : Block :=
  let b1 : Block := { b with mem := (b.mem.clearFrame p).put p xs }
  if b1.fget F.flipCtrlArm = 1 ∧ p ≤ b1.flipAddr ∧ b1.flipAddr < p + 0x8000 then b1.flipApply b1.flipAddr else b1

/-- A camp's element fills a whole frame (R128, R130). -/
def Block.fillFor (b : Block) (camp p : Nat) (xs : List Byte) : Block := ((b.lookBulk p 0x8000).chargeBulk camp false p 0x8000).fillFrame p xs

-- Log entry 48 (DEDUCED).
/-- Fill a frame with zeros, in DRAM by 256 bursts; an armed flip mask inside it is applied (R165). -/
def Block.zeroFrame (b : Block) (f tier n : Nat) : Block :=
  let b1 := b.fillFrame (frameAddr f tier n) []
  if tier = 2 then b1.served f (n % 32) 256 0 else b1

-- Log entry 48 (DEDUCED).
/-- Hand a frame to a camp: filled with zeros first when its last owner was another (R131), at the camp's tokens (R128), unless it is
filled whole. -/
def Block.takeFrame (b : Block) (f tier n use camp : Nat) (whole : Bool) : Block :=
  let b1 := if whole = false ∧ (b.frame f tier n).owner ≠ camp + 1 then
      (if tier = 2 then b.spend f (n % 32 / 8) camp 0x8000 else b).zeroFrame f tier n
    else b
  b1.setFrame f tier n ⟨use, camp + 1, 0, false⟩

/-- Does a frame hold a poison word? -/
def MemPart.framePoison (m : MemPart) (p : Nat) : Bool :=
  m.poison.any fun kv => kv.2 && decide (p ≤ kv.1) && decide (kv.1 < p + 0x8000)

def Block.integField (b : Block) (f : Nat) : IntegField := sget (fun _ => IntegField.init) b.integ.fields f

def Block.setInteg (b : Block) (f : Nat) (x : IntegField) : Block :=
  { b with integ := { b.integ with fields := sset (fun _ => IntegField.init) b.integ.fields f x } }

/-- A mask armed for a frame is cleared by the frame's release (R165). -/
def Block.flipRelease (b : Block) (p : Nat) : Block :=
  if b.fget F.flipCtrlArm = 1 ∧ p ≤ b.flipAddr ∧ b.flipAddr < p + 0x8000 then
    let b1 := b.fset F.flipCtrlArm 0
    { b1 with integ := { b1.integ with flipErr := 5 } }
  else b

/-- A frame is freed: its cached lines are dropped, and a mask armed for it is cleared; one that holds poison, or any while
the poison list is full, waits for its zero fill; the list's overflow is raised once (R131, R155). -/
def Block.freeFrame (b : Block) (f tier n : Nat) : Block :=
  let p := frameAddr f tier n
  let b0 := b.flipRelease p
  let b1 := if tier = 2 then b0.dropFrameLines p else b0
  let x := b1.integField f
  let u := b1.frame f tier n
  if tier = 2 ∧ (b1.mem.framePoison p ∨ x.poisonFull) then
    let b2 := b1.setFrame f tier n { u with use := 4, reads := 0 }
    if x.poisonFull then b2
    else if x.poisonList.length < 256 then b2.setInteg f { x with poisonList := x.poisonList ++ [n] }
    else (b2.setInteg f { x with poisonFull := true }).raise 0x0109 f 0xFF 0
  else b1.setFrame f tier n { u with use := 0, reads := 0 }

/-- A frame leaves its granule: freed at once, or once every read issued against it has returned (R98). -/
def Block.retireFrame (b : Block) (f tier n : Nat) : Block :=
  let u := b.frame f tier n
  if u.reads = 0 then b.freeFrame f tier n else b.setFrame f tier n { u with use := 3 }

/-- A read served from its frames has returned (R98). -/
def Block.readReturned (b : Block) (o : MemOp) : Block :=
  o.against.foldl (fun b k =>
    { b with tier := { b.tier with frames := supd (fun _ => FrameUse.init) b.tier.frames k fun u => { u with reads := u.reads - 1 } } }) b

/-- Operations leave together, and the reads among them return. -/
def Block.removeOps (b : Block) (out : MemOp → Bool) : Block :=
  let b1 := (b.tc.ops.filter out).foldl Block.readReturned b
  { b1 with tc := { b1.tc with ops := b1.tc.ops.filter fun o => !out o } }

/-! ### Events (R112) -/

def tierPayload (object substitute value address : Nat) : Nat :=
  packBits [(0, 16, object), (16, 16, substitute), (32, 32, value), (64, 64, address)]

/-- The step in which a camp's once-per-step events count, or the millisecond outside a step (R101). -/
def Block.stepMark (b : Block) (c : Nat) : Nat :=
  if b.inStep c then 2 * (b.stepSt c).token else 2 * (b.fab.time / 1000000) + 1

-- Log entry 28 (DEDUCED).
/-- A move-up is not made (R101). -/
def Block.placeShort (b : Block) (f g : Nat) : Block :=
  let e := b.dirEntry f g
  let mark := (f, e.camp, b.stepMark e.camp)
  let b1 := b.bump (F.placeShort f)
  if b1.tier.shorts.contains mark then b1
  else
    let b2 : Block := { b1 with tier := { b1.tier with shorts := (b1.tier.shorts.filter fun x => x.1 != f || x.2.1 != e.camp) ++ [mark] } }
    b2.raise 0x0404 f e.camp (tierPayload e.object 0 1 (granuleAddr f g))

/-! ### Residence (R95, R103, R104) -/

-- Log entry 29 (DEDUCED).
/-- The tier that an object's hint wants it in: 1 SRAM, 2 DRAM, 0 where it stays. -/
def TierObj.upper (o : TierObj) : Nat :=
  match o.hint with
  | 1 => 1
  | 2 | 3 => if o.tier = 0 then 1 else 2
  | 4 => if o.writable then 0 else 2
  | 5 => 2
  | _ => 0

/-- Does an entry serve its reads from at least this high a tier? -/
def DirEntry.within (e : DirEntry) (tier : Nat) : Bool :=
  (decide (e.state = 1) || decide (e.state = 2) || decide (e.state = 4)) && decide (e.tierA ≤ tier)

/-- Is a whole object resident in its upper tier? -/
def Block.objResident (b : Block) (f n : Nat) : Bool :=
  let o := b.obj f n
  decide (0 < o.count) && (List.range o.count).all fun i => (b.dirEntry f (o.base + i)).within (if o.upper = 0 then 2 else o.upper)

/-- The object of a stream at an index in a field (R103). -/
def Block.streamObj (b : Block) (f c s i : Nat) : Option (Nat × TierObj) :=
  (b.fieldObjs f).find? fun no => decide (no.2.camp = c) && decide (no.2.hint = 3) && decide (no.2.stream = s) && decide (no.2.index = i)

/-- How many objects a stream has. -/
def Block.streamLen (b : Block) (f c s : Nat) : Nat :=
  ((b.fieldObjs f).filter fun no => decide (no.2.camp = c) && decide (no.2.hint = 3) && decide (no.2.stream = s)).length

/-- The indices of a window: k + 1 to k + N, wrapping when cyclic (R103). -/
def windowIndices (k n len : Nat) (cyclic : Bool) : List Nat :=
  (List.range n).filterMap fun i =>
    if cyclic then (if len = 0 then none else some ((k + 1 + i) % len)) else if k + 1 + i < len then some (k + 1 + i) else none

/-- Is an object inside its stream's live window? -/
def Block.inWindow (b : Block) (f : Nat) (o : TierObj) : Bool :=
  match (b.tier.windows.filter fun w => w.field == f && w.camp == o.camp && w.stream == o.stream).getLast? with
  | some w => decide (w.index = o.index) || (windowIndices w.index o.window (b.streamLen f o.camp o.stream) o.cyclic).contains o.index
  | none => false

/-! ### Moves wanted (R95, R98, R109) -/

/-- Is a move of the granule queued or running? -/
def Block.moving (b : Block) (f g : Nat) : Bool := b.tier.moves.any fun m => m.field == f && m.granule == g

/-- Is a move-up of the granule queued or running? -/
def Block.movingUp (b : Block) (f g : Nat) : Bool := b.tier.moves.any fun m => m.field == f && m.granule == g && m.up

/-- Where a granule's data comes from when it is moved: its home's tier and place. -/
def DirEntry.source (e : DirEntry) : Nat × Nat := if e.state = 4 then (e.tierB, e.locB) else (e.tierA, e.locA)

/-- The class of a move by the granule's hint (R108). -/
def moveClass (hint : Nat) (down : Bool) : Nat := if down then 2 else if hint = 1 ∨ hint = 2 ∨ hint = 3 then 1 else 2

-- Log entry 29 (DEDUCED).
/-- Queue a move-up of a granule into a tier; one that moves up there already is joined, one that runs elsewhere is followed by the new move,
and one that is there needs none (R96, R109). -/
def Block.wantUp (b : Block) (f g tier : Nat) : Block :=
  let e := b.dirEntry f g
  let joins (m : Move) : Bool := m.field == f && m.granule == g && m.up && (decide (m.tier ≤ tier) || (decide (m.final ≠ 4) && !e.writable))
  if b.tier.moves.any joins = true ∨ e.state = 0 ∨ ((e.state = 5 ∨ e.state = 6) ∧ e.tierA ≤ tier) ∨ e.within tier = true then b
  else
    { b with tier := { b.tier with moves := (b.tier.moves.filter fun m => !(m.field == f && m.granule == g && m.up && !m.running)) ++
        [⟨f, g, true, tier, moveClass e.hint false, if e.writable then tier else 4, false, 0, e.source.1, e.source.2, 0, false⟩] } }

-- Log entry 29 (DEDUCED).
/-- Queue a move-down of a writable granule from SRAM to DRAM. -/
def Block.wantDown (b : Block) (f g : Nat) : Block :=
  let e := b.dirEntry f g
  if b.moving f g = true ∨ e.state ≠ 1 then b
  else { b with tier := { b.tier with moves := b.tier.moves ++ [⟨f, g, false, 2, 2, 2, false, 0, 1, e.locA, 0, false⟩] } }

/-- Does the object's hint let its writable granules stand in SRAM (R96)? -/
def TierObj.keepsSram (o : TierObj) : Bool := decide (o.hint = 1) || (decide (o.hint = 2) && decide (o.tier = 0))

/-- A writable granule in SRAM whose hint does not keep it there is moved down at class 2 (R96). -/
def Block.wantStray (b : Block) (f g : Nat) (o : TierObj) : Block := if o.writable = true ∧ o.keepsSram = false then b.wantDown f g else b

/-- The hint of its object governs a granule that no move carries (R96): PIN and PREFER_SRAM want it in their tier, and a writable granule
leaves SRAM where it may not stay. -/
def Block.govern (b : Block) (f g : Nat) (o : TierObj) : Block :=
  (if o.hint = 1 ∨ o.hint = 2 then b.wantUp f g o.upper else b).wantStray f g o

/-- Queue the moves of a whole object, in granule order (R103). -/
def Block.wantObj (b : Block) (f : Nat) (o : TierObj) (tier : Nat) : Block :=
  (List.range o.count).foldl (fun b i => b.wantUp f (o.base + i) tier) b

-- Log entry 208 (DESIGN CHOICE).
/-- The first read of a stream's object in a step, or outside a step in a millisecond (R103): the object itself on demand, then the window's
objects in index order. -/
def Block.openWindow (b : Block) (f : Nat) (o : TierObj) : Block :=
  let mark := b.stepMark o.camp
  let w : Window := ⟨f, o.camp, o.stream, o.index, mark⟩
  if b.tier.windows.contains w then b
  else
    let b1 : Block := { b with tier := { b.tier with windows :=
      (b.tier.windows.filter fun x => !(x.field == f && x.camp == o.camp && x.stream == o.stream && x.step != mark)) ++ [w] } }
    (windowIndices o.index o.window (b1.streamLen f o.camp o.stream) o.cyclic).foldl (fun b i =>
      match b.streamObj f o.camp o.stream i with
      | some no => b.wantObj f no.2 o.upper
      | none => b) (b1.wantObj f o o.upper)

/-- A consumer waits for the object of a granule (R105). -/
def Block.waitFor (b : Block) (f c g : Nat) (step : Bool) (key : Nat) : Block :=
  let n := (b.dirEntry f g).object
  let same (w : TierWait) : Bool := w.field == f && w.camp == c && w.object == n && w.step == step && w.key == key
  if b.tier.waits.any same then
    { b with tier := { b.tier with waits := b.tier.waits.map fun w => if same w && !w.granules.contains g then { w with granules := w.granules ++ [g] } else w } }
  else { b with tier := { b.tier with waits := b.tier.waits ++ [⟨f, c, n, step, key, b.fab.time, false, [g]⟩] } }

/-- A read of a granule of an object that no hint moves has been served from the cellar: its consumer waits no longer. -/
def Block.waitServed (b : Block) (f c g : Nat) (step : Bool) (key : Nat) : Block :=
  let n := (b.dirEntry f g).object
  if (b.obj f n).upper ≠ 0 then b
  else { b with tier := { b.tier with waits := b.tier.waits.filter fun w => !(w.field == f && w.camp == c && w.object == n && w.step == step && w.key == key) } }

-- Log entries 26 (DESIGN CHOICE), 117 (DESIGN CHOICE).
/-- A read of a granule reaches the directory: it is the most recent read of the granule, it opens its stream's window, and
it wants a COLD or SRAM copy on demand (R95, R100, R103). -/
def Block.touch (b : Block) (f g : Nat) : Block :=
  let e := b.dirEntry f g
  let o := b.obj f e.object
  let b1 := b.setDir f g { e with readAt := b.fab.time }
  match e.hint with
  | 3 => b1.openWindow f o
  | 1 | 2 | 4 | 5 => if o.upper = 0 then b1 else b1.wantUp f g o.upper
  | _ => b1

/-- A camp's read of an address reaches the directory. -/
def Block.touchAddr (b : Block) (camp a : Nat) : Block :=
  match place a with
  | .unified f g _ => if (b.dirEntry f g).state = 0 ∨ (b.dirEntry f g).camp ≠ camp then b else b.touch f g
  | _ => b

/-- Must a read of the granule wait for its object (R105): a STREAM or COLD object without a substitute that is still on its
way up, with its move not refused for want of a frame? -/
def Block.mustWait (b : Block) (f g : Nat) : Bool :=
  let e := b.dirEntry f g
  let o := b.obj f e.object
  (b.obj f e.object).loading ||
    ((decide (e.hint = 3) || decide (e.hint = 4)) && decide (o.substitute = 0) && !e.writable && !e.within o.upper && b.moving f g)

/-- Waits that have ended are forgotten. -/
def Block.endWaits (b : Block) : Block :=
  { b with tier := { b.tier with waits := b.tier.waits.filter fun w => !b.objResident w.field w.object } }

/-- The deadline of an object in µs (R105). -/
def Block.deadline (b : Block) (o : TierObj) : Nat := if o.deadlineUs = 0 then b.fget F.tierDeadlineDeadlineUs else o.deadlineUs

/-- One µs of waiting: time past a deadline is summed, and an object not resident at its deadline is counted (R105). -/
def Block.tickWaits (b : Block) : List TierWait → Block
  | [] => b
  | w :: ws =>
    let waited := (b.fab.time - w.at_) / 1000
    let d := b.deadline (b.obj w.field w.object)
    let b1 := if d < waited then b.bump (F.tierWaitUs w.field) else b
    Block.tickWaits (if waited = d + 1 then b1.bump (F.lateObjects w.field) else b1) ws

/-- What TIER_LATE is raised once for (R105): the object and the step, or the waiting field's object and the descriptor. -/
def lateMark (f c n : Nat) (step : Bool) (key : Nat) : Nat × Nat × Nat := if step then (c, n, 2 * key) else (c, 2 ^ 16 * f + n, 2 * key + 1)

/-- Is a mark of TIER_LATE still of use: of the camp's present step, or of a descriptor that is open? -/
def Block.lateLive (b : Block) (x : Nat × Nat × Nat) : Bool :=
  if x.2.2 % 2 = 0 then decide ((b.stepSt x.1).token = x.2.2 / 2) else (b.desc? x.1 (x.2.2 / 2)).isSome

/-- TIER_LATE: the step leader, or the waiting field outside a step, raises the longest wait once per object and step or
descriptor (R105). `f` is the waiting field. -/
def tierLateEff (f c n : Nat) (step : Bool) (key : Nat) (b : Block) : Block :=
  let same (w : TierWait) : Bool := w.camp == c && w.object == n && w.step == step && w.key == key && (step || w.field == f)
  let longest := ((b.tier.waits.filter same).map fun w => (b.fab.time - w.at_) / 1000).foldl max 0
  let mark := lateMark f c n step key
  if b.tier.lates.contains mark = false ∧ (b.tier.waits.any fun w => same w && w.field == f) ∧ max 1 (b.fget F.tierDeadlineLateEventUs) < longest then
    let b1 : Block := { b with tier := { b.tier with
      waits := b.tier.waits.map fun w => if same w then { w with late := true } else w
      lates := (b.tier.lates.filter b.lateLive) ++ [mark] } }
    b1.raise 0x0401 (if step then 0xFF else f) c (tierPayload n 0 longest (granuleAddr f (b.obj f n).base))
  else b

/-! ### Victims (R100) -/

/-- Is the object the substitute of another? -/
def Block.isSubstitute (b : Block) (f : Nat) (o : TierObj) : Bool :=
  (b.tier.objs.any fun kv => decide (kv.2.substitute = granuleAddr f o.base) && decide (kv.2.substitute ≠ 0))

/-- Is the lower home of a COPY unreachable? -/
def Block.lowerDark (b : Block) (f : Nat) (e : DirEntry) : Bool :=
  if e.tierB = 3 then b.unitDark e.locB else b.darkAt (frameAddr f 2 e.locB)

/-- The victim order of an entry for a frame of a tier and a camp (R100); nothing where it is no candidate. -/
def Block.victimOrder (b : Block) (f tier c : Nat) (e : DirEntry) : Option Nat :=
  let o := b.obj f e.object
  if e.camp ≠ c ∨ e.tierA ≠ tier ∨ e.hint = 2 ∨ b.isSubstitute f o = true then none
  else if e.state = 4 then
    if e.hint = 3 ∧ b.inWindow f o = true then none
    else if b.lowerDark f e then some 5
    else match e.hint with
      | 4 => some 1
      | 3 | 5 => some 2
      | _ => some 3
  else if e.state = 1 ∧ e.writable = true ∧ e.hint = 1 ∧ tier = 1 then
    if 0 < b.available f 2 c false then some 4 else none
  else none

-- Log entry 26 (DESIGN CHOICE).
/-- The better of two victims: lower order, then least recently read, then the lower granule. -/
def betterVictim (x y : Nat × Nat × Nat) : Nat × Nat × Nat :=
  if y.1 < x.1 ∨ (y.1 = x.1 ∧ (y.2.1 < x.2.1 ∨ (y.2.1 = x.2.1 ∧ y.2.2 < x.2.2))) then y else x

-- Log entries 26 (DESIGN CHOICE), 28 (DEDUCED).
/-- The victim that the mover takes next: (order, last read, granule). -/
def Block.victim (b : Block) (f tier c : Nat) : Option (Nat × Nat × Nat) :=
  (b.fieldDir f).foldl (fun best ge =>
    match b.victimOrder f tier c ge.2 with
    | some k =>
      let x := (k, ge.2.readAt, ge.1)
      some (match best with | none => x | some y => betterVictim y x)
    | none => best) none

/-- How many victims a camp has in a tier outside an object (R95); those of order 4 as many as DRAM has frames for (R100). -/
def Block.victimCount (b : Block) (f tier c outside : Nat) : Nat :=
  let vs := ((b.fieldDir f).filter fun ge => decide (ge.2.object ≠ outside)).filterMap fun ge => b.victimOrder f tier c ge.2
  let down := (vs.filter (· == 4)).length
  vs.length - down + min down (b.available f 2 c false)

/-- A copy is dropped: one directory update, and the upper frame leaves (R93, R109). -/
def Block.dropCopy (b : Block) (f g : Nat) : Block :=
  let e := b.dirEntry f g
  let b1 := b.setDir f g { e with state := if e.tierB = 3 then 3 else 2, locA := e.locB, tierA := e.tierB, locB := 0, tierB := 0 }
  (b1.bump (F.copiesDropped f)).retireFrame f e.tierA e.locA

/-- The frame that reads of a granule are served from (R91), where it is in SRAM or DRAM. -/
def Block.readFrame (b : Block) (f g : Nat) : Option Nat :=
  let e := b.dirEntry f g
  match e.state with
  | 1 | 2 | 4 => some (frameAddr f e.tierA e.locA)
  | 5 | 6 => if e.tierB = 1 ∨ e.tierB = 2 then some (frameAddr f e.tierB e.locB) else none
  | _ => none

/-- The physical address from which a unified address is read, if it is resident. -/
def Block.readAddr (b : Block) (a : Nat) : Option Nat :=
  match place a with
  | .unified f g off => (b.readFrame f g).map (· + off)
  | _ => none

-- Log entry 47 (DEDUCED).
/-- Is an operation at a channel and not yet served? -/
def Block.atChan (b : Block) (f n : Nat) (o : MemOp) : Bool :=
  !o.performed && o.addrs.any fun a =>
    let p := (b.readAddr a).getD a
    isDram p && decide (physField p = f) && decide (dramChan p = n)

/-! ### Starting and switching a move (R98 to R102, R560) -/

/-- The DMA slot of a field as a requester (R560). -/
def dmaSlot (slot : Nat) : Asker := ⟨0x211, 0xFF, slot⟩

/-- What a slot carries. -/
def Block.slotUse (b : Block) (f slot : Nat) : Option SlotUse := sget (fun _ => none) b.host.slots (32 * f + slot)

def Block.setSlotUse (b : Block) (f slot : Nat) (u : Option SlotUse) : Block :=
  { b with host := { b.host with slots := sset (fun _ => none) b.host.slots (32 * f + slot) u } }

/-- May a free slot take work of a class, if it stands free: does it hold a standing grant of that class or a higher one, or one that was
asked for it? -/
def Block.slotHolds (b : Block) (f slot cls : Nat) : Bool :=
  match b.grantOf f (dmaSlot slot) with
  | some g => decide (8 ≤ g.amount) && (!g.standing || decide (g.cls ≤ cls))
  | none => false

/-- May work of a class take a slot (R560): a free one that holds a grant of its class or a higher one, or, where none is free, a free one
without a grant? -/
def Block.slotFits (b : Block) (f slot cls : Nat) : Bool :=
  decide (slot < 32) && (b.slotUse f slot).isNone && (b.slotHolds f slot cls ||
    ((b.grantOf f (dmaSlot slot)).isNone && !((List.range 32).any fun i => (b.slotUse f i).isNone && b.slotHolds f i cls)))

/-- Is work that may stand only once in a slot already? -/
def Block.slotted (b : Block) (f : Nat) (w : SlotWork) : Bool :=
  w != .elem .other && (List.range 32).any fun i => match b.slotUse f i with | some u => u.work == w | none => false

/-- Is it the turn of work at its engine: is every element that arrived before it in a slot? -/
def Block.slotTurn (b : Block) (f : Nat) (w : SlotWork) : Bool :=
  match b.host.slotQueue.find? fun x => x.1 == f with
  | some x => x.2.work == w
  | none => true

-- Log entry 203 (DESIGN CHOICE).
/-- Work joins its engine's queue, once. -/
def Block.queueWork (b : Block) (f : Nat) (u : SlotUse) : Block :=
  if b.host.slotQueue.any fun x => x.1 == f && x.2.work == u.work then b
  else { b with host := { b.host with slotQueue := b.host.slotQueue ++ [(f, u)] } }

-- Log entry 203 (DESIGN CHOICE).
/-- A slot's work runs under its grant; without one the slot asks for 8 rations at the work's class (R560, R75). -/
def Block.underGrant (b : Block) (f slot : Nat) (u : SlotUse) (k : Block → Block) : Block :=
  if b.covers f (dmaSlot slot) 8 then k b
  else if b.holds f (dmaSlot slot) ∨ b.waits f (dmaSlot slot) then b
  else b.request f (dmaSlot slot) u.cls u.camp 8 false

-- Log entries 144 (DEDUCED), 203 (DESIGN CHOICE).
/-- Work of `n` bytes runs in a slot of a field's engine (R560): less than 4 KiB at once, in the floor; other work takes a slot that fits
when its turn has come, and waits in the engine's queue while every slot is busy. -/
def Block.inSlot (b : Block) (f slot cls camp n : Nat) (w : SlotWork) (k : Block → Block) : Block :=
  let u : SlotUse := ⟨w, cls, camp⟩
  if n < 4096 then k b
  else match b.slotUse f slot with
    | some x => if x.work = w then b.underGrant f slot u k else if (List.range 32).all fun i => (b.slotUse f i).isSome then b.queueWork f u else b
    | none =>
      if b.slotted f w then b
      else if b.slotTurn f w = false then b.queueWork f u
      else if b.slotFits f slot cls = false then b
      else
        let b1 : Block := { b with host := { b.host with slotQueue := b.host.slotQueue.filter fun x => !(x.1 == f && x.2.work == w) } }
        (b1.setSlotUse f slot (some u)).underGrant f slot u k

/-- A slot is free again: its waiting request is withdrawn, and its grant released unless it stands (R560, R74). -/
def Block.clearSlot (b : Block) (f slot : Nat) : Block := ((b.setSlotUse f slot none).withdrawAuto f (dmaSlot slot)).releaseAuto f (dmaSlot slot)

-- Log entry 203 (DESIGN CHOICE).
/-- Works end: their slots are free again, and those that wait for a slot leave the queue. -/
def Block.endWorks (b : Block) (out : Nat → SlotUse → Bool) : Block :=
  let b1 := b.host.slots.foldl (fun b kv => match kv.2 with
    | some u => if out (kv.1 / 32) u then b.clearSlot (kv.1 / 32) (kv.1 % 32) else b
    | none => b) b
  { b1 with host := { b1.host with slotQueue := b1.host.slotQueue.filter fun x => !out x.1 x.2 } }

/-- One work of a field's engine ends. -/
def Block.endWork (b : Block) (f : Nat) (w : SlotWork) : Block := b.endWorks fun f' u => f' == f && u.work == w

-- Log entry 118 (DEDUCED).
/-- The first queued move of a field that a granule's move must follow: the mover issues the moves of one camp in order. -/
def Block.nextMove (b : Block) (f c : Nat) (up : Bool) : Option Move :=
  b.tier.moves.find? fun m => m.field == f && !m.running && m.up == up && (b.dirEntry f m.granule).camp == c

/-- Is it the granule's move that runs, or the one that waits? A granule has at most one of each (R98, R109). -/
def Move.isOf (m : Move) (f g : Nat) (run : Bool) : Bool := m.field == f && m.granule == g && m.running == run

def Block.setMove (b : Block) (f g : Nat) (run : Bool) (h : Move → Move) : Block :=
  { b with tier := { b.tier with moves := b.tier.moves.map fun m => if m.isOf f g run then h m else m } }

def Block.dropMove (b : Block) (f g : Nat) (run : Bool) : Block :=
  let b1 : Block := { b with tier := { b.tier with moves := b.tier.moves.filter fun m => !m.isOf f g run } }
  if run = true ∨ (b.tier.moves.any fun m => m.isOf f g true) = false then b1.endWork f (.move g) else b1

/-- The rank and deadline of a read for an object (R180): a deadline is carried by a read that serves an object announced or waited on. -/
def Block.readRank (b : Block) (f n : Nat) (back : Bool) : Nat × Nat :=
  let o := b.obj f n
  match b.tier.announces.find? fun a => a.camp == o.camp && a.object == n && a.decided == 0 with
  | some a => (1, a.at_ + a.deadlineUs * 1000)
  | none =>
    match b.tier.waits.find? fun w => w.field == f && w.camp == o.camp && w.object == n with
    | some w => (1, w.at_ + b.deadline o * 1000)
    | none => (if back then 3 else 2, 0)

/-! ### The queues of the cellar (R180, R185, R186) -/

/-- The field whose desk serves controller k (R185). -/
def Block.hostField (b : Block) (k : Nat) : Nat := b.siteDesk (edgeSite (28 + k))

/-- Controller k as a requester: engine 0 its reading, engine 1 + j the programming of its channel j (R186). -/
def ccAsker (k engine : Nat) : Asker := ⟨0x240 + 28 + k, 0xFF, engine⟩

/-- A channel's programming as a requester. -/
def chanAsker (chan : Nat) : Asker := ccAsker (chan / 16) (1 + chan % 16)

/-- The rank and deadline of a queued read, as the announcements and the waits stand (R180); relocation and SEAL reads carry no deadline. -/
def Block.unitRank (b : Block) (r : UnitRead) : Nat × Nat :=
  match r.who with
  | .seal .. | .reloc => (3, 0)
  | _ => b.readRank r.field r.object r.back

/-- Does a read come before another (R180)? -/
def Block.readBefore (b : Block) (x y : UnitRead) : Bool :=
  let p := b.unitRank x
  let q := b.unitRank y
  decide (p.1 < q.1) ||
  (decide (p.1 = 1) && decide (q.1 = 1) &&
    (decide (p.2 < q.2) || (decide (p.2 = q.2) &&
      (decide (x.object < y.object) || (decide (x.object = y.object) && decide (x.unit < y.unit))))))

/-- The queued reads of a controller, in order. -/
def Block.ccQueued (b : Block) (k : Nat) : List UnitRead := sortBy b.readBefore (b.cellar.reads.filter fun r => decide (unitCc r.unit = k))

-- Log entry 204 (DEDUCED).
/-- A controller's reading grant follows its queue (R186): requested at the class of the head read's work while reads are queued, withdrawn
or released with the last. A request that waits at another class is made anew. -/
def Block.askRead (b : Block) (k : Nat) : Block :=
  let h := b.hostField k
  let who := ccAsker k 0
  match (b.ccQueued k).head? with
  | none => (b.withdrawAuto h who).releaseAuto h who
  | some r =>
    if b.holds h who then b
    else match (b.desk h).queue.find? fun q => q.who == who && !q.clock with
      | some q => if q.cls = r.cls ∨ q.standing = true then b else (b.withdraw h who).request h who r.cls 0xFF 8 false
      | none => b.request h who r.cls 0xFF 8 false

/-- A unit's read is queued at its channel, against the block that the map names (R180, R181). -/
def Block.queueRead (b : Block) (u : Nat) (who : ReadFor) (back : Bool) (f n camp cls : Nat) : Block :=
  let key := 20480 * unitChan u + sget (fun k => k % 16384) b.cellar.map (16384 * unitChan u + u / 128 / 1024)
  ({ b with cellar := { b.cellar with
      reads := b.cellar.reads ++ [⟨u, back, f, n, camp, cls, key, who⟩]
      blocks := supd (fun _ => PBlock.init) b.cellar.blocks key fun x => { x with flight := x.flight + 1 } } } : Block).askRead (unitCc u)

-- Log entry 39 (DESIGN CHOICE).
/-- A unit for an element or a firmware reader: it has been read, or could not be (`none`), or it is queued to be read and the reader waits. -/
def Block.unitFor (b : Block) (u f n camp key : Nat) : Block × Option (Option Nat) :=
  match b.cellar.got.find? fun x => x.who == .bulk camp key && x.unit == u with
  | some x => (b, some (if x.ok then some (sget (fun _ => 0) b.cellar.units u) else none))
  | none =>
    if b.cellar.reads.any fun r => r.who == .bulk camp key && r.unit == u then (b, none)
    else (b.queueRead u (.bulk camp key) false f n camp 1, none)

/-- A move starts into frame `dst` in DMA slot `slot`: a copy that stands higher or lower is dropped, the destination is taken, and a move
from the cellar queues its unit's read. -/
def Block.startMove (b : Block) (m : Move) (dst slot : Nat) : Block :=
  let f := m.field
  let g := m.granule
  let b0 := if (b.dirEntry f g).state = 4 then b.dropCopy f g else b
  let e := b0.dirEntry f g
  let src := if m.srcTier = 4 ∨ m.srcTier = 3 then (m.srcTier, m.src) else e.source
  let b1 := (b0.takeFrame f m.tier dst 1 e.camp true).setDir f g
    { e with state := if m.up then 5 else 6, locA := dst, tierA := m.tier, locB := e.locA, tierB := e.tierA }
  let b2 := b1.setMove f g false fun x => { x with running := true, dst := dst, slot := slot, srcTier := src.1, src := src.2, got := decide (src.1 ≠ 3) }
  if src.1 = 3 then b2.queueRead src.2 .move (decide (m.cls = 2) && decide (m.final ≠ 4)) f e.object e.camp m.cls else b2

-- Log entries 27 (DESIGN CHOICE), 28 (DEDUCED), 118 (DEDUCED).
/-- MOVE_START: the mover starts the queued move of a granule into frame `dst`, in DMA slot `slot`, when no move of the granule runs (R98),
its slot holds its grant and a frame is free within the quota; without one it takes a victim, and without a victim the move-up is not made. -/
def moveStartEff (f g dst slot : Nat) (b : Block) : Block :=
  let e := b.dirEntry f g
  match b.nextMove f e.camp ((b.tier.moves.find? fun m => m.isOf f g false).elim true (·.up)) with
  | none => b
  | some m =>
    if m.granule ≠ g ∨ e.state = 5 ∨ e.state = 6 ∨ b.tierOn = false then b
    else b.inSlot f slot m.cls e.camp 0x8000 (.move g) fun b =>
      if 0 < b.available f m.tier e.camp (decide (e.hint = 3)) then
        if b.frameFree f m.tier dst = false then b else b.startMove m dst slot
      else if m.up then
        match b.victim f m.tier e.camp with
        | some (4, _, v) => b.wantDown f v
        | some (_, _, v) => b.dropCopy f v
        | none => if m.cls = 2 ∧ m.final ≠ 4 then b.placeShort f g else (b.placeShort f g).dropMove f g false
      else b.dropMove f g false

/-- MOVE_OLD_FRAME_FREE: a frame whose reads have all returned is freed (R98). -/
def moveOldFrameFreeEff (f tier n : Nat) (b : Block) : Block :=
  let u := b.frame f tier n
  if u.use = 3 ∧ u.reads = 0 then b.freeFrame f tier n else b

-- Log entry 48 (DEDUCED).
/-- ZERO_FILL_DONE: the zero fill of a freed frame ends and the frame returns to its free list (R155). -/
def zeroFillDoneEff (f tier n : Nat) (b : Block) : Block :=
  let u := b.frame f tier n
  if u.use = 4 then
    let b1 := (b.zeroFrame f tier n).setFrame f tier n ⟨0, u.owner, 0, true⟩
    let x := b1.integField f
    ((b1.setInteg f { x with poisonList := x.poisonList.filter (· != n) }).bump (F.framesZeroed f))
  else b

/-- The state in which a granule is after its move: a copy over its home, or a home (R91). A home whose data was lost under the move stays
poisoned (R107). -/
def DirEntry.settled (e : DirEntry) (m : Move) : DirEntry :=
  if m.final = 4 then { e with state := 4 }
  else { e with state := if m.tier = 1 then 1 else 2, locB := 0, tierB := 0, poison := e.poison && (decide (m.srcTier = 1) || decide (m.srcTier = 2)) }

-- Log entry 118 (DEDUCED).
/-- The directory update of a finished move: the copied granule's home or copy is the destination, and the old frame leaves
(R98), and its hint governs it again (R96). Poison words travel with the copy (R153). `hostData` is what a reload from host memory brought. -/
def Block.switchMove (b : Block) (m : Move) (hostData : Nat) : Block :=
  let e := b.dirEntry m.field m.granule
  let dst := frameAddr m.field m.tier m.dst
  let b1 := match m.srcTier with
    | 3 => (b.lookBulk dst 0x8000).fillFrame dst (bytesLE 0x8000 (sget (fun _ => 0) b.cellar.units m.src))
    | 4 => (b.lookBulk dst 0x8000).fillFrame dst (bytesLE 0x8000 hostData)
    | t => b.copyBytes dst (frameAddr m.field t m.src) 0x8000
  let b2 := b1.setDir m.field m.granule (e.settled m)
  let b3 := if m.final = 4 ∨ e.tierB = 3 ∨ e.tierB = 0 then b2 else b2.retireFrame m.field e.tierB e.locB
  let b4 := b3.dropMove m.field m.granule true
  (((b4.bump (if m.up then F.movesUp m.field else F.movesDown m.field)).bump (F.dmaElements m.field)).count (F.dmaKib m.field) 32).govern
    m.field m.granule (b.obj m.field e.object)

/-! ### Experts (R104, R452) -/

/-- The fields in which a camp has the object. -/
def Block.sliceFields (b : Block) (c n : Nat) : Nat :=
  packBits ((List.range 96).map fun f => (f, 1, if (b.obj f n).camp = c ∧ 0 < (b.obj f n).count then 1 else 0))

/-- A kernel announces an expert's use to every field that holds a slice of it: its late slices move up on demand. `peers`
names the members of the slice group that must report as well. -/
def Block.announce (b : Block) (c step layer expert n peers : Nat) : Block :=
  let fs := b.sliceFields c n
  let f0 := ((List.range 96).find? (bitAt fs)).getD 0
  let o := b.obj f0 n
  if fs = 0 ∨ o.substitute = 0 ∨
      (b.tier.announces.any fun a => a.camp == c && a.step == step && a.layer == layer && a.expert == expert) then b
  else
    let sub := (b.dirEntry (bitsOf o.substitute 40 8) (bitsOf o.substitute 15 25)).object
    let a : Announce := ⟨c, step, layer, expert, n, sub, granuleAddr f0 o.base, fs, 0, peers, b.fab.time, b.deadline o, 0⟩
    (List.range 96).foldl (fun b f => if bitAt fs f then b.wantObj f (b.obj f n) (b.obj f n).upper else b)
      { b with tier := { b.tier with announces := b.tier.announces ++ [a] } }

/-- Change an announcement. -/
def Block.setAnnounce (b : Block) (c layer expert : Nat) (h : Announce → Announce) : Block :=
  { b with tier := { b.tier with announces := b.tier.announces.map fun a =>
      if a.camp == c && a.layer == layer && a.expert == expert then h a else a } }

/-- The expert is used once every field and every member of the group has reported (R104). -/
def Announce.settle (a : Announce) : Announce := if a.decided = 0 ∧ a.ready = a.fields ∧ a.peers = 0 then { a with decided := 1 } else a

/-- EXPERT_READY_REPORT: a field whose slice is resident in the upper tier reports READY within the deadline. -/
def expertReadyReportEff (c layer expert f : Nat) (b : Block) : Block :=
  match b.tier.announces.find? fun a => a.camp == c && a.layer == layer && a.expert == expert with
  | some a =>
    if bitAt a.fields f = true ∧ b.objResident f a.object = true ∧ b.fab.time ≤ a.at_ + a.deadlineUs * 1000 then
      b.setAnnounce c layer expert fun a => { a with ready := setBit a.ready f true }.settle
    else b
  | none => b

/-- The substitute is used in every field of an announcement: counted in each, with the fields not ready counted late, and
raised once (R104). -/
def Block.substitute (b : Block) (a : Announce) : Block :=
  let b1 := b.setAnnounce a.camp a.layer a.expert fun x => { x with decided := 2 }
  let b2 := (List.range 96).foldl (fun b f =>
    let b' := if bitAt a.fields f then b.bump (F.substitutions f) else b
    if bitAt a.fields f && !bitAt a.ready f then b'.bump (F.lateObjects f) else b') b1
  b2.raise 0x0402 0xFF a.camp (tierPayload a.object a.substitute a.deadlineUs a.address)

/-- SUBSTITUTE_DEADLINE: DEADLINE_US after an announcement without every READY, every field uses the substitute. -/
def substituteDeadlineEff (c layer expert : Nat) (b : Block) : Block :=
  match b.tier.announces.find? fun a => a.camp == c && a.layer == layer && a.expert == expert with
  | some a => if a.decided = 0 ∧ a.at_ + a.deadlineUs * 1000 ≤ b.fab.time then b.substitute a else b
  | none => b

/-! ### Dark tiers (R106, R107, R111) -/

-- Log entry 186 (DEDUCED).
/-- A clean lower source of a lost read-only home: its image's unit, or host memory (R106). -/
def TierObj.clean (o : TierObj) (g : Nat) : Option (Nat × Nat) :=
  if o.image ≠ 0 then some (3, o.image - 1 + 96 * (g - o.base)) else if o.host ≠ 0 then some (4, o.host - 1 + 0x8000 * (g - o.base)) else none

-- Log entry 186 (DEDUCED).
/-- Queue the reload of a read-only home at class 2 (R106). -/
def Block.reload (b : Block) (f g : Nat) : Block :=
  let e := b.dirEntry f g
  match (b.obj f e.object).clean g with
  | some s =>
    if b.moving f g then b
    else (({ b with tier := { b.tier with moves := b.tier.moves ++ [⟨f, g, true, 2, 2, 2, false, 0, s.1, s.2, 0, false⟩] } } : Block).bump (F.reloads f))
  | none => b

/-- A home or copy at LOC_A is lost. -/
def Block.loseHome (b : Block) (f g : Nat) (e : DirEntry) : Block :=
  if e.state = 4 then
    (b.setDir f g { e with state := if e.tierB = 3 then 3 else 2, locA := e.locB, tierA := e.tierB, locB := 0, tierB := 0 }).retireFrame
      f e.tierA e.locA
  else if e.writable then b.setDir f g { e with poison := true }
  else b.reload f g

-- Log entry 185 (DEDUCED).
/-- A moving granule's entry as it was before the move: its home (R91). -/
def DirEntry.unmoved (e : DirEntry) : DirEntry :=
  { e with state := if e.tierB = 3 then 3 else if e.tierB = 1 then 1 else 2, locA := e.locB, tierA := e.tierB, locB := 0, tierB := 0 }

-- Log entry 185 (DEDUCED).
/-- The destination of a running move is lost: the entry stands as before the move, which waits again. -/
def Block.loseTarget (b : Block) (f g : Nat) (e : DirEntry) : Block :=
  ((((b.setDir f g e.unmoved).setMove f g true fun m => { m with running := false, got := false }).endWork f (.move g)).freeFrame f e.tierA e.locA)

-- Log entries 185 (DEDUCED), 186 (DEDUCED).
/-- The source of a running move is lost: writable data is poisoned and arrives so; read-only data comes from its clean source, or the move
is not made. -/
def Block.loseSource (b : Block) (f g : Nat) (e : DirEntry) : Block :=
  if e.writable then b.setDir f g { e with poison := true }
  else match (b.obj f e.object).clean g with
    | some s =>
      let b1 := (b.setMove f g true fun m => { m with srcTier := s.1, src := s.2, got := decide (s.1 ≠ 3) }).bump (F.reloads f)
      if s.1 = 3 then b1.queueRead s.2 .move true f e.object e.camp 2 else b1
    | none => (b.loseTarget f g e).dropMove f g false

-- Log entry 185 (DEDUCED).
/-- Frames of a granule are lost (R106, R107, R111). -/
def Block.loseGranule (b : Block) (f g : Nat) (e : DirEntry) (lost : Nat → Bool) : Block :=
  let at_ (tier loc : Nat) : Bool := decide (tier = 2) && lost loc
  if e.state = 5 ∨ e.state = 6 then
    let b1 := if at_ e.tierA e.locA then b.loseTarget f g e else b
    if at_ e.tierB e.locB = false then b1
    else if at_ e.tierA e.locA then b1.loseHome f g e.unmoved
    else b1.loseSource f g e
  else if at_ e.tierA e.locA then b.loseHome f g e
  else b

-- Log entry 185 (DEDUCED).
/-- The frames of a field named by a test are lost: copies revert, read-only homes are reloaded, writable homes are poisoned
and TIER_HOME_LOST is raised once per object (R107, R111). -/
def Block.tierLose (b : Block) (f : Nat) (lost : Nat → Bool) : Block :=
  let hit := (b.fieldDir f).filter fun ge => decide (ge.2.state ≠ 0)
  let b1 := hit.foldl (fun b ge => b.loseGranule f ge.1 ge.2 lost) b
  let gone := hit.filter fun ge => !ge.2.poison && (b1.dirEntry f ge.1).poison
  let objs := ((gone.map (·.2.object)).dedup).filter fun n => !(b1.obj f n).lost
  objs.foldl (fun b n =>
    let gs := gone.filter fun ge => ge.2.object == n
    (b.setObj f n { b.obj f n with lost := true }).raise 0x0405 f (b.obj f n).camp (tierPayload n 0 gs.length (granuleAddr f ((gs.head?.map (·.1)).getD 0)))) b1

/-! ### Hints (R94 to R97, R431) -/

/-- The object that starts at a unified address. -/
def Block.objAt (b : Block) (addr : Nat) : Option (Nat × Nat × TierObj) :=
  match place addr with
  | .unified f g 0 =>
    if g < b.dirSize then ((b.fieldObjs f).find? fun no => decide (no.2.base = g) && decide (0 < no.2.count)).map fun no => (f, no.1, no.2) else none
  | _ => none

/-- Is a substitute's address a resident object of the camp (R95)? -/
def Block.substituteOk (b : Block) (c addr : Nat) : Bool :=
  match b.objAt addr with
  | some (f, _, o) =>
    let e := b.dirEntry f o.base
    decide (o.camp = c) && (decide (e.state = 1) || decide (e.state = 2) || decide (o.hint = 2))
  | none => false

/-- The byte of the first field of a HINT body that its hint does not allow (R95, R431); `image` says that the object has an
installed image. -/
def hintBad (b : Block) (d : Desc) (writable image : Bool) : Option Nat :=
  let hint := d.bits 17 0 3
  if 5 < hint then some 17
  else if 3 ≤ hint ∧ writable = true then some 17
  else if hint = 5 ∧ image = false then some 17
  else if hint = 3 ∧ (d.bits 19 0 4 = 0 ∨ 8 < d.bits 19 0 4) then some 19
  else if d.field 40 8 ≠ 0 ∧ b.substituteOk d.camp (d.field 40 8) = false then some 40
  else none

/-- The object with the hints of a HINT body. -/
def TierObj.hinted (o : TierObj) (d : Desc) : TierObj :=
  { o with
    hint := d.bits 17 0 3
    tier := d.bits 17 5 1
    cyclic := decide (d.bits 17 4 1 = 1)
    stream := d.field 18 1
    index := d.field 20 2
    window := d.bits 19 0 4
    deadlineUs := d.field 36 2
    substitute := if d.bits 17 0 3 = 3 ∨ d.bits 17 0 3 = 4 then d.field 40 8 else 0 }

/-- Set the HINT of every granule of an object. -/
def Block.hintEntries (b : Block) (f : Nat) (o : TierObj) : Block :=
  (List.range o.count).foldl (fun b i => b.setDir f (o.base + i) { b.dirEntry f (o.base + i) with hint := o.hint }) b

-- Log entry 29 (DEDUCED).
/-- Does the new hint of an object still want a move of its granules that has not started (R96)? Reloads do not come from hints. -/
def Move.wanted (m : Move) (o : TierObj) : Bool :=
  if m.up then decide (m.tier = o.upper) || decide (m.srcTier = 4) || (decide (m.final ≠ 4) && !o.writable) else !o.keepsSram

-- Log entry 29 (DEDUCED).
/-- The moves that a new hint asks for (R95, R96): moves not started that it does not want are forgotten, PIN and PREFER_SRAM move up, and
writable granules that it leaves in SRAM with neither PREFER_SRAM nor PIN with tier SRAM move down. -/
def Block.hintMoves (b : Block) (f : Nat) (o : TierObj) : Block :=
  let old (m : Move) : Bool := m.field == f && !m.running && decide (o.base ≤ m.granule) && decide (m.granule < o.base + o.count) && !m.wanted o
  let b0 : Block := { b with tier := { b.tier with moves := b.tier.moves.filter fun m => !old m } }
  (List.range o.count).foldl (fun b i => b.govern f (o.base + i) o) b0

/-- The granules by which a PIN is short of frames (R95). -/
def Block.pinShort (b : Block) (f n : Nat) (o : TierObj) : Nat :=
  let need := ((List.range o.count).filter fun i => !(b.dirEntry f (o.base + i)).within o.upper).length
  need - (b.available f o.upper o.camp false + b.victimCount f o.upper o.camp n)

-- Log entry 29 (DEDUCED).
/-- HINT_SET: a consumed HINT SET changes the hints of an object of the camp. -/
def hintSetEff (camp seq : Nat) (b : Block) : Block :=
  b.withDesc camp seq 0x08 fun d b =>
    if d.bits 16 0 2 ≠ 2 then b
    else match b.objAt (d.field 24 8) with
      | none => b.refuse d 0x21 24
      | some (f, n, o) =>
        if o.camp ≠ camp then b.refuse d 0x25 24
        else match hintBad b d o.writable (decide (o.image ≠ 0)) with
          | some off => b.refuse d 0x21 off
          | none =>
            let o' := o.hinted d
            if o'.hint = 2 ∧ 0 < b.pinShort f n o' then b.complete d 0x27 (packBits [(0, 64, b.pinShort f n o'), (64, 8, 1)])
            else (((b.setObj f n o').hintEntries f o').hintMoves f o').complete d 0 0

-- Log entry 209 (DESIGN CHOICE).
/-- The writes that a granule holds are held no longer: the operations reach the directory again, the elements run again. -/
def Block.unhold (b : Block) (f g : Nat) : Block :=
  let ids := b.tier.held.filterMap fun h => if h.1 = f ∧ h.2.1 = g then (match h.2.2 with | .op id => some id | _ => none) else none
  { b with
    tier := { b.tier with held := b.tier.held.filter fun h => !(h.1 == f && h.2.1 == g) }
    tc := { b.tc with ops := b.tc.ops.map fun o => if ids.contains o.id then { o with fed := 0 } else o } }

-- Log entry 209 (DESIGN CHOICE).
/-- Unmap a granule: its moves end, its frames leave, its entry reads UNMAPPED (R97); a write that it holds finds it unmapped. -/
def Block.unmapGranule (b : Block) (f g : Nat) : Block :=
  let e := b.dirEntry f g
  let b0 := ((b.unhold f g).dropMove f g true).dropMove f g false
  let b1 := if e.state = 0 ∨ e.tierA = 0 ∨ e.tierA = 3 then b0 else b0.retireFrame f e.tierA e.locA
  let b2 := if e.tierB = 1 ∨ e.tierB = 2 then b1.retireFrame f e.tierB e.locB else b1
  b2.setDir f g DirEntry.init

-- Log entry 33 (DEDUCED).
def Block.unmapObj (b : Block) (f n : Nat) : Block :=
  let o := b.obj f n
  let b1 := (List.range o.count).foldl (fun b i => b.unmapGranule f (o.base + i)) b
  let b2 := b1.setObj f n TierObj.init
  { b2 with tier := { b2.tier with waits := b2.tier.waits.filter fun w => !(w.field == f && w.object == n) } }

/-- HINT_UNMAP: a consumed HINT UNMAP ends an object that no LOAD_MODEL created, at the next boundary for a camp in a step. -/
def hintUnmapEff (camp seq : Nat) (b : Block) : Block :=
  b.withDesc camp seq 0x08 fun d b =>
    if d.bits 16 0 2 ≠ 1 then b
    else match b.objAt (d.field 24 8) with
      | none => b.refuse d 0x21 24
      | some (f, n, o) =>
        if o.camp ≠ camp then b.refuse d 0x25 24
        else if o.model ≠ 0 then b.refuse d 0x21 24
        else if b.inStep camp then (b.setObj f n { o with unmapping := seq + 1 }).start d
        else (b.unmapObj f n).complete d 0 0

/-- What a boundary of camp c unmaps (R97). -/
def Block.boundaryUnmap (b : Block) (c : Nat) : Block :=
  b.tier.objs.foldl (fun b kv =>
    if kv.2.camp = c ∧ kv.2.unmapping ≠ 0 then
      (b.unmapObj (kv.1 / 2 ^ 16) (kv.1 % 2 ^ 16)).completeSeq c (kv.2.unmapping - 1) 0 0
    else b) b

-- Log entries 30 (DESIGN CHOICE), 91 (DEDUCED).
/-- The lowest object number that a field does not use. -/
def Block.freeObj (b : Block) (f : Nat) : Nat → Nat → Nat
  | 0, n => n
  | k + 1, n => if (b.obj f n).count = 0 then n else Block.freeObj b f k (n + 1)

/-- Do granules overlap a mapped object (R431)? -/
def Block.overlaps (b : Block) (f g n : Nat) : Bool :=
  (b.fieldObjs f).any fun no => decide (g < no.2.base + no.2.count) && decide (no.2.base < g + n)

/-- The first byte of a HINT MAP body that is wrong, if any. -/
def mapBad (b : Block) (d : Desc) : Option Nat :=
  let addr := d.field 24 8
  let count := d.bits 32 0 26
  match place addr with
  | .unified f g 0 =>
    match hintBad b d (decide (d.bits 17 3 1 = 1)) false with
    | some o => some o
    | none =>
      if count = 0 then some 32
      else if b.dirSize < g + count then some 24
      else if b.overlaps f g count then some 24
      else if d.field 48 8 % 4096 ≠ 0 then some 48
      else if d.bits 17 3 1 = 0 ∧ d.field 48 8 = 0 then some 48
      else none
  | _ => some 24

/-- Map granule i of a new object onto a frame. -/
def Block.mapGranule (b : Block) (f n tier : Nat) (o : TierObj) (i frame : Nat) (whole : Bool) : Block :=
  (b.takeFrame f tier frame 1 o.camp whole).setDir f (o.base + i)
    ⟨if tier = 1 then 1 else 2, o.hint, o.writable, false, o.camp, n, frame, 0, tier, 0, b.fab.time⟩

/-- Map the granules of a new object onto a list of frames. -/
def Block.mapFrames (b : Block) (f n tier : Nat) (o : TierObj) (whole : Bool) : Nat → List Nat → Block
  | _, [] => b
  | i, fr :: frs => Block.mapFrames (b.mapGranule f n tier o i fr whole) f n tier o whole (i + 1) frs

/-- Are the frames free and all different? -/
def Block.framesFree (b : Block) (f tier : Nat) (frs : List Nat) : Bool := frs.all (b.frameFree f tier) && decide frs.Nodup

/-- Start the host reads or writes that carry a descriptor's data (R561). -/
def Block.startDma (b : Block) (camp seq total : Nat) : Block :=
  { b with host := { b.host with dmas := b.host.dmas ++ [⟨camp, seq, total, [], [], []⟩] } }

-- Log entry 30 (DESIGN CHOICE).
/-- HINT_MAP: a consumed HINT MAP creates an object in the frames that firmware chose. Zero-filled, it completes at once;
with content in host memory its elements are read first. -/
def hintMapEff (camp seq : Nat) (frames : List Nat) (b : Block) : Block :=
  b.withDesc camp seq 0x08 fun d b =>
    if d.bits 16 0 2 ≠ 0 then b
    else match mapBad b d with
      | some o => b.refuse d 0x21 o
      | none =>
        let addr := d.field 24 8
        let f := bitsOf addr 40 8
        let count := d.bits 32 0 26
        let tier := if d.bits 17 0 3 = 2 ∧ d.bits 17 5 1 = 0 then 1 else 2
        let used := ((b.fieldObjs f).filter fun no => decide (0 < no.2.count)).length
        let room := b.available f tier camp false
        if 65535 < used + 1 then b.complete d 0x27 (packBits [(0, 64, used + 1 - 65535), (64, 8, 2)])
        else if room < count then b.complete d 0x27 (packBits [(0, 64, count - room), (64, 8, 1)])
        else if frames.length ≠ count ∨ b.framesFree f tier frames = false then b
        else
          let n := b.freeObj f 65535 1
          let host := d.field 48 8
          let o : TierObj := { (({ TierObj.init with
              base := bitsOf addr 15 25
              count := count
              camp := camp
              writable := decide (d.bits 17 3 1 = 1) } : TierObj).hinted d) with
            host := if d.bits 17 3 1 = 0 then host + 1 else 0
            loading := decide (host ≠ 0) }
          let b1 := (b.setObj f n o).mapFrames f n tier o (decide (host ≠ 0)) 0 frames
          if host = 0 then (b1.hintMoves f o).complete d 0 0
          else (b1.startDma camp seq count).start d

/-- Element i of a HINT MAP's content arrives from host memory; the last one ends the loading. -/
def Block.mapElement (b : Block) (d : Desc) (i : Nat) (data : Nat) : Block :=
  match b.objAt (d.field 24 8) with
  | some (f, _, o) =>
    let e := b.dirEntry f (o.base + i)
    let p := frameAddr f e.tierA e.locA
    b.fillFor d.camp p (bytesLE 0x8000 data)
  | none => b

/-- All of a HINT MAP's content has arrived. -/
def Block.mapLoaded (b : Block) (d : Desc) : Block :=
  match b.objAt (d.field 24 8) with
  | some (f, n, o) => ((b.setObj f n { o with loading := false }).hintMoves f { o with loading := false }).complete d 0 0
  | none => b

/-- DIR_QUERY: the write of the high word applies the address (R4, R113). -/
def dirQueryEff (fn value : Nat) (b : Block) : Block :=
  b.barWrite fn 0x500014 fun b => ({ b with tier := { b.tier with asked := true } } : Block).applyHigh fn 0x500010 (BitVec.ofNat 32 value)

/-- The queried granule, if it is inside the range and the directory. -/
def Block.queried (b : Block) : Option (Nat × Nat) :=
  match place (b.fget F.dirQueryLo + 2 ^ 32 * b.fget F.dirQueryHi) with
  | .unified f g _ => if g < b.dirSize then some (f, g) else none
  | _ => none

/-- The bytes of a directory entry (R90). -/
def DirEntry.bits (e : DirEntry) : Nat :=
  packBits [(0, 3, e.state), (3, 3, e.hint), (6, 1, if e.writable then 1 else 0), (7, 1, if e.poison then 1 else 0), (8, 4, e.camp),
    (16, 16, e.object), (32, 32, e.locA), (64, 32, e.locB), (96, 2, e.tierA), (98, 2, e.tierB)]

/-- Resident firmware rebuilds the directory entries that were lost, from its object records (R117, R166). -/
def Block.rebuildEntries (b : Block) : Block :=
  let mine := b.integ.acts.filter fun a => a.kind == 1
  let mem := mine.foldl (fun m a => if a.addr = 0 then m else
    { m with poison := sset (fun _ => false) m.poison a.addr false, bad := sset (fun _ => 0) m.bad a.addr 0 }) b.mem
  { b with mem := mem, integ := { b.integ with acts := b.integ.acts.filter fun a => a.kind != 1 } }

/-- The SRAM frames of a field that hold homes or copies (R114). -/
def Block.sramHeld (b : Block) (f : Nat) : Nat :=
  ((b.fieldDir f).filter fun ge =>
    if ge.2.state = 5 ∨ ge.2.state = 6 then decide (ge.2.tierB = 1) else decide (ge.2.state ≠ 0) && decide (ge.2.tierA = 1)).length

/-! ### Camp reset (R110) -/

/-- A camp's queued moves are removed, its held operations discarded, its writable and unfinished objects unmapped. -/
def Block.tierCampReset (b : Block) (c : Nat) : Block :=
  let b1 : Block := { b with tier := { b.tier with
    moves := b.tier.moves.filter fun m => m.running || (b.dirEntry m.field m.granule).camp != c
    held := b.tier.held.filter fun h => (b.dirEntry h.1 h.2.1).camp != c
    waits := b.tier.waits.filter fun w => w.camp != c
    lates := b.tier.lates.filter fun x => x.1 != c
    objs := b.tier.objs.map fun kv => if kv.2.camp = c then (kv.1, { kv.2 with unmapping := 0 }) else kv
    announces := b.tier.announces.filter fun a => a.camp != c
    windows := b.tier.windows.filter fun w => w.camp != c } }
  b1.tier.objs.foldl (fun b kv =>
    if kv.2.camp = c ∧ 0 < kv.2.count ∧ (kv.2.writable = true ∨ kv.2.loading = true) then b.unmapObj (kv.1 / 2 ^ 16) (kv.1 % 2 ^ 16) else b) b1

end Sys2Proof.Machine
end

