-- ==== Sys2Proof/Machine/Pages.lean ====
section
/-! DEFINITION. Chapter 10: page tables and the page frame table (R256 to R260), pages and trays handed out and freed (R261,
R262, R268), drops (R166, R294), the prefix index (R271, R272), score eviction (R273), and walks (R266). -/
namespace Sys2Proof.Machine

/-! ### Tables -/

def pteKey (slot pair page : Nat) : Nat := (slot * 2 ^ 16 + pair) * 2 ^ 13 + page
def pageKey (f fr : Nat) : Nat := f * 2 ^ 20 + fr

/-- The bits of a PTE (R258). -/
def pteValid : Nat := 0x80000000
def pteDropped : Nat := 0x20000000
def pteHoled : Nat := 0x10000000

def Block.pte (b : Block) (slot pair page : Nat) : Nat := sget (fun _ => 0) b.page.ptes (pteKey slot pair page)

def Block.pageAt (b : Block) (f fr : Nat) : Option PageEnt := sget (fun _ => none) b.page.pages (pageKey f fr)

def Block.setPage (b : Block) (f fr : Nat) (x : Option PageEnt) : Block :=
  { b with page := { b.page with pages := sset (fun _ => none) b.page.pages (pageKey f fr) x } }

/-- Does a PTE name a page that stands (live, or reserved ahead)? -/
def pteStands (v : Nat) : Bool := decide (v ≠ 0) && !bitAt v 29 && (bitAt v 31 || !bitAt v 28)

def pteFrame (v : Nat) : Nat := v % 2 ^ 20

/-- The PTE as a reader sees it: SHARED from the reference count, HOLES from the hole mask (R258). -/
def Block.pteShown (b : Block) (f v : Nat) : Nat :=
  match (if pteStands v then b.pageAt f (pteFrame v) else none) with
  | some p => v ||| (if 1 < p.refcnt then 0x40000000 else 0) ||| (if p.holes = 0 then 0 else pteHoled)
  | none => v

/-! ### Slots and their requests -/

def Block.slot? (b : Block) (s : Nat) : Option Slot := b.serve.slots.find? fun x => x.slot == s

def Block.setSlot (b : Block) (s : Nat) (h : Slot → Slot) : Block :=
  { b with serve := { b.serve with slots := b.serve.slots.map fun x => if x.slot == s then h x else x } }

def Block.request? (b : Block) (c seq : Nat) : Option Request := b.serve.requests.find? fun r => r.camp == c && r.seq == seq

/-- The model of a slot. -/
def Block.slotModel (b : Block) (s : Nat) : Option Model :=
  match b.slot? s with
  | some x => b.model? x.camp x.model
  | none => none

/-! ### PTE blocks (R256, R257) -/

def sptKey (f n : Nat) : Nat := f * 2 ^ 32 + n

/-- No block: the end of a chain. -/
def noBlock : Nat := 0xFFFFFFFF

/-- The PTE blocks of a field: (block number, block). -/
def Block.fieldBlocks (b : Block) (f : Nat) : List (Nat × PteBlk) :=
  b.page.blocks.filterMap fun kv => if kv.1 / 2 ^ 32 = f then kv.2.map fun x => (kv.1 % 2 ^ 32, x) else none

/-- FIRST_PAGE of the block that holds a page's PTE: 28 PTEs a block, T page indices apart. -/
def blockFirst (team page : Nat) : Nat := page % team + 28 * team * (page / team / 28)

/-- The blocks of a pair of a slot in a field, in page order: its chain. -/
def Block.chain (b : Block) (f slot pair : Nat) : List (Nat × PteBlk) :=
  sortBy (fun x y => decide (x.2.first < y.2.first)) ((b.fieldBlocks f).filter fun x => x.2.slot == slot && x.2.pair == pair)

-- Log entry 195 (DESIGN CHOICE).
/-- The lowest block number from `n` on that no block of the field has (the fuel is the number of blocks). -/
def Block.freeBlock (b : Block) (f : Nat) : Nat → Nat → Nat
  | 0, n => n
  | k + 1, n => if (sget (fun _ => none) b.page.blocks (sptKey f n)).isSome then Block.freeBlock b f k (n + 1) else n

def Block.putBlock (b : Block) (f n : Nat) (x : Option PteBlk) : Block :=
  { b with page := { b.page with blocks := sset (fun _ => none) b.page.blocks (sptKey f n) x } }

-- Log entry 195 (DESIGN CHOICE).
/-- A PTE's block stands exactly while one of its PTEs is in use: it is taken with the first and freed with the last. -/
def Block.holdBlock (b : Block) (slot pair page : Nat) : Block :=
  match b.slotModel slot with
  | some m =>
    let f := m.pageField pair page
    let first := blockFirst m.team page
    let used := (List.range 28).any fun n => decide (b.pte slot pair (first + n * m.team) ≠ 0)
    match (b.chain f slot pair).find? fun x => x.2.first == first with
    | some x => if used then b else b.putBlock f x.1 none
    | none => if used then b.putBlock f (b.freeBlock f (b.fieldBlocks f).length 0) (some ⟨slot, pair, first⟩) else b
  | none => b

/-- Write a PTE; its block is taken or freed with it. -/
def Block.setPte (b : Block) (slot pair page v : Nat) : Block :=
  ({ b with page := { b.page with ptes := sset (fun _ => 0) b.page.ptes (pteKey slot pair page) v } } : Block).holdBlock slot pair page

/-- The root entry of a pair in a slot's table (R256): FIRST and LAST. -/
def Block.sptRoot (b : Block) (f slot pair : Nat) : Nat :=
  let l := (b.chain f slot pair).map (·.1)
  packBits [(0, 32, l.headD noBlock), (32, 32, l.getLastD noBlock)]

-- Log entry 195 (DESIGN CHOICE).
/-- The root of a slot's table in a field (R256): an entry for each pair of the field's team, in ascending pair order. -/
def Block.sptRoots (b : Block) (f slot : Nat) : List Nat :=
  match b.slotModel slot with
  | some m => (m.pairList.filter fun p => decide (m.pairRank p % m.teams = f / m.team)).map (b.sptRoot f slot)
  | none => []

/-- NEXT of a block: the block of its pair that follows it in page order. -/
def Block.nextBlock (b : Block) (f n : Nat) (x : PteBlk) : Nat :=
  (((b.chain f x.slot x.pair).dropWhile fun y => y.1 != n).map (·.1)).getD 1 noBlock

-- Log entry 195 (DESIGN CHOICE).
/-- A PTE block's 128 bytes (R257). -/
def Block.pteBlock (b : Block) (f n : Nat) : Nat :=
  match sget (fun _ => none) b.page.blocks (sptKey f n) with
  | some x =>
    let team := match b.slotModel x.slot with | some m => m.team | none => 0
    let ptes := (List.range 28).map fun k => b.pteShown f (b.pte x.slot x.pair (x.first + k * team))
    packBits ([(0, 32, b.nextBlock f n x), (32, 16, x.pair), (48, 13, x.first), (64, 5, (ptes.filter (· ≠ 0)).length), (72, 7, team)] ++
      (List.range 28).map fun k => (128 + 32 * k, 32, ptes.getD k 0))
  | none => 0

/-- The blocks of a chain from block `n` on, along NEXT (the fuel bounds the chain). -/
def Block.follow (b : Block) (f : Nat) : Nat → Nat → List Nat
  | 0, _ => []
  | k + 1, n => if n = noBlock then [] else n :: Block.follow b f k (bitsOf (b.pteBlock f n) 0 32)

/-! ### Pages handed out and freed -/

/-- May an aligned run of frames join a pool? -/
def Block.runFree (b : Block) (f n pf : Nat) : Bool := (List.range pf).all fun i => b.frameFree f 2 (n + i)

-- Log entries 27 (DESIGN CHOICE), 72 (DEDUCED).
/-- The lowest aligned free runs from frame `n` on, at most `count` (the fuel bounds the search). -/
def Block.findRuns (b : Block) (f pf : Nat) : Nat → Nat → Nat → List Nat
  | 0, _, _ => []
  | k + 1, count, n =>
    if count = 0 then []
    else if b.runFree f n pf then n :: Block.findRuns b f pf k (count - 1) (n + pf)
    else Block.findRuns b f pf k count (n + pf)

-- Log entry 72 (DEDUCED).
/-- A model's pool in a field is brought up to `count` runs: those it has, those of the model's pages in use, and the lowest
aligned free runs (R261). -/
def Block.fillPool (b : Block) (m : Model) (f count : Nat) : Block :=
  let mine := b.pool m f
  let held := b.page.pages.filterMap fun kv => match kv.2 with
    | some p => if kv.1 / 2 ^ 20 = f ∧ p.camp = m.camp ∧ p.model = m.id ∧ mine.contains (kv.1 % 2 ^ 20) = false then some (kv.1 % 2 ^ 20) else none
    | none => none
  let have_ := mine ++ held
  b.setPool m f (sortBy (fun x y => decide (x < y)) (have_ ++ b.findRuns f m.pf (1048576 / max 1 m.pf) (count - have_.length) 0))

/-- Does a run of a pool hold no page, all its frames free? -/
def Block.runIdle (b : Block) (m : Model) (f n : Nat) : Bool :=
  (b.pageAt f n).isNone && (List.range m.pf).all fun i => decide ((b.frame f 2 (n + i)).use = 0)

-- Log entry 72 (DEDUCED).
/-- The free pages of a model in a field: whole runs of its pool that can hold a page (R275). -/
def Block.freePages (b : Block) (m : Model) (f : Nat) : Nat := ((b.pool m f).filter (b.runIdle m f)).length

/-- The dark channels of a field as CHAN_READY has them. -/
def Block.darkMask (b : Block) (f : Nat) : Nat :=
  packBits ((List.range 32).map fun n => (n, 1, if (b.chan f n).state = 3 then 1 else 0))

-- Log entry 196 (DEDUCED).
/-- Placement takes account of the channels that have gone dark (R28, R111): the capacity falls, and a pool run with a frame in
one leaves its pool (R275). -/
def Block.applyCapacity (b : Block) : Block :=
  let fs := (List.range 96).filter fun f => decide (b.capDark f ≠ b.darkMask f)
  let b1 := fs.foldl (fun b f => ({ b with tier := { b.tier with capDark := sset (fun _ => 0) b.tier.capDark f (b.darkMask f) } } : Block)) b
  fs.foldl (fun b f => b.serve.models.foldl (fun b m =>
    b.setPool m f ((b.pool m f).filter fun r => (List.range m.pf).all fun i => b.dramFrameOk f (r + i))) b) b1

-- Log entry 196 (DEDUCED).
/-- Without a step in progress a change of capacity is taken account of at once. -/
def Block.noteCapacity (b : Block) : Block := if b.idleCamps.length = 16 then b.applyCapacity else b

-- Log entry 72 (DEDUCED).
/-- Hand out a page of a model in a field: the lowest idle run of its pool, filled with zeros when another camp had it (R131,
R261). -/
def Block.takePage (b : Block) (m : Model) (f : Nat) : Option (Nat × Block) :=
  match (b.pool m f).find? (b.runIdle m f) with
  | some n =>
    let b1 := (List.range m.pf).foldl (fun b i => b.takeFrame f 2 (n + i) 2 m.camp false) b
    some (n, b1.setPage f n (some ⟨m.camp, m.id, m.pf, 1, 0, 5, false, false, false⟩))
  | none => none

/-- The entry of a DRAM frame in the page frame table (R259), outside the SPT region. -/
def Block.frameEntry (b : Block) (f n : Nat) : Nat :=
  match b.page.pages.find? fun kv => decide (kv.1 / 2 ^ 20 = f) && match kv.2 with
    | some p => decide (kv.1 % 2 ^ 20 ≤ n) && decide (n < kv.1 % 2 ^ 20 + p.frames)
    | none => false with
  | some kv =>
    let off := n - kv.1 % 2 ^ 20
    match kv.2 with
    | some p =>
      if off = 0 then packBits [(0, 16, p.refcnt), (16, 16, p.holes), (32, 4, p.kind), (36, 4, p.camp), (48, 1, if p.sealed then 1 else 0),
        (49, 1, if p.indexed then 1 else 0), (50, 1, if p.dropped then 1 else 0)]
      else packBits [(32, 4, 3), (36, 4, p.camp), (40, 3, off)]
    | none => 0
  | none => match b.serve.models.find? fun m => (b.pool m f).any fun r => decide (r ≤ n) && decide (n < r + m.pf) with
    | some m => packBits [(32, 4, 1), (36, 4, m.camp)]
    | none => 0

-- Log entry 226 (DESIGN CHOICE).
/-- Page services hand the key and the value half of some work of `n` bytes each to the field's DMA engine (R274). Less than 4 KiB runs in
the floor, at once. -/
def Block.pageElems (b : Block) (kind camp f slot pair page n : Nat) : Block :=
  if n < 4096 then b
  else { b with page := { b.page with elems := b.page.elems ++
    [⟨kind, camp, f, slot, pair, page, false, n⟩, ⟨kind, camp, f, slot, pair, page, true, n⟩] } }

/-- Elements of page services are no longer wanted: their slots are free again (R276). -/
def Block.dropElems (b : Block) (out : PageElem → Bool) : Block :=
  let b1 := b.endWorks fun _ u => match u.work with | .elem (.page e) => out e | _ => false
  { b1 with page := { b1.page with elems := b1.page.elems.filter fun e => !out e } }

/-- A reference to a page ends; the last one frees its frames. -/
def Block.unref (b : Block) (f fr : Nat) : Block :=
  match b.pageAt f fr with
  | some p =>
    if 1 < p.refcnt then b.setPage f fr (some { p with refcnt := p.refcnt - 1 })
    else (List.range p.frames).foldl (fun b i => b.retireFrame f 2 (fr + i))
      { b with page := { b.page with pages := sset (fun _ => none) b.page.pages (pageKey f fr) none
                                     mass := sset (fun _ => 0) b.page.mass (pageKey f fr) 0 } }
  | none => b

/-- Reserve a new page for a slot's pair and page (R270). -/
def Block.reservePage (b : Block) (m : Model) (slot pair page : Nat) : Block :=
  match b.takePage m (m.pageField pair page) with
  | some (fr, b1) => b1.setPte slot pair page fr
  | none => b

/-- Reserve a row: a page of every pair. -/
def Block.reserveRow (b : Block) (m : Model) (slot i : Nat) : Block :=
  m.pairList.foldl (fun b p => b.reservePage m slot p i) b

/-- Is a row of a slot allocated? -/
def Block.rowHeld (b : Block) (m : Model) (slot i : Nat) : Bool :=
  match m.pairList with
  | [] => true
  | p :: _ => decide (b.pte slot p i ≠ 0)

/-- A row's pages first hold a position: VALID becomes 1 (R258). -/
def Block.validRow (b : Block) (m : Model) (slot i : Nat) : Block :=
  m.pairList.foldl (fun b p =>
    let v := b.pte slot p i
    if pteStands v ∧ bitAt v 31 = false then
      let f := m.pageField p i
      let b1 := b.setPte slot p i (v ||| pteValid)
      match b1.pageAt f (pteFrame v) with
      | some x => b1.setPage f (pteFrame v) (some { x with kind := 2 })
      | none => b1
    else b) b

/-- A page now holds 256 positions: sealed and counted (R263). -/
def Block.sealPage (b : Block) (f fr : Nat) : Block :=
  match b.pageAt f fr with
  | some x => if x.sealed then b else (b.setPage f fr (some { x with sealed := true })).bump (F.seals f)
  | none => b

def Block.sealRow (b : Block) (m : Model) (slot i : Nat) : Block :=
  m.pairList.foldl (fun b p => b.sealPage (m.pageField p i) (pteFrame (b.pte slot p i))) b

-- Log entry 74 (DEDUCED).
/-- A private copy of the positions below `n` of a page (R268): keys and values. -/
def Block.copyPage (b : Block) (m : Model) (slot pair page n : Nat) : Block :=
  let f := m.pageField pair page
  let v := b.pte slot pair page
  let old := pteFrame v
  match b.takePage m f with
  | some (fr, b1) =>
    let src := frameAddr f 2 old
    let dst := frameAddr f 2 fr
    let k := cdiv (n * 2 * m.dim) 32
    let part (b : Block) (o : Nat) : Block := ((b.chargeBulk m.camp true (src + o) (32 * k)).copyBytes (dst + o) (src + o) (32 * k)).chargeBulk m.camp false (dst + o) (32 * k)
    let b2 := part (part b1 0) (512 * m.dim)
    let b3 := match b2.pageAt f fr, b2.pageAt f old with
      | some x, some o => b2.setPage f fr (some { x with kind := 2, holes := o.holes, sealed := o.sealed })
      | _, _ => b2
    ((b3.setPte slot pair page (v - old + fr)).unref f old).pageElems 0 m.camp f slot pair page (n * 2 * m.dim)
  | none => b

/-- The pages of a slot's row that are shared, as the fields they stand in. -/
def Block.sharedFields (b : Block) (m : Model) (slot i : Nat) : List Nat :=
  m.pairList.filterMap fun p =>
    let f := m.pageField p i
    match (if pteStands (b.pte slot p i) then b.pageAt f (pteFrame (b.pte slot p i)) else none) with
    | some x => if 1 < x.refcnt then some f else none
    | none => none

-- Log entry 74 (DEDUCED).
/-- Private copies of the shared pages of a row, counted (R268). -/
def Block.privateRow (b : Block) (m : Model) (slot i n : Nat) : Block :=
  m.pairList.foldl (fun b p =>
    let f := m.pageField p i
    match (if pteStands (b.pte slot p i) then b.pageAt f (pteFrame (b.pte slot p i)) else none) with
    | some x => if 1 < x.refcnt then (b.copyPage m slot p i n).bump F.cowCopies else b
    | none => b) b

/-- The PTEs of a slot: (pair, page, PTE). -/
def Block.slotPtes (b : Block) (slot : Nat) : List (Nat × Nat × Nat) :=
  (b.page.ptes.filter fun kv => decide (kv.1 / 2 ^ 29 = slot)).map fun kv => (kv.1 / 2 ^ 13 % 2 ^ 16, kv.1 % 2 ^ 13, kv.2)

/-- A slot's pages leave: every reference released, every PTE gone. -/
def Block.freePages' (b : Block) (m : Model) (slot : Nat) : Block :=
  let b1 := (b.slotPtes slot).foldl (fun b x =>
    if pteStands x.2.2 then b.unref (m.pageField x.1 x.2.1) (pteFrame x.2.2) else b) b
  { b1 with page := { b1.page with
      ptes := b1.page.ptes.filter fun kv => decide (kv.1 / 2 ^ 29 ≠ slot)
      blocks := b1.page.blocks.filter fun kv => match kv.2 with | some x => x.slot != slot | none => false } }

/-! ### Trays (R262) -/

/-- The ready TRAY banks of a field. -/
def Block.trayBanks (b : Block) (f : Nat) : List Nat := (List.range 24).filter fun k => b.bankReady f k && decide (b.bankMode f k = 2)

/-- The bytes of a field's TRAY banks that row buffers hold (R302). -/
def Block.trayTaken (b : Block) : Nat := (b.serve.models.map fun m => m.trayKib * 1024).foldl (· + ·) 0

-- Log entry 173 (DEDUCED).
/-- A field's trays: (byte offset, tray). -/
def Block.fieldTrays (b : Block) (f : Nat) : List (Nat × TrayEnt) :=
  b.page.trays.filterMap fun kv => if kv.1 / 2 ^ 27 = f then kv.2.map fun t => (kv.1 % 2 ^ 27, t) else none

/-- The bytes of a field's TRAY banks that trays may use. -/
def Block.trayRoom (b : Block) (f : Nat) : Nat := (b.trayBanks f).length * 0x400000 - b.trayTaken

/-- Free trays of a model in a field. -/
def Block.freeTrays (b : Block) (m : Model) (f : Nat) : Nat :=
  if m.trayBytes = 0 then 0 else (b.trayRoom f - ((b.fieldTrays f).map fun (x : Nat × TrayEnt) => x.2.bytes).foldl (· + ·) 0) / m.trayBytes

/-- Is a tray's place free: inside the room, inside one bank, and clear of every tray? -/
def Block.trayFits (b : Block) (f off size : Nat) : Bool :=
  decide (off + size ≤ b.trayRoom f) && decide (off / 0x400000 = (off + size - 1) / 0x400000) &&
  (b.fieldTrays f).all fun x => decide (off + size ≤ x.1) || decide (x.1 + x.2.bytes ≤ off)

/-- The lowest free place: at the start of a bank or behind a tray. -/
def Block.trayPlace (b : Block) (f size : Nat) : Option Nat :=
  (((List.range 24).map (· * 0x400000) ++ (b.fieldTrays f).map fun (x : Nat × TrayEnt) => x.1 + x.2.bytes).filter fun o => b.trayFits f o size).foldl
    (fun best o => some (match best with | none => o | some x => min x o)) none

/-- The physical address of a tray byte. -/
def Block.trayAddr (b : Block) (f off : Nat) : Nat :=
  sramBase + f * 0x10000000 + (b.trayBanks f).getD (off / 0x400000) 0 * 0x400000 + off % 0x400000

/-- Take the trays of a slot's row: one per pair, in the field of the pair's page (R262). -/
def Block.takeTrays (b : Block) (m : Model) (slot i : Nat) : Block :=
  m.pairList.foldl (fun b p =>
    let f := m.pageField p i
    match b.trayPlace f m.trayBytes with
    | some o =>
      let t : TrayEnt := ⟨slot, p, m.camp, m.trayBytes, false, false⟩
      { b with page := { b.page with trays := sset (fun _ => none) b.page.trays (f * 2 ^ 27 + o) (some t) } }
    | none => b) b

/-- A slot's trays leave, and with them its elements that wait. -/
def Block.freeTraysOf (b : Block) (slot : Nat) : Block :=
  let b1 := b.dropElems fun e => e.slot == slot
  { b1 with page := { b1.page with trays := b1.page.trays.filter fun kv => match kv.2 with | some t => t.slot != slot | none => false } }

/-- A tray's entry in the page frame table (R259): FILL is what R263 gives for its sequence. -/
def Block.trayEntry (b : Block) (t : TrayEnt) : Nat :=
  let fill := match b.slot? t.slot, b.slotModel t.slot with
    | some s, some m => s.t % max 1 m.depth
    | _, _ => 0
  packBits [(0, 16, t.slot), (16, 16, t.pair), (32, 6, fill), (40, 4, t.camp)]

/-- A slot's tray of a pair: its field and offset. -/
def Block.trayOf (b : Block) (slot pair : Nat) : Option (Nat × Nat) :=
  (b.page.trays.find? fun kv => match kv.2 with | some t => t.slot == slot && t.pair == pair | none => false).map fun kv =>
    (kv.1 / 2 ^ 27, kv.1 % 2 ^ 27)

/-! ### Drops (R166, R294, R258) -/

/-- An index entry leaves: its references are released. -/
def Block.dropIndex (b : Block) (e : PrefixEnt) : Block :=
  let b1 := e.pages.foldl (fun b p =>
    let b' := match b.pageAt p.2.1 p.2.2 with
      | some x => b.setPage p.2.1 p.2.2 (some { x with indexed := false })
      | none => b
    b'.unref p.2.1 p.2.2) b
  { b1 with page := { b1.page with index := b1.page.index.filter (· != e) } }

/-- The slots whose table names a page of a field. -/
def Block.pageUsers (b : Block) (f fr : Nat) : List (Nat × Nat × Nat) :=
  (b.page.ptes.filter fun kv => pteStands kv.2 && decide (pteFrame kv.2 = fr) &&
    match b.slotModel (kv.1 / 2 ^ 29) with
    | some m => decide (m.pageField (kv.1 / 2 ^ 13 % 2 ^ 16) (kv.1 % 2 ^ 13) = f)
    | none => false).map fun kv => (kv.1 / 2 ^ 29, kv.1 / 2 ^ 13 % 2 ^ 16, kv.1 % 2 ^ 13)

/-- A page is lost: every PTE naming it gets the dropped bit, and it leaves the prefix index (R166). -/
def Block.dropPage (b : Block) (f fr : Nat) : Block :=
  let users := b.pageUsers f fr
  let entries := b.page.index.filter fun e => e.pages.any fun p => p.2.1 == f && p.2.2 == fr
  let b1 := entries.foldl Block.dropIndex b
  let b2 := match b1.pageAt f fr with
    | some x => b1.setPage f fr (some { x with dropped := true })
    | none => b1
  users.foldl (fun b u => b.setPte u.1 u.2.1 u.2.2 (b.pte u.1 u.2.1 u.2.2 ||| pteDropped)) b2

/-- The page whose frames hold a frame of a field. -/
def Block.pageOfFrame (b : Block) (f n : Nat) : Option (Nat × PageEnt) :=
  (b.page.pages.find? fun kv => decide (kv.1 / 2 ^ 20 = f) && match kv.2 with
    | some p => decide (kv.1 % 2 ^ 20 ≤ n) && decide (n < kv.1 % 2 ^ 20 + p.frames)
    | none => false).bind fun kv => kv.2.map fun p => (kv.1 % 2 ^ 20, p)

/-- The pages of a field with a lost frame are dropped and counted (R275, R137). -/
def Block.pagesLose (b : Block) (f : Nat) (lost : Nat → Bool) : Block :=
  (b.page.pages.filter fun kv => decide (kv.1 / 2 ^ 20 = f) && match kv.2 with
    | some p => !p.dropped && (List.range p.frames).any fun i => lost (kv.1 % 2 ^ 20 + i)
    | none => false).foldl (fun b kv => (b.dropPage f (kv.1 % 2 ^ 20)).bump (F.darkDrops f)) b

/-- At a boundary of a camp the frames of dropped pages are freed, and their PTEs read 0x2000_0000 (R258). -/
def Block.freeDropped (b : Block) (c : Nat) : Block :=
  (b.serve.slots.filter fun s => s.camp == c).foldl (fun b s =>
    match b.slotModel s.slot with
    | some m => (b.slotPtes s.slot).foldl (fun b x =>
        if bitAt x.2.2 29 ∧ x.2.2 ≠ pteDropped then
          (b.setPte s.slot x.1 x.2.1 pteDropped).unref (m.pageField x.1 x.2.1) (pteFrame x.2.2)
        else b) b
    | none => b) b

/-- The rows of a slot with a dropped page. -/
def Block.droppedRows (b : Block) (slot : Nat) : List Nat :=
  (((b.slotPtes slot).filter fun x => bitAt x.2.2 29).map fun x => x.2.1).dedup

/-! ### The prefix index (R271, R272) -/

/-- The bytes that a key hashes: the key before it and 256 token ids. -/
def prefixBytes (h : Nat) (toks : List Nat) : List Nat :=
  ((bytesLE 8 h) ++ toks.flatMap (bytesLE 4)).map fun (x : Byte) => x.toNat

/-- h_i from h_(i-1): the first 8 bytes of the digest, little-endian. -/
def prefixNext (h : Nat) (toks : List Nat) : Nat := sha256LE (prefixBytes h toks) % 2 ^ 64

/-- The keys of the first `n` whole pages of a token sequence: (h_i, the page's ids). -/
def prefixKeys (toks : List Nat) : Nat → Nat → List (Nat × List Nat)
  | 0, _ => []
  | n + 1, h =>
    let page := toks.take 256
    let k := prefixNext h page
    (k, page) :: prefixKeys (toks.drop 256) n k

/-- Is the prefix index on for a camp, under the value that the camp last took up (R9)? -/
def Block.prefixOn (b : Block) (c : Nat) : Bool := bitAt (b.inForceFor c F.prefixConfigCampMask) c

/-- The entry of a key, whatever its token ids. -/
def Block.prefixFind (b : Block) (m : Model) (h : Nat) : Option PrefixEnt :=
  b.page.index.find? fun e => e.camp == m.camp && e.model == m.id && e.hash == h

/-- Look up keys until the first miss (R272): the hits, with lookups and collisions counted and raised. -/
def Block.prefixLookup (b : Block) (m : Model) (slotVal : Nat) : Nat → List (Nat × List Nat) → List PrefixEnt × Block
  | _, [] => ([], b)
  | i, (h, toks) :: r =>
    let b1 := b.bump F.prefixLookups
    match b1.prefixFind m h with
    | none => ([], b1)
    | some e =>
      if e.toks = toks then
        let x := Block.prefixLookup b1 m slotVal (i + 1) r
        (e :: x.1, x.2)
      else ([], (b1.bump F.prefixCollisions).raise 0x0521 0xFF m.camp (packBits [(0, 32, slotVal), (32, 32, i), (64, 64, h)]))

/-- Does an entry hold a page that no sequence uses (R272)? -/
def Block.indexOnly (b : Block) (e : PrefixEnt) : Bool :=
  e.pages.any fun p => match b.pageAt p.2.1 p.2.2 with | some x => decide (x.refcnt = 1) | none => false

/-- The least recently matched entry of a list. -/
def leastMatched : List PrefixEnt → Option PrefixEnt
  | [] => none
  | e :: r => match leastMatched r with
    | some x => if x.matched < e.matched then some x else some e
    | none => some e

/-- The index's limit in force (R9). -/
def Block.indexMax (b : Block) : Nat := b.inForce F.prefixConfigMaxEntriesK * 1024

/-- Make entries give way until the index is within a limit (the fuel is its length) (R9, R272). -/
def Block.trimIndex (b : Block) (limit : Nat) : Nat → Block
  | 0 => b
  | n + 1 =>
    if b.page.index.length ≤ limit then b
    else match leastMatched (b.page.index.filter b.indexOnly) with
      | some e => Block.trimIndex (b.dropIndex e) limit n
      | none => b

/-- Entries over the limit in force give way as pages are released (R9). -/
def Block.trimNow (b : Block) : Block := b.trimIndex b.indexMax b.page.index.length

/-- A sealed row of a sequence enters the index, if there is room (R272). -/
def Block.indexRow (b : Block) (m : Model) (slot i h : Nat) (toks : List Nat) : Block :=
  let pages := m.pairList.map fun p => (p, m.pageField p i, pteFrame (b.pte slot p i))
  let whole := m.pairList.all fun p =>
    bitAt (b.pte slot p i) 31 && pteStands (b.pte slot p i) && match b.pageAt (m.pageField p i) (pteFrame (b.pte slot p i)) with
      | some x => x.sealed && decide (x.holes = 0) && !x.dropped && decide (x.refcnt < 65535)
      | none => false
  if whole = false ∨ b.prefixOn m.camp = false ∨ (b.prefixFind m h).isSome = true then b
  else
    let b1 := if b.page.index.length < b.indexMax then b else b.trimIndex (b.indexMax - 1) b.page.index.length
    if b1.page.index.length < b1.indexMax then
      let b2 := pages.foldl (fun b p => match b.pageAt p.2.1 p.2.2 with
        | some x => b.setPage p.2.1 p.2.2 (some { x with indexed := true, refcnt := x.refcnt + 1 })
        | none => b) b1
      { b2 with page := { b2.page with index := b2.page.index ++ [⟨m.camp, m.id, i, h, toks, pages, b.fab.time⟩] } }
    else b1

/-- A hit row is shared into a slot (R267 step 1, R269): references rise, or private copies are made past 65,535. -/
def Block.shareRow (b : Block) (m : Model) (slot i : Nat) (pages : List (Nat × Nat × Nat)) : Block :=
  pages.foldl (fun b p =>
    match b.pageAt p.2.1 p.2.2 with
    | some x =>
      let b1 := b.setPte slot p.1 i (pteValid + p.2.2)
      if x.refcnt < 65535 then b1.setPage p.2.1 p.2.2 (some { x with refcnt := x.refcnt + 1 })
      else
        -- the copy's release of the original is given back
        let b2 := (b1.setPage p.2.1 p.2.2 (some { x with refcnt := x.refcnt + 1 })).copyPage m slot p.1 i 256
        b2.bump F.refcntCopies
    | none => b) b

/-- A fork's table names every page of fork 0 (R267). -/
def Block.forkPages (b : Block) (m : Model) (slot0 slot : Nat) : Block :=
  (b.slotPtes slot0).foldl (fun b x =>
    if pteStands x.2.2 then
      let f := m.pageField x.1 x.2.1
      match b.pageAt f (pteFrame x.2.2) with
      | some p =>
        let b1 := b.setPte slot x.1 x.2.1 x.2.2
        if p.refcnt < 65535 then b1.setPage f (pteFrame x.2.2) (some { p with refcnt := p.refcnt + 1 })
        else ((b1.setPage f (pteFrame x.2.2) (some { p with refcnt := p.refcnt + 1 })).copyPage m slot x.1 x.2.1 256).bump F.refcntCopies
      | none => b
    else b.setPte slot x.1 x.2.1 x.2.2) b

/-- Fork 0's trays are copied into a fork's (R267). -/
def Block.forkTrays (b : Block) (m : Model) (slot0 slot : Nat) : Block :=
  m.pairList.foldl (fun b p =>
    match b.trayOf slot0 p, b.trayOf slot p with
    | some (f, o), some (f', o') => (b.copyBytes (b.trayAddr f' o') (b.trayAddr f o) (m.trayBytes / 32 * 32)).pageElems 1 m.camp f' slot p 0 (m.trayBytes / 2)
    | _, _ => b) b

/-! ### Score eviction (R273) -/

-- Log entry 78 (DEDUCED).
/-- The mass of a block of a page, as an exact number. -/
def Block.blockMass (b : Block) (f fr n : Nat) : Int × Int := f32Val (bitsOf (sget (fun _ => 0) b.page.mass (pageKey f fr)) (32 * n) 32)

-- Log entry 78 (DEDUCED).
/-- The mass of a pair over a sequence, summed exactly. -/
def Block.pairMass (b : Block) (m : Model) (slot pair : Nat) : Int × Int :=
  ((b.slotPtes slot).filter fun x => decide (x.1 = pair) && pteStands x.2.2).foldl (fun s x =>
    (List.range 16).foldl (fun s n => dyAdd s (b.blockMass (m.pageField x.1 x.2.1) (pteFrame x.2.2) n)) s) (0, 0)

/-- An eligible block: its mass, its pair's total, and where it lies. -/
structure EvictBlock where
  mass : Int × Int
  total : Int × Int
  slot : Nat
  pair : Nat
  page : Nat
  blk : Nat

/-- The eligible blocks of a page of a sequence with `t` positions. -/
def Block.eligible (b : Block) (m : Model) (s : Slot) (pair page v : Nat) : List EvictBlock :=
  let f := m.pageField pair page
  match b.pageAt f (pteFrame v) with
  | some p =>
    if p.sealed = false ∨ p.dropped = true then []
    else
      let total := b.pairMass m s.slot pair
      (List.range 16).filterMap fun n =>
        let mass := b.blockMass f (pteFrame v) n
        if bitAt p.holes n = false ∧ b.inForceFor s.camp F.evictConfigProtectFirst ≤ 16 * page + n ∧
            256 * page + 16 * n + 15 + b.inForceFor s.camp F.evictWindowProtectLast < s.t ∧
            dyLt mass (total.1 * b.inForceFor s.camp F.evictWindowMassThresh, total.2 - 16) = true then
          some ⟨mass, total, s.slot, pair, page, n⟩
        else none
  | none => []

-- Log entry 78 (DEDUCED).
/-- A lower share of its pair's mass: cross-multiplied. -/
def EvictBlock.lower (x y : EvictBlock) : Bool := dyLt (dyMul x.mass y.total) (dyMul y.mass x.total)

/-- Put a block into a list in order of share. -/
def insertShare (x : EvictBlock) : List EvictBlock → List EvictBlock
  | [] => [x]
  | y :: r => if x.lower y then x :: y :: r else y :: insertShare x r

/-- Hole a block of a sequence: on a private page its bit, and the page freed once all 16 are holed; on a shared page the
sequence's reference dropped when all 16 are holed (`n` of them now), else a private copy first while a page is free. -/
def Block.holeBlock (b : Block) (m : Model) (x : EvictBlock) (n : Nat) : Block :=
  let f := m.pageField x.pair x.page
  let v := b.pte x.slot x.pair x.page
  let mark (b : Block) (n : Nat) : Block := (b.count F.evictBlocks n).setSlot x.slot fun s => { s with holes := true }
  match (if pteStands v then b.pageAt f (pteFrame v) else none) with
  | some p =>
    if 1 < p.refcnt ∧ n + ((List.range 16).filter (bitAt p.holes)).length = 16 then
      ((mark b n).setPte x.slot x.pair x.page pteHoled).unref f (pteFrame v)
    else if 1 < p.refcnt ∧ b.freePages m f = 0 then b
    else
      let b1 := if 1 < p.refcnt then (b.copyPage m x.slot x.pair x.page 256).bump F.cowCopies else b
      let fr := pteFrame (b1.pte x.slot x.pair x.page)
      match b1.pageAt f fr with
      | some q =>
        let holes := setBit q.holes x.blk true
        let b2 := mark (b1.setPage f fr (some { q with holes := holes })) 1
        if holes = 65535 then ((b2.setPte x.slot x.pair x.page pteHoled).unref f fr).bump F.evictPagesFreed else b2
      | none => b1
  | none => b

/-- Score eviction in one short field: eligible blocks are holed, lowest share first, until `need` pages are free. -/
def Block.evictField (b : Block) (m : Model) (f need : Nat) : Block :=
  let seqs := b.serve.slots.filter fun s => s.camp == m.camp && (match b.request? s.camp s.seq with | some r => r.model == m.id | none => false)
  let blocks := seqs.flatMap fun s =>
    (b.slotPtes s.slot).flatMap fun x => if pteStands x.2.2 ∧ m.pageField x.1 x.2.1 = f then b.eligible m s x.1 x.2.1 x.2.2 else []
  (blocks.foldl (fun l x => insertShare x l) []).foldl (fun b x =>
    if need ≤ b.freePages m f then b
    else (b.holeBlock m x (blocks.filter fun y => y.slot == x.slot && y.pair == x.pair && y.page == x.page).length).trimNow) b

/-! ### Walks and queries (R266, R278) -/

/-- The walk record of a page (R266). -/
def Block.walkRecord (b : Block) (f slot pair page : Nat) : Nat :=
  let v := b.pteShown f (b.pte slot pair page)
  let holes := if bitAt v 31 = false then 0xFFFF
    else if bitAt v 28 then (match b.pageAt f (pteFrame v) with | some p => p.holes | none => 0) else 0
  packBits [(0, 32, v), (32, 16, holes), (48, 13, page)]

/-- The blocks of a pair's chain that hold a page of a range: (block number, block). -/
def Block.walkBlocks (b : Block) (f slot pair first last team : Nat) : List (Nat × PteBlk) :=
  (b.follow f (b.fieldBlocks f).length (bitsOf (b.sptRoot f slot pair) 0 32)).filterMap fun n =>
    match sget (fun _ => none) b.page.blocks (sptKey f n) with
    | some x => if x.first ≤ last ∧ first ≤ x.first + 27 * team then some (n, x) else none
    | none => none

-- Log entry 218 (DESIGN CHOICE).
/-- The channels that a walk's reads pass, at the camp's tokens (R118, R128): the pair's root and the first-frame table's entries as narrow
reads, each PTE block as a burst. -/
def Block.chargeWalk (b : Block) (camp f slot : Nat) (blocks : List Nat) (holed : List Nat) : Block :=
  let b1 := b.charge camp f (slot % 32) 0 1
  let b2 := blocks.foldl (fun b n => b.charge camp f (n / 256 % 32) 1 0) b1
  holed.foldl (fun b fr => b.charge camp f (fr % 32) 0 1) b2

/-- PAGE_WALK: the walker of field f follows the chain of a slot's pair, reads each PTE block in the page range with one burst, and
writes one record per PTE into a core's local memory, in page order. -/
def pageWalkEff (f slot pair first last core off : Nat) (b : Block) : Block :=
  match b.slotModel slot with
  | some m =>
    let blocks := b.walkBlocks f slot pair first last m.team
    let pages := blocks.flatMap fun x => (List.range 28).filterMap fun n =>
      let i := x.2.first + n * m.team
      if first ≤ i ∧ i ≤ last ∧ b.pte slot pair i ≠ 0 then some i else none
    let p := localAddr f core off
    let r := pages.foldl (fun (x : Block × Nat) i =>
      (x.1.storeBytes (p + 8 * x.2) 8 (bytesLE 8 (x.1.walkRecord f slot pair i)), x.2 + 1)) (b, 0)
    let holed := (pages.map fun i => b.pte slot pair i).filter fun v => bitAt v 31 && bitAt v 28
    ((r.1.bump (F.walks f)).count (F.walkBlocks f) blocks.length).chargeWalk m.camp f slot (blocks.map (·.1)) (holed.map pteFrame)
  | none => b

/-- PAGE_QUERY: the write of PAGE_QUERY0 or PAGE_QUERY1 selects what PAGE_RESULT reads. -/
def pageQueryEff (fn word value : Nat) (b : Block) : Block :=
  let off := if word = 0 then 0xA00014 else 0xA00018
  b.barWrite fn off fun b => b.writeWord off (BitVec.ofNat 32 value)

/-- PAGE_RESULT2.ERR for the queried page (R278). -/
def Block.pageErr (b : Block) : Nat :=
  let slot := b.fget F.pageQuery0Slot
  let pair := b.fget F.pageQuery0Pair
  let page := b.fget F.pageQuery1Page
  match b.slot? slot, b.slotModel slot with
  | some s, some m =>
    if m.pairHere pair = false then 2
    else if m.rowHere page = false then 3
    else if s.t ≤ 256 * page ∧ b.pte slot pair page = 0 then 4
    else 0
  | _, _ => 1

/-! ### Pool levels (R277) -/

/-- The pages of a field's pools, and the free ones. -/
def Block.fieldPool (b : Block) (f : Nat) : Nat × Nat :=
  b.serve.models.foldl (fun x m => (x.1 + b.poolPages m f, x.2 + b.freePages m f)) (0, 0)

/-- KV_POOL_LOW: raised once until a field's free pages rise above the threshold again. -/
def Block.poolLow (b : Block) : Block :=
  (List.range 96).foldl (fun b f =>
    let x := b.fieldPool f
    let isLow := decide (x.2 * 100 < x.1 * b.fget F.pageConfigPoolLowPct)
    if isLow && !b.page.low.contains f then
      ({ b with page := { b.page with low := b.page.low ++ [f] } } : Block).raise 0x0520 f 0xFF (packBits [(0, 32, x.2), (32, 32, x.1)])
    else if decide (x.1 * b.fget F.pageConfigPoolLowPct < x.2 * 100) && b.page.low.contains f then { b with page := { b.page with low := b.page.low.filter (· != f) } }
    else b) b

/-- A camp's pages, trays and index entries leave (R276). -/
def Block.pagesCampReset (b : Block) (c : Nat) : Block :=
  let b1 := ((b.page.index.filter fun e => e.camp == c).foldl Block.dropIndex b).dropElems fun e => e.camp == c
  b1.page.pages.foldl (fun b kv => match kv.2 with
    | some p => if p.camp = c then (b.setPage (kv.1 / 2 ^ 20) (kv.1 % 2 ^ 20) (some { p with refcnt := 1 })).unref (kv.1 / 2 ^ 20) (kv.1 % 2 ^ 20) else b
    | none => b)
    { b1 with page := { b1.page with
        ptes := b1.page.ptes.filter fun kv => match b1.slot? (kv.1 / 2 ^ 29) with | some s => s.camp != c | none => true
        blocks := b1.page.blocks.filter fun kv => match kv.2.bind fun x => b1.slot? x.slot with | some s => s.camp != c | none => false
        trays := b1.page.trays.filter fun kv => match kv.2 with | some t => t.camp != c | none => false } }

end Sys2Proof.Machine
end

