-- ==== Sys2Proof/Machine/Load.lean ====
section
/-! DEFINITION. Loading a model (R426, R450, R552 to R557) and unloading it (R97, R261): the checks, the placement of its
objects, window reservations, spills, and its page pool. -/
namespace Sys2Proof.Machine

/-! ### Modules and slice groups (R447, R449, R450) -/

/-- This module's ID (R447). -/
def Block.moduleId (b : Block) : Nat := b.fget F.domainConfigMyX + 8 * b.fget F.domainConfigMyY + 64 * b.fget F.domainConfigMyZ

/-- The domain's shape. -/
def Block.dims (b : Block) : Nat × Nat × Nat := (b.fget F.domainConfigDimX, b.fget F.domainConfigDimY, b.fget F.domainConfigDimZ)

def modX (m : Nat) : Nat := m % 8
def modY (m : Nat) : Nat := m / 8 % 8
def modZ (m : Nat) : Nat := m / 64

/-- One step in the + direction along an axis, wrapping. -/
def plusOne (x y dim : Nat) : Bool := decide (y = (x + 1) % max 1 dim)

/-- Is module `n` one step in the + direction from module `m` along one axis? -/
def stepsTo (dims : Nat × Nat × Nat) (m n : Nat) : Bool :=
  (plusOne (modX m) (modX n) dims.1 && modY m == modY n && modZ m == modZ n) ||
  (modX m == modX n && plusOne (modY m) (modY n) dims.2.1 && modZ m == modZ n) ||
  (modX m == modX n && modY m == modY n && plusOne (modZ m) (modZ n) dims.2.2)

/-- A member list forms slice groups of W (R450). -/
def sliceOk (dims : Nat × Nat × Nat) (members : List Nat) (w : Nat) : Bool :=
  decide (w = 1) || (decide (members.length % w = 0) && (List.range (members.length - 1)).all fun i =>
    decide ((i + 1) % w = 0) || stepsTo dims (members.getD i 0) (members.getD (i + 1) 0))

/-- This module's member rank in a camp. -/
def Block.memberRank (b : Block) (c : Nat) : Nat := (memberList b.camp.live c).findIdx fun m => m == b.moduleId

/-! ### Checks -/

/-- Is the model's shape within the limits (R252, R281, R301)? -/
def shapeOk (s : ModelSpec) (w : Nat) : Bool :=
  (decide (s.dim = 64) || decide (s.dim = 128) || decide (s.dim = 192) || decide (s.dim = 256)) &&
  decide (1 ≤ s.group) && decide (s.group ≤ 16) && decide (1 ≤ s.layers * s.kvHeads) && decide (s.layers * s.kvHeads ≤ 65535) &&
  decide (96 * w ≤ s.vocab) && decide (s.vocab ≤ 2 ^ 20)

/-- The catalogue record of an image. -/
def Block.image? (b : Block) (id : Nat) : Option Image := b.cellar.images.find? fun x => x.id == id

/-- The team size that a LOAD_MODEL names (R254). -/
def loadTeam (d : Desc) : Nat := if d.field 19 1 = 0 then 8 else d.field 19 1

/-- The refusal of a LOAD_MODEL: its status and the first offending byte (R426, R450, R175). -/
def loadBad (b : Block) (d : Desc) (s : ModelSpec) : Option (Nat × Nat) :=
  let id := d.field 16 2
  let w := d.bits 22 0 4
  let img := d.field 20 2
  let src := d.bits 18 0 1
  if id = 0 ∨ (b.model? d.camp id).isSome = true then some (0x21, 16)
  else if 1 < d.bits 18 2 2 then some (0x21, 18)
  else if 96 % loadTeam d ≠ 0 then some (0x21, 19)
  else if img = 0 ∧ src = 1 then some (0x21, 20)
  else if img ≠ 0 ∧ (match b.image? img with | some x => x.camp != d.camp | none => false) = true then some (0x25, 20)
  else if img ≠ 0 ∧ (match b.image? img with | some x => x.state != 2 && x.state != 3 | none => true) = true then some (0x21, 20)
  else if w = 0 ∨ 8 < w ∨ sliceOk b.dims (memberList b.camp.live d.camp) w = false then some (0x21, 22)
  else if (src = 0 ∧ d.field 24 8 % 4096 ≠ 0) ∨ s.ok = false ∨ shapeOk s w = false then some (0x21, 24)
  else none

/-! ### Need and room (R552, R553, R555) -/

/-- Does the container place an object in DRAM (R552 step 1)? -/
def inDram (o : ObjSpec) : Bool := !o.cellar && decide (o.hint ≠ 4)

/-- The granules per field of the objects in DRAM. -/
def weightNeed (os : List ObjSpec) : Nat := ((os.filter inDram).map (·.granules)).foldl (· + ·) 0

/-- The window granules of the streams of a list of objects (R552 step 2). -/
def windowNeed (os : List ObjSpec) : Nat :=
  let ss := ((os.filter fun o => o.hint == 3 && o.tier == 1).map (·.stream)).dedup
  (ss.map fun s =>
    let xs := os.filter fun o => o.hint == 3 && o.stream == s
    (((xs.map (·.window)).foldl max 0) + 1) * (xs.map (·.granules)).foldl max 0).foldl (· + ·) 0

/-- The objects with the last `x` spillable ones spilled: placed in the cellar as one stream of window 2 (R555, R556). -/
def spill (os : List ObjSpec) (x stream : Nat) : List ObjSpec :=
  let subs := os.map (·.substitute)
  let can := (os.filter fun o => o.hint == 5 && inDram o && !subs.contains o.number).map (·.number)
  let sorted := sortBy (fun a b => decide (a < b)) can
  let gone := sorted.drop (sorted.length - x)
  os.map fun o => if gone.contains o.number then
      { o with cellar := true, hint := 3, tier := 1, stream := stream, index := gone.findIdx (· == o.number), window := 2, cyclic := false }
    else o

/-- How many objects can be spilled. -/
def spillable (os : List ObjSpec) : Nat :=
  let subs := os.map (·.substitute)
  (os.filter fun o => o.hint == 5 && inDram o && !subs.contains o.number).length

/-- The lowest stream number that no stream of the camp, nor of the model, uses (R556). -/
def Block.freeStream (b : Block) (c : Nat) (os : List ObjSpec) : Nat :=
  ((List.range 256).find? fun s => !(b.tier.objs.any fun kv => kv.2.camp == c && kv.2.hint == 3 && kv.2.stream == s) &&
    !(os.any fun o => o.hint == 3 && o.stream == s)).getD 0

/-- The model that a LOAD_MODEL makes, without a pool. -/
def newModel (b : Block) (d : Desc) (s : ModelSpec) : Model where
  camp := d.camp
  id := d.field 16 2
  state := 0
  incomplete := false
  scoreOnly := s.scoreOnly
  layers := s.layers
  kvHeads := s.kvHeads
  group := s.group
  dim := s.dim
  vocab := s.vocab
  team := loadTeam d
  depth := match b.fget F.pageConfigTrayDepth with | 0 => 8 | 2 => 32 | _ => 16
  trayKib := cdiv (b.fget F.sampleConfigTrayKib) 64 * 64
  combineKib := max 256 (min 4096 (b.fget F.attConfigCombineKib))
  layout := d.bits 18 2 2
  sliceW := d.bits 22 0 4
  rank := b.memberRank d.camp % max 1 (d.bits 22 0 4)
  rows := 0
  log := 0
  objs := s.objs.map (·.number)
  seq := d.seq
  unload := 0
  bytesDram := 0
  bytesCellar := 0
  windows := 0
  folds := s.folds
  embeds := s.embeds

/-- Does the model receive a pool now (R552)? -/
def Block.poolNow (b : Block) (m : Model) : Bool :=
  let p := b.phaseSt m.camp
  match p.phase with
  | 0 => if p.modelA = 0 then !m.scoreOnly && !(b.serve.models.any fun x => x.camp == m.camp && !x.scoreOnly) else decide (p.modelA = m.id)
  | 1 => decide (p.modelA = m.id) || decide (p.modelB = m.id)
  | _ => false

/-- The rows of the minimum pool: max(BATCH_MAX, 1) × HEADROOM_TOKENS positions (R552 step 3). -/
def Block.minRows (b : Block) (c : Nat) : Nat :=
  cdiv (max (b.inForce (F.servePolicy0BatchMax c)) 1 * b.inForce (F.servePolicy1HeadroomTokens c)) 256

/-- The granules per field of a pool of some rows, with its token log. -/
def Model.poolNeed (m : Model) (f rows : Nat) : Nat := rows * m.pagesPerRow f * m.pf + logGranules rows

/-- The most rows, from `n` down, whose pool fits (the fuel is the most to give up). -/
def Model.fitRows (m : Model) (f avail : Nat) : Nat → Nat → Nat
  | 0, _ => 0
  | k + 1, n => if m.poolNeed f n ≤ avail then n else Model.fitRows m f avail k (n - 1)

/-- The most rows that every field's room holds. -/
def Model.mostRows (m : Model) (avail : Nat → Nat) : Nat :=
  (List.range 96).foldl (fun best f =>
    let per := m.pagesPerRow f * m.pf
    min best (if per = 0 then best else m.fitRows f (avail f) (avail f / per + 1) (avail f / per))) 1048576

/-- The need per field of a list of objects and a minimum pool. -/
def loadNeed (m : Model) (os : List ObjSpec) (rows f : Nat) : Nat :=
  weightNeed os + windowNeed os + (if rows = 0 then 0 else m.poolNeed f rows)

/-- The sum over the fields of the excess of need over room (R554). -/
def Block.loadShort (b : Block) (m : Model) (os : List ObjSpec) (rows : Nat) : Nat :=
  ((List.range 96).map fun f => loadNeed m os rows f - b.available f 2 m.camp false).foldl (· + ·) 0

/-- The least number of spilled objects with which every field fits, from `x` on, or all of them (R555). -/
def Block.spillCount (b : Block) (m : Model) (os : List ObjSpec) (stream rows : Nat) : Nat → Nat → Nat
  | 0, x => x
  | k + 1, x => if b.loadShort m (spill os x stream) rows = 0 then x else Block.spillCount b m os stream rows k (x + 1)

/-! ### Placing -/

/-- Map granule i of a HOME_CELLAR object. -/
def Block.mapCellar (b : Block) (f n : Nat) (o : TierObj) (i : Nat) : Block :=
  b.setDir f (o.base + i) ⟨3, o.hint, false, false, o.camp, n, o.image - 1 + 96 * i, 0, 3, 0, b.fab.time⟩

-- Log entry 27 (DESIGN CHOICE).
/-- The lowest free frame from `n` on. -/
def Block.findFrame (b : Block) (f tier : Nat) : Nat → Nat → Option Nat
  | 0, _ => none
  | k + 1, n => if b.frameFree f tier n then some n else Block.findFrame b f tier k (n + 1)

-- Log entry 27 (DESIGN CHOICE).
/-- Place one granule of a DRAM object in the lowest free frame from `from_` on; answers the next frame to try. -/
def Block.placeGranule (b : Block) (f n : Nat) (o : TierObj) (i from_ : Nat) : Block × Nat :=
  match b.findFrame f 2 (1048576 - from_) from_ with
  | some fr => (b.mapGranule f n 2 o i fr true, fr + 1)
  | none => (b, from_)

-- Log entry 30 (DESIGN CHOICE).
/-- Place one object of a model in field f (R552 step 1). -/
def Block.placeObj (b : Block) (d : Desc) (m : Model) (f : Nat) (s : ObjSpec) (subAddr : Nat) (from_ : Nat) : Block × Nat :=
  let img := d.field 20 2
  let unit0 := match b.image? img with
    | some x => x.base + 96 * s.unit + f + 1
    | none => 0
  let o : TierObj := ⟨s.base, s.granules, d.camp, false, s.hint, s.tier, s.cyclic, s.stream, s.index, s.window, s.deadlineUs,
    subAddr, m.id, if d.bits 18 0 2 = 2 then d.field 24 8 + 1 else 0, if img = 0 then 0 else unit0, 0, inDram s, false⟩
  let b1 := b.setObj f s.number o
  if inDram s then (List.range s.granules).foldl (fun (x : Block × Nat) i => x.1.placeGranule f s.number o i x.2) (b1, from_)
  else ((List.range s.granules).foldl (fun b i => b.mapCellar f s.number o i) b1, from_)

/-- The unified address of an object of the model in a field, 0 for none. -/
def specAddr (os : List ObjSpec) (f n : Nat) : Nat :=
  match os.find? fun o => o.number == n with
  | some o => if n = 0 then 0 else granuleAddr f o.base
  | none => 0

/-- Place every object in every field. -/
def Block.placeAll (b : Block) (d : Desc) (m : Model) (os : List ObjSpec) : Block :=
  (List.range 96).foldl (fun b f =>
    (os.foldl (fun (x : Block × Nat) o => x.1.placeObj d m f o (specAddr os f o.substitute) x.2) (b, 0)).1) b

/-- Does a new object collide with one that stands in a field? -/
def Block.specClash (b : Block) (os : List ObjSpec) : Bool :=
  (List.range 96).any fun f => os.any fun o => decide (o.granules = 0) || decide (0 < (b.obj f o.number).count) ||
    decide (b.dirSize < o.base + o.granules) || decide (o.number = 0) || decide (65535 < o.number) || b.overlaps f o.base o.granules

/-- Every object of a load has landed: the model is loaded, its hints act (R95), and the descriptor completes with its bytes (R418). -/
def Block.modelLoaded (b : Block) (d : Desc) (m : Model) : Block :=
  let b1 := (List.range 96).foldl (fun b f => m.objs.foldl (fun b n =>
    let o := { b.obj f n with loading := false }
    (b.setObj f n o).hintMoves f o) b) b
  (b1.setModel m.camp m.id fun x => { x with state := 1 }).complete d 0 (packBits [(0, 64, m.bytesDram), (64, 64, m.bytesCellar)])

-- Log entry 77 (DESIGN CHOICE).
/-- LOAD_MODEL: a consumed LOAD_MODEL is checked against every field at once; when all fit, objects, windows and pool are
reserved in one update, and the copies run. `s` is what firmware finds in the container. -/
def loadModelEff (camp seq : Nat) (s : ModelSpec) (b : Block) : Block :=
  b.withDesc camp seq 0x01 fun d b =>
    match loadBad b d s with
    | some (st, off) => b.refuse d st off
    | none =>
      let m0 := newModel b d s
      let trayShort := (List.range 96).foldl (fun x f =>
        max x (b.trayTaken + m0.trayKib * 1024 + ((b.fieldTrays f).map fun (t : Nat × TrayEnt) => t.2.bytes).foldl (· + ·) 0 -
          (b.trayBanks f).length * 0x400000)) 0
      let most := (List.range 96).foldl (fun x f => max x (((b.fieldObjs f).filter fun no => decide (0 < no.2.count)).length + s.objs.length)) 0
      if 65535 < most then b.complete d 0x27 (packBits [(0, 64, most - 65535), (64, 8, 2)])
      else if b.specClash s.objs then b.refuse d 0x21 24
      else if m0.trayKib ≠ 0 ∧ 0 < trayShort then b.complete d 0x27 trayShort
      else
        let pool := b.poolNow m0
        let rows := if pool then b.minRows camp else 0
        let stream := b.freeStream camp s.objs
        let x := if d.field 20 2 = 0 then 0 else b.spillCount m0 s.objs stream rows (spillable s.objs) 0
        let os := if d.field 20 2 = 0 then s.objs else spill s.objs x stream
        let short := b.loadShort m0 os rows
        if short ≠ 0 then b.complete d 0x27 (packBits [(0, 64, short * 32768), (64, 8, 0)])
        else
          let w := windowNeed os
          let inD := weightNeed os * 96
          let inC := ((os.filter fun o => !inDram o).map (·.granules)).foldl (· + ·) 0 * 96
          let most := if pool then m0.mostRows fun f => b.available f 2 camp false - weightNeed os - w else 0
          let m := { m0 with rows := most, log := if pool then logGranules most else 0, bytesDram := inD * 32768,
                             bytesCellar := inC * 32768, windows := w }
          let b1 := b.placeAll d m os
          let b2 : Block := { b1 with
            serve := { b1.serve with models := b1.serve.models ++ [m] }
            tier := { b1.tier with reserved := (List.range 96).foldl (fun r f => supd (fun _ => 0) r (16 * f + camp) (· + w)) b1.tier.reserved } }
          let b3 := (List.range 96).foldl (fun b f => b.fillPool m f (m.poolAim f)) b2
          if inD = 0 then b3.modelLoaded d m else (b3.startDma camp seq inD).start d

/-- The granules of a loading model, in element order: objects as listed, then fields, then granules. -/
def Block.loadPlace (b : Block) (m : Model) (elem : Nat) : Option (Nat × Nat × Nat) :=
  let rec go : List Nat → Nat → Option (Nat × Nat × Nat)
    | [], _ => none
    | n :: ns, e =>
      let o := b.obj 0 n
      let size := if o.loading then 96 * o.count else 0
      if e < size then some (e / o.count, n, e % o.count) else go ns (e - size)
  go m.objs elem

-- Log entries 39 (DESIGN CHOICE), 77 (DESIGN CHOICE).
/-- Element `elem` of a load lands: from the container in host memory, or from the image's unit. -/
def Block.loadElement (b : Block) (m : Model) (elem data : Nat) (image : Bool) : Block :=
  match b.loadPlace m elem with
  | some (f, n, i) =>
    let o := b.obj f n
    let e := b.dirEntry f (o.base + i)
    let p := frameAddr f 2 e.locA
    let x := if image then sget (fun _ => 0) b.cellar.units (o.image - 1 + 96 * i) else data
    b.fillFor m.camp p (bytesLE 0x8000 x)
  | none => b

-- Log entry 33 (DEDUCED).
/-- A load is abandoned: its objects are unmapped, and nothing of it is kept (R110, R554). -/
def Block.dropModel (b : Block) (m : Model) : Block :=
  let b1 := (List.range 96).foldl (fun b f => m.objs.foldl (fun b n => if (b.obj f n).model = m.id ∧ (b.obj f n).camp = m.camp then b.unmapObj f n else b) b) b
  let b2 := (b1.page.index.filter fun e => e.camp == m.camp && e.model == m.id).foldl Block.dropIndex b1
  let b2 := (List.range 96).foldl (fun b f => b.setPool m f []) b2
  { b2 with
    serve := { b2.serve with models := b2.serve.models.filter fun x => !(x.camp == m.camp && x.id == m.id) }
    tier := { b2.tier with reserved := (List.range 96).foldl (fun r f => supd (fun _ => 0) r (16 * f + m.camp) (· - m.windows)) b2.tier.reserved } }

/-- Has the model a request queued or live? -/
def Block.modelBusy (b : Block) (m : Model) : Bool :=
  (b.serve.queue ++ b.serve.requests).any fun r => r.camp == m.camp && r.model == m.id

/-- UNLOAD_MODEL: a consumed UNLOAD_MODEL of a loaded model takes effect at the next boundary of a camp in a step, once the
model's sequences have ended (R97, R261). -/
def unloadModelEff (camp seq : Nat) (b : Block) : Block :=
  b.withDesc camp seq 0x02 fun d b =>
    match b.model? camp (d.field 16 2) with
    | some m =>
      if m.state ≠ 1 then b.refuse d 0x22 16
      else if b.inStep camp || b.modelBusy m then (b.setModel camp m.id fun x => { x with state := 2, unload := seq + 1 }).start d
      else (b.dropModel m).complete d 0 0
    | none => b.refuse d 0x22 16

/-- What a boundary of a camp unloads. -/
def Block.boundaryUnload (b : Block) (c : Nat) : Block :=
  b.serve.models.foldl (fun b m =>
    if m.camp = c ∧ m.state = 2 ∧ b.modelBusy m = false then (b.dropModel m).completeSeq c (m.unload - 1) 0 0 else b) b

end Sys2Proof.Machine
end

