-- ==== Sys2Proof/Machine/Coll.lean ====
section
/-! DEFINITION. Collective groups, the parts that are open, and posting a part (R449, R450, R455, R456); step barriers (R451). -/
namespace Sys2Proof.Machine

/-- The members of a camp: at least this module. -/
def Block.memberCount (b : Block) (c : Nat) : Nat := max 1 (campMembers b.camp.live c)

/-- This module's rank among them. -/
def Block.ownRank (b : Block) (c : Nat) : Nat := if campMembers b.camp.live c = 0 then 0 else b.memberRank c

/-- A group's members as member ranks, in rank order: 0 the camp's, 1 the slice group of a model of W wafers, 2 its replica set. -/
def Block.groupRanks (b : Block) (c group w : Nat) : List Nat :=
  let n := b.memberCount c
  let r := b.ownRank c
  match group with
  | 0 => List.range n
  | 1 => (List.range (max 1 w)).map fun i => r / max 1 w * max 1 w + i
  | _ => (List.range (n / max 1 w)).map fun i => i * max 1 w + r % max 1 w

/-- The module of a member rank. -/
def Block.rankModule (b : Block) (c r : Nat) : Nat := (memberList b.camp.live c).getD r b.moduleId

/-- A part is posted. -/
def Block.postPart (b : Block) (p : CollPart) : Block :=
  ({ b with yg := { b.yg with parts := b.yg.parts ++ [p], nextPart := b.yg.nextPart + 1 } } : Block).bump F.collStarted

-- Log entry 143 (DESIGN CHOICE).
/-- A resident kernel posts a part in its model's slice group: its COLL_ID has bit 31 set, and its other bits are the kernel's (R455). -/
def Block.postResident (b : Block) (m : Model) (f op : Nat) (user : CollUser) : Block :=
  (b.tick).postPart ⟨b.yg.nextPart, m.camp, 2 ^ 31 + (Config.collId b.free).toNat, f, op, 1, 0, 0, m.id, m.sliceW, m.rank, 0, 0, 0, b.fget F.collConfigLateMs,
    b.fab.time, 0, user⟩

/-- The part that carries a kernel's use. -/
def Block.partFor (b : Block) (c : Nat) (f : Option Nat) (u : CollUser) : Option CollPart :=
  b.yg.parts.find? fun p => p.camp == c && p.user == u && (match f with | some x => p.field == x | none => true)

/-- The slice group's model of a camp whose steps need a barrier (R451). -/
def Block.slicedModel (b : Block) (c : Nat) : Option Model := b.serve.models.find? fun m => m.camp == c && m.state == 1 && decide (1 < m.sliceW)

-- Log entry 180 (DEDUCED).
/-- Does a camp's boundary wait for the members of its slice group? -/
def Block.barrierOpen (b : Block) (c : Nat) : Bool := (b.partFor c none .step).isSome

/-- A field answers its step token (R52). Once the leader of a camp with a sliced model holds STEP_DONE from every field, it posts the
step barrier to its group. -/
def Block.finishStep (b : Block) (c f : Nat) (unitsDone : Bool) : Block :=
  let b1 := stepDoneField c f unitsDone b
  if b.stepComplete c = false ∧ b1.stepComplete c = true then
    match b1.slicedModel c with
    | some m => b1.postResident m 0xFF 7 .step
    | none => b1
  else b1

end Sys2Proof.Machine
end

