-- ==== Sys2Proof/Machine/Requests.lean ====
section
/-! DEFINITION. Requests and slots (R325 to R329, R332, R335, R337, R424, R425): what a descriptor asks, its refusals, its
projection, its deferrals, how a sequence ends, and a request's one completion. -/
namespace Sys2Proof.Machine

/-! ### A request's parameters (R424) -/

/-- Bytes `o` to `o + n - 1` of a request's descriptor. -/
def Request.field (r : Request) (o n : Nat) : Nat := bitsOf r.raw (8 * o) (8 * n)

def Request.lpMode (r : Request) : Bool := bitAt (r.field 19 1) 0
-- Log entry 103 (DESIGN CHOICE).
def Request.embed (r : Request) : Bool := bitAt (r.field 19 1) 1
def Request.statsOn (r : Request) : Bool := bitAt (r.field 19 1) 2
def Request.temp (r : Request) : Nat := r.field 20 4
def Request.topK (r : Request) : Nat := r.field 24 1
def Request.alts (r : Request) : Nat := r.field 25 1 % 128
def Request.stopCount (r : Request) : Nat := r.field 26 1 % 16
def Request.topP (r : Request) : Nat := r.field 28 4
def Request.minP (r : Request) : Nat := r.field 32 4
def Request.probMin (r : Request) : Nat := r.field 36 4
def Request.seed (r : Request) : Nat := r.field 40 8
def Request.stops (r : Request) : List Nat := (List.range r.stopCount).map fun i => r.field (64 + 4 * i) 4
def Request.statsObj (r : Request) : Nat := r.field 96 8
def Request.altsObj (r : Request) : Nat := r.field 104 8

/-- The key of fork i (R354). -/
def Request.forkSeed (r : Request) (i : Nat) : Nat := (r.seed + i * 0x9E3779B97F4A7C15) % 2 ^ 64

-- Log entry 82 (DEDUCED).
/-- The most positions the request holds: prompt and MAX_NEW. -/
def Request.cap (r : Request) : Nat := r.promptLen + r.maxNew

-- Log entry 82 (DEDUCED).
/-- The positions that its prefill writes: the prompt, and for a SCORE every forced token but the last, which no later
token needs. -/
def Request.prefill (r : Request) : Nat := if r.kind = 2 then r.cap - 1 else r.promptLen

/-- Is a parameter that must lie between two fp32 magnitudes, or be zero, valid? -/
def between (lo hi x : Nat) : Bool := decide (lo ≤ x) && decide (x ≤ hi)

/-- The first byte whose parameter breaks R300, if any. -/
def Request.paramBad (r : Request) : Option Nat :=
  let full := r.kind != 2 || r.lpMode
  if full && !(f32IsZero r.temp || between 0x3B800000 0x43800000 r.temp) then some 20
  else if full && decide (64 < r.topK) then some 24
  else if 64 < r.alts then some 25
  else if full && !between 1 0x3F800000 r.topP then some 28
  else if full && !(f32IsZero r.minP || between 1 0x3F800000 r.minP) then some 32
  else if full && !(f32IsZero r.probMin || between 1 0x3F800000 r.probMin) then some 36
  else none

/-- The list length K (R300). -/
def Request.listLen (r : Request) : Nat :=
  if r.kind = 2 ∧ r.lpMode = false then r.alts
  else if r.topP < 0x3F800000 then 64 else max r.topK r.alts

/-! ### Quotas and budgets (R328, R332, R333) -/

/-- The camp's slots. -/
def Block.campSlotList (b : Block) (c : Nat) : List Slot := b.serve.slots.filter fun s => s.camp == c

/-- The slots that a class may use (R327, R347). -/
def Block.slotsFor (b : Block) (c cls : Nat) : Nat :=
  let q := campSlots b.camp.live c
  if cls = 0 then q else q - min (b.inForce (F.servePolicy2ReservedSlots c)) q

/-- BATCH_MAX; 0 is the camp's slot quota. -/
def Block.batchMax (b : Block) (c : Nat) : Nat :=
  let v := b.inForce (F.servePolicy0BatchMax c)
  if v = 0 then campSlots b.camp.live c else v

/-- A model's pool positions on the wafer: pool pages over pairs, times 256 (R332). -/
def Block.poolPositions (b : Block) (m : Model) : Nat :=
  if m.pairs = 0 then 0 else sumOf ((List.range 96).map (b.poolPages m)) / m.pairs * 256

/-- The budget that a class may use. -/
def Block.budgetFor (b : Block) (m : Model) (cls : Nat) : Nat :=
  let all := b.poolPositions m * min (b.inForce (F.servePolicy0BalFillPct m.camp)) 100 / 100
  if cls = 0 then all else all * (100 - min (b.inForce (F.servePolicy1ReservedPct m.camp)) 100) / 100

/-- The projection of a request not yet admitted: its prompt rows count in fork 0 only. -/
def Block.requestProjection (b : Block) (r : Request) : Nat :=
  let one := min (r.promptLen + b.inForce (F.servePolicy1HeadroomTokens r.camp)) r.cap
  one + (r.forks - 1) * (one - r.promptLen)

/-- A row's pages of a slot. -/
def Block.rowFrames (b : Block) (m : Model) (slot i : Nat) : List Nat := m.pairList.map fun p => pteFrame (b.pte slot p i)

/-- Does a row of a slot stand whole? -/
def Block.rowStands (b : Block) (m : Model) (slot i : Nat) : Bool := m.pairList.all fun p => pteStands (b.pte slot p i)

/-- Does a lower slot of the camp share the row, page for page (R332)? -/
def Block.sharedBelow (b : Block) (m : Model) (s : Slot) (i : Nat) : Bool :=
  b.rowStands m s.slot i && (b.campSlotList s.camp).any fun x =>
    decide (x.slot < s.slot) && (decide (x.state = 1) || decide (x.state = 2)) && b.rowStands m x.slot i &&
    decide (b.rowFrames m x.slot i = b.rowFrames m s.slot i) && (match b.request? x.camp x.seq with | some r => r.model == m.id | none => false)

/-- The shared positions of a slot that are left out of its projection. -/
def Block.sharedPositions (b : Block) (m : Model) (s : Slot) : Nat :=
  sumOf ((List.range (cdiv s.t 256)).map fun i => if b.sharedBelow m s i then min 256 (s.t - 256 * i) else 0)

/-- The projection of a slot (R332). -/
def Block.slotProjection (b : Block) (m : Model) (r : Request) (s : Slot) : Nat :=
  let t := match s.state with
    | 1 => if s.follows then r.promptLen else s.t + s.todo
    | 2 => s.t
    | _ => s.log.length
  let shared := if s.follows then r.promptLen else if s.state = 3 then 0 else b.sharedPositions m s
  min (t + b.inForce (F.servePolicy1HeadroomTokens r.camp)) r.cap - shared

/-- The summed projections of a model's live and preempted sequences. -/
def Block.projected (b : Block) (m : Model) : Nat :=
  sumOf ((b.campSlotList m.camp).map fun s => match b.request? s.camp s.seq with
    | some r => if r.model = m.id ∧ s.state ≠ 4 then b.slotProjection m r s else 0
    | none => 0)

/-! ### Events and deferrals (R335, R346) -/

-- Log entry 89 (DEDUCED).
/-- SLOT when none is held. -/
def noSlot : Nat := 0xFFFFFFFF

/-- The payload of the loop's events (R346). -/
def servePayload (seq slot reason cls value : Nat) : Nat :=
  packBits [(0, 32, seq), (32, 32, slot), (64, 8, reason), (72, 2, cls), (96, 32, value)]

/-- Change a request, queued or admitted. -/
def Block.setRequest (b : Block) (c seq : Nat) (h : Request → Request) : Block :=
  { b with serve := { b.serve with
      queue := b.serve.queue.map fun r => if r.camp == c && r.seq == seq then h r else r
      requests := b.serve.requests.map fun r => if r.camp == c && r.seq == seq then h r else r } }

-- Log entry 87 (DEDUCED).
/-- A request is deferred at a boundary (R335): its slots, or itself while it is queued, count the step; the event when it is
first deferred and each time the reason changes. -/
def Block.defer (b : Block) (r : Request) (slots : List Nat) (reason value slot : Nat) : Block :=
  let fresh := !b.serve.counted.contains (r.camp, r.seq)
  let b1 := if fresh then ({ b with serve := { b.serve with counted := (r.camp, r.seq) :: b.serve.counted } } : Block).bump (F.deferrals r.camp) else b
  let b2 := if slots.isEmpty then b1.setRequest r.camp r.seq fun x => { x with deferred := x.deferred + 1 }
    else slots.foldl (fun b s => b.setSlot s fun x => { x with deferred := x.deferred + 1 }) b1
  let b3 := b2.setRequest r.camp r.seq fun x => { x with reason := reason }
  b3.raiseIf (decide (r.reason ≠ reason)) 0x0500 0xFF r.camp (servePayload r.seq slot reason r.cls value)

/-! ### The ends of sequences and requests (R337, R340, R355, R418) -/

def Block.policy (b : Block) (c : Nat) : Nat := (b.phaseSt c).version

/-- The descriptor of a request, as its completion needs it. -/
def Request.desc (b : Block) (r : Request) : Desc :=
  (b.desc? r.camp r.seq).getD ⟨r.fn, r.ring, r.camp, r.seq, bitsOf r.raw 64 64, bitsOf r.raw 0 8, bitAt r.raw 8, bitAt r.raw 9, r.raw, r.age, true⟩

/-- The ends that a request's sequences have had. -/
def Block.endsOf (b : Block) (r : Request) : List ForkEnd := b.serve.forkEnds.filter fun e => e.camp == r.camp && e.seq == r.seq

/-- Did a fork end otherwise than OK or OK_CANCEL_LATE? -/
def ForkEnd.bad (e : ForkEnd) : Bool := decide (1 < e.status)

/-- The status of a group: OK, or that of the lowest-numbered fork that ended any other way (R355). -/
def groupStatus (es : List ForkEnd) : Nat × Nat :=
  match sortBy (fun (x y : ForkEnd) => decide (x.fork < y.fork)) (es.filter ForkEnd.bad) with
  | e :: _ => (e.status, e.body)
  | [] => (0, 0)

/-- The completion counters of a status (R347). -/
def Block.countEnd (b : Block) (c status : Nat) : Block :=
  if status = 0 then b.bump (F.completed c) else if status = 1 then b.bump (F.cancelLate c)
  else if status = 0x40 then b.bump (F.cancelled c) else b

-- Log entries 83 (DEDUCED), 89 (DEDUCED).
/-- The body of a request's completion (R418). -/
def Block.requestBody (b : Block) (r : Request) (es : List ForkEnd) (status endBody : Nat) : Nat :=
  if r.kind = 1 then
    packBits [(0, 16, r.forks), (16, 16, (es.filter fun e => e.status == 1).length), (32, 16, (es.filter fun e => e.status == 0x40).length),
      (64, 32, b.policy r.camp)]
  else if status = 0 ∨ status = 1 ∨ status = 0x40 then
    match es with
    | e :: _ => packBits [(0, 32, e.slot), (32, 32, e.t), (64, 32, b.policy r.camp), (96, 2, e.why)]
    | [] => packBits [(0, 32, noSlot), (64, 32, b.policy r.camp), (96, 2, 3)]
  else endBody

-- Log entry 89 (DEDUCED).
/-- A request whose every sequence has ended receives its one completion and leaves. -/
def Block.completeRequest (b : Block) (r : Request) (status endBody : Nat) : Block :=
  let es := sortBy (fun (x y : ForkEnd) => decide (x.fork < y.fork)) (b.endsOf r)
  let deferred := if es.isEmpty then r.deferred else (es.map (·.deferred)).foldl max 0
  let b1 := (b.countEnd r.camp status).finish (r.desc b) status (sumOf (es.map (·.generated))) deferred (sumOf (es.map (·.preempts)))
    (b.requestBody r es status endBody)
  { b1 with serve := { b1.serve with
      queue := b1.serve.queue.filter fun x => !(x.camp == r.camp && x.seq == r.seq)
      requests := b1.serve.requests.filter fun x => !(x.camp == r.camp && x.seq == r.seq)
      forkEnds := b1.serve.forkEnds.filter fun e => !(e.camp == r.camp && e.seq == r.seq) } }

-- Log entry 83 (DEDUCED).
/-- A sequence ends (R340, R342): ENDING until item 3. FORK_ENDED for a fork whose status is not OK. -/
def Block.endSlot (b : Block) (r : Request) (s : Slot) (status why body : Nat) : Block :=
  let e : ForkEnd := ⟨s.camp, s.seq, s.fork, s.slot, status, s.gen, s.deferred, s.preempts, s.t, why, body⟩
  let b1 := b.setSlot s.slot fun x => { x with state := 4, skip := false }
  ({ b1 with serve := { b1.serve with forkEnds := b1.serve.forkEnds ++ [e] } } : Block).raiseIf (decide (r.kind = 1) && decide (status ≠ 0))
    0x0553 0xFF s.camp (packBits [(0, 32, s.seq), (32, 16, s.fork), (48, 8, status), (64, 32, s.slot), (96, 32, s.gen)])

/-- The status and body of a request all of whose sequences have ended, if they have. -/
def Block.requestDone (b : Block) (r : Request) : Option (Nat × Nat) :=
  let es := b.endsOf r
  if es.length < r.forks then none
  else if r.kind = 1 then some (groupStatus es)
  else es.head?.map fun e => (e.status, e.body)

/-! ### Objects that a request names (R292, R315, R328) -/

/-- The camp that owns the granule at a unified address, if one does. -/
def Block.ownerOf (b : Block) (addr : Nat) : Option Nat :=
  match place addr with
  | .unified f g _ => if (b.dirEntry f g).state = 0 then none else some (b.dirEntry f g).camp
  | _ => none

-- Log entry 88 (DEDUCED).
/-- The bytes of a writable object of the camp, from an address on, in field f's part of the range. -/
def Block.objRoom (b : Block) (c addr f : Nat) : Nat :=
  match place addr with
  | .unified _ g off =>
    let e := b.dirEntry f g
    let o := b.obj f e.object
    if e.state ≠ 0 ∧ e.camp = c ∧ o.writable = true then (o.base + o.count - g) * 0x8000 - off else 0
  | _ => 0

-- Log entry 88 (DEDUCED).
/-- The bytes of an alternatives record (R315) and of a statistics record (R292). -/
def altsBytes (alts : Nat) : Nat := cdiv (8 + 8 * alts) 16 * 16
def statsBytes (group : Nat) : Nat := cdiv (16 + 4 * group) 16 * 16

/-- The positions that a request's sequences query. -/
def Request.queries (r : Request) : Nat := if r.kind = 2 then r.cap - 1 else r.promptLen + r.forks * (r.maxNew - 1)

/-- The bytes by which an object is too small in some field: the root of a row can be any field, so every field's part of
the alternatives object holds all the request's records. -/
def Block.objectShort (b : Block) (m : Model) (r : Request) : Nat :=
  let a := if r.alts = 0 then 0 else (List.range 96).foldl (fun x f => max x (r.maxNew * r.forks * altsBytes r.alts - b.objRoom r.camp r.altsObj f)) 0
  let s := if r.statsOn = false ∨ (m.layout = 1 ∧ m.rank ≠ 0) then 0 else
    (List.range 96).foldl (fun x f => if f % m.team = 0 then max x (m.teamPairs f * r.queries * statsBytes m.group - b.objRoom r.camp r.statsObj f) else x) 0
  max a s

/-! ### Consumption (R328, R425) -/

/-- The request of a consumed REQUEST descriptor. -/
def requestOf (d : Desc) (tokens : List Nat) (readBad : Nat) : Request where
  camp := d.camp
  seq := d.seq
  fn := d.fn
  ring := d.ring
  kind := d.op - 0x20
  cls := d.bits 18 0 2
  model := d.field 16 2
  forks := if d.op = 0x21 then d.field 27 1 + 1 else 1
  promptLen := d.field 52 4
  maxNew := d.field 48 4
  tokens := tokens
  readBad := readBad
  raw := d.raw
  age := d.at_
  deferred := 0
  reason := 0

/-- The model that a request may name: loaded, whole, and not being unloaded (R328, R365). -/
def Block.usable (b : Block) (c id : Nat) : Option Model :=
  match b.model? c id with
  | some m => if m.state = 1 ∧ m.incomplete = false then some m else none
  | none => none

/-- Is the request too long for its model's layout (R255)? -/
def Request.tooLong (r : Request) (m : Model) : Bool :=
  decide (2097152 < r.cap) ||
  (if m.layout = 1 ∧ 1 < m.sliceW then decide (4096 * m.sliceW < cdiv r.cap 256) else decide (1048576 < r.cap))

/-- MODEL_A and MODEL_B of the camp's SCORE phase. -/
def Block.scoreModel (b : Block) (c id : Nat) : Bool :=
  let p := b.phaseSt c
  decide (p.phase ≠ 1) || decide (p.modelA = id) || decide (p.modelB = id)

/-- Why a request is refused at consumption: its status and offset (R328, in table order). -/
def Block.requestBad (b : Block) (r : Request) : Option (Nat × Nat) :=
  let foreign (a : Nat) : Bool := match b.ownerOf a with | some c => c != r.camp | none => false
  if r.statsOn && foreign r.statsObj then some (0x25, 96)
  else if decide (r.alts ≠ 0) && foreign r.altsObj then some (0x25, 104)
  else match b.usable r.camp r.model with
    | none => some (0x22, 16)
    | some m =>
      if r.kind = 2 ∧ b.scoreModel r.camp r.model = false then some (0x21, 16)
      else match r.paramBad with
        | some o => some (0x21, o)
        | none =>
          if 8 < r.stopCount ∨ (r.kind = 2 ∧ r.stopCount ≠ 0) then some (0x21, 26)
          else if (r.kind = 1 ∧ r.forks = 1) ∨ (r.kind ≠ 1 ∧ r.field 27 1 ≠ 0) then some (0x21, 27)
          else if r.maxNew = 0 then some (0x21, 48)
          else if r.promptLen = 0 then some (0x21, 52)
          else if r.field 56 8 % 4 ≠ 0 then some (0x21, 56)
          else if r.kind = 2 ∧ r.readBad = 0 ∧ (r.tokens.drop r.promptLen).any (fun t => decide (m.vocab ≤ t)) = true then some (0x21, 56)
          else if r.tooLong m then some (0x24, 48)
          else if b.slotsFor r.camp r.cls < r.forks then some (0x23, 0xFFFF)
          else if m.rows ≠ 0 ∧ b.budgetFor m r.cls < b.requestProjection r then some (0x23, 0xFFFF)
          else none

/-- The limit of the camp's wait queue. -/
def Block.waitMax (b : Block) (c : Nat) : Nat := max 1 (b.inForce (F.servePolicy3WaitMax c))

-- Log entry 81 (DEDUCED).
/-- The requests queued, PREEMPTED sequences included (R347). -/
def Block.queued (b : Block) (c : Nat) : Nat :=
  (b.serve.queue.filter fun r => r.camp == c).length + ((b.campSlotList c).filter fun s => s.state == 3).length

-- Log entry 81 (DEDUCED).
/-- Are the camp's REQUEST rings held (R329)? Descriptors consumed and not yet taken up count too. -/
def Block.waitFull (b : Block) (c : Nat) : Bool :=
  decide (b.waitMax c ≤ b.queued c + (b.ring.descs.filter fun d => d.camp == c && isRequestOp d.op && !d.started).length)

/-- SERVE_QUEUE_FULL, once until the queue falls below WAIT_MAX. -/
def Block.queueMark (b : Block) (c : Nat) : Block :=
  let isFull := decide (b.waitMax c ≤ b.queued c)
  let was := (b.phaseSt c).full
  (b.setPhase c fun p => { p with full := isFull }).raiseIf (isFull && !was) 0x0504 0xFF c (servePayload (b.queued c) noSlot 0 0 0)

/-- A consumed REQUEST descriptor is checked and queued with its age. `tokens` are the ids at TOKENS; `readBad` is 0, or the
status that their failed read gives the request at its admission (R386, R425). -/
def Block.takeRequest (b : Block) (camp seq op : Nat) (tokens : List Nat) (readBad : Nat) : Block :=
  b.withDesc camp seq op fun d b =>
    let r := requestOf d tokens readBad
    match b.requestBad r with
    | some (status, off) =>
      let b1 := b.bump (F.refused camp)
      let b2 := if status = 0x21 ∧ r.paramBad.isSome = true then b1.bump F.paramRefused else b1
      b2.refuse d status off
    | none =>
      if readBad = 0 ∧ tokens.length ≠ r.promptLen + (if r.kind = 2 then r.maxNew else 0) then b
      else (({ b with serve := { b.serve with queue := b.serve.queue ++ [r] } } : Block).start d).queueMark camp

-- Log entry 76 (DESIGN CHOICE).
/-- GENERATE. -/
def generateEff (camp seq : Nat) (tokens : List Nat) (readBad : Nat) (b : Block) : Block := b.takeRequest camp seq 0x20 tokens readBad

-- Log entry 76 (DESIGN CHOICE).
/-- FORK_GROUP. -/
def forkGroupEff (camp seq : Nat) (tokens : List Nat) (readBad : Nat) (b : Block) : Block := b.takeRequest camp seq 0x21 tokens readBad

-- Log entry 76 (DESIGN CHOICE).
/-- SCORE. -/
def scoreEff (camp seq : Nat) (tokens : List Nat) (readBad : Nat) (b : Block) : Block := b.takeRequest camp seq 0x22 tokens readBad

/-- CANCEL: observed in the step in progress, it acts at item 2 of the next boundary; consumed once the leader holds every STEP_DONE, it is
observed in the step after (R342). -/
def cancelEff (camp seq : Nat) (b : Block) : Block :=
  b.withDesc camp seq 0x09 fun d b =>
    let x := (camp, seq, d.field 16 4)
    (if b.stepComplete camp then ({ b with serve := { b.serve with lateCancels := b.serve.lateCancels ++ [x] } } : Block)
     else { b with serve := { b.serve with cancels := b.serve.cancels ++ [x] } }).start d

/-- The registers that SET_POLICY stages: mask bit, field, value. -/
def policyFields (d : Desc) (c : Nat) : List (Nat × Fld × Nat) :=
  [(0, F.servePolicy0BatchMax c, d.bits 20 0 17), (1, F.servePolicy0BalFillPct c, d.field 24 1),
   (2, F.servePolicy1HeadroomTokens c, d.field 26 2), (3, F.servePolicy1ReservedPct c, d.bits 25 0 7),
   (4, F.servePolicy2ReservedSlots c, d.bits 28 0 17), (5, F.servePolicy3WaitMax c, d.bits 32 0 17),
   (6, F.scoreCfgScoreTokens c, d.bits 36 0 18)]

/-- The register word with one policy field written, under the register's value rules. -/
def Block.setPolicyField (b : Block) (f : Fld) (v : Nat) : Block :=
  b.writeWord f.off (wordSet (regWord b.regs f.off) f.lo f.width v)

/-- SET_POLICY: the fields of its MASK are staged as STEP writes of its camp (R432, R347). -/
def setPolicyEff (camp seq : Nat) (b : Block) : Block :=
  b.withDesc camp seq 0x0A fun d b =>
    ((policyFields d camp).foldl (fun b x => if bitAt (d.field 16 2) x.1 then
      b.setPolicyField x.2.1 (if x.1 = 4 then min x.2.2 (campSlots b.camp.live camp) else x.2.2) else b) b).complete d 0 0

-- Log entry 176 (DEDUCED).
/-- SLOT_QUERY: function `fn` writes the slot to read (R347). -/
def slotQueryEff (fn value : Nat) (b : Block) : Block :=
  b.barWrite fn 0xC00010 fun b => b.writeWord 0xC00010 (BitVec.ofNat 32 value)

end Sys2Proof.Machine
end

