-- ==== Sys2Proof/Machine/Rings.lean ====
section
/-! DEFINITION. Chapter 16: doorbells (R403 to R405), enabling and disabling a ring (R402), consuming descriptors (R406,
R412 to R416), writing records (R408 to R410), and MSI-X moderation (R389). -/
namespace Sys2Proof.Machine

/-! ### MSI-X (R389) -/

/-- A vector sends its message, or sets its PBA bit when masked; sending clears the count. -/
def Block.vecFire (b : Block) (fn v : Nat) : Block :=
  let s := b.vec fn v
  if s.masked then b.setVec fn v { s with pba := true, causes := 0 }
  else (b.setVec fn v { s with causes := 0 }).send (.msix fn v s.addr s.data)

/-- A cause is counted against its vector; a function with MSI-X Enable 0 or Function Mask 1 drops it. -/
def Block.vecCause (b : Block) (fn v : Nat) : Block :=
  if (b.fnSt fn).msixEnable && !(b.fnSt fn).fnMask then
    let s := b.vec fn v
    let b1 := b.setVec fn v { s with causes := s.causes + 1, oldest := if s.causes = 0 then b.fab.time else s.oldest }
    if s.holdoff = 0 ∨ s.count ≤ s.causes + 1 then b1.vecFire fn v else b1
  else b

/-- MSIX_HOLDOFF: HOLDOFF_US after its oldest unannounced cause, a vector sends one message. -/
def msixHoldoffEff (fn v : Nat) (b : Block) : Block :=
  let s := b.vec fn v
  if 0 < s.causes ∧ s.oldest + s.holdoff * 1000 ≤ b.fab.time then b.vecFire fn v else b

/-- MSIX_UNMASK: clearing a vector's mask with its PBA bit set sends one message. -/
def msixUnmaskEff (fn v : Nat) (b : Block) : Block :=
  let s := b.vec fn v
  let b1 := b.setVec fn v { s with masked := false, pba := false }
  if s.pba = true ∧ (b.fnSt fn).msixEnable = true ∧ (b.fnSt fn).fnMask = false then b1.send (.msix fn v s.addr s.data)
  else if s.pba then b1.setVec fn v { s with masked := false } else b1

/-! ### One ring -/

def Block.setRing (b : Block) (k : Nat) (s : RingSt) : Block :=
  { b with ring := { b.ring with rings := sset (fun _ => RingSt.init) b.ring.rings k s } }

/-- The host address of a ring entry. -/
def ringAddr (r : Sparse W32) (k i : Nat) : Nat :=
  fldGet r (F.ringBaseHi k) * 2 ^ 32 + fldGet r (F.ringBaseLoBase k) * 4096 + i * entryBytes (ringKind r k)

/-- Write the ring's shadow (R407): INDEX and COUNT. -/
def Block.shadow (b : Block) (k index count : Nat) : Block :=
  b.send (.hostWrite (k / 64) (b.fget (F.shadowHi k) * 2 ^ 32 + b.fget (F.shadowLoAddr k) * 8) 8
    (packBits [(0, 16, index), (32, 32, count)]) false)

/-- The payload of a ring event (R434). -/
def ringPayload (r : Sparse W32) (k cause index head value : Nat) : Nat :=
  packBits [(0, 8, k / 64), (8, 8, k % 64), (16, 8, cause), (24, 8, ringKind r k), (32, 16, index), (48, 16, head), (64, 32, value)]

/-- Is a bound ring an enabled ring of a kind (R402)? -/
def boundOk (b : Block) (fn i kind : Nat) : Bool :=
  (b.ringSt (ringKey fn i)).enabled && decide (ringKind b.regs (ringKey fn i) = kind)

/-- The first failing check of a ring's configuration, 0 for none (R402, R527). RING_BASE_LO holds no bit below 12, so
the base is aligned whatever was written. -/
def ringCfgErr (b : Block) (k : Nat) : Nat :=
  let fn := k / 64
  let log := b.fget (F.ringCfgLog2Size k)
  let kind := ringKind b.regs k
  let boundOk := match kind with
    | 0 => boundOk b fn (b.fget (F.ringCfgCplRing k)) 2 && boundOk b fn (b.fget (F.ringCfgTokenRing k)) 3
    | 1 => boundOk b fn (b.fget (F.ringCfgCplRing k)) 2
    | _ => true
  if log < 6 ∨ 16 < log then 2
  else if 4 < kind then 3
  else if boundOk = false then 4
  else if b.fnMapped fn = false ∨ (b.boot.bringup = true ∧ b.fnCamp fn ≠ 0) then 5
  else 0

-- Log entry 189 (DEDUCED).
/-- RING_ENABLE: function `fn` writes RING_CTRL of a ring with ENABLE 1: the STATIC fields of the word first (R433), then
the checks; a ring that passes starts at index 0 with PHASE 1 and writes its shadow. One that a failed read has stopped consumes
nothing until its camp is reset (R386). -/
def ringEnableEff (fn k value : Nat) (b : Block) : Block :=
  b.barWrite fn (F.ringCtrlEnable k).off fun b =>
    if (b.ringSt k).enabled then b.writeWord (F.ringCtrlEnable k).off (BitVec.ofNat 32 value)
    else
      let b1 := b.writeWord (F.ringCtrlEnable k).off (BitVec.ofNat 32 value)
      let e := ringCfgErr b1 k
      if e = 0 then ((b1.setRing k { RingSt.init with enabled := true, phase := true, stopped := (b1.ringSt k).stopped }).fset (F.ringCtrlEnable k) 1).shadow k 0 0
      else (b1.setRing k { b1.ringSt k with cfgErr := e }).fset (F.ringCtrlEnable k) 0

/-- Is an enabled submission ring bound to this ring (R402)? -/
def Block.isBound (b : Block) (k : Nat) : Bool :=
  b.ring.rings.any fun kv => kv.2.enabled && decide (kv.1 / 64 = k / 64) &&
    ((decide (ringKind b.regs kv.1 < 2) && decide (b.fget (F.ringCfgCplRing kv.1) = k % 64)) ||
     (decide (ringKind b.regs kv.1 = 0) && decide (b.fget (F.ringCfgTokenRing kv.1) = k % 64)))

/-- RING_DISABLE: function `fn` writes RING_CTRL with ENABLE 0: refused with CFG_ERR 4 while a submission ring is bound to
it, otherwise the ring stops; its STATIC fields keep their values in this write. -/
def ringDisableEff (fn k value : Nat) (b : Block) : Block :=
  b.barWrite fn (F.ringCtrlEnable k).off fun b =>
    let b1 := b.writeWord (F.ringCtrlEnable k).off (BitVec.ofNat 32 value)
    if (b.ringSt k).enabled = false then b1
    else if b.isBound k then (b1.setRing k { b1.ringSt k with cfgErr := 4 }).fset (F.ringCtrlEnable k) 1
    else (b1.setRing k { b1.ringSt k with enabled := false }).fset (F.ringCtrlEnable k) 0

/-! ### Doorbells (R403 to R405) -/

/-- Why a doorbell write is an overrun (R405, R434): 0 for none. -/
def overrunCause (b : Block) (k idx : Nat) : Nat :=
  let s := b.ringSt k
  let size := ringSize b.regs k
  if s.enabled = false then 3
  else if size ≤ idx then 1
  else if ringKind b.regs k < 2 then
    (if (idx + size - s.head) % size < (s.tail + size - s.head) % size then 2 else 0)
  else if (s.tail + size - s.head) % size < (idx + size - s.head) % size then 2 else 0

/-- An overrun: ignored, counted, raised, and for an enabled submission ring completed with RING_OVERRUN (R405, R418). -/
def Block.overrun (b : Block) (k idx cause : Nat) : Block :=
  let s := b.ringSt k
  let fn := k / 64
  let b1 := ((b.bump (F.overruns k)).bump F.overrunsTotal).raise 0x0810 0xFF (b.fnCamp fn)
    (ringPayload b.regs k cause idx s.head s.tail)
  if s.enabled = true ∧ ringKind b.regs k < 2 then
    b1.record ⟨fn, b.fget (F.ringCfgCplRing k), 2,
      packBits [(64, 8, 0x26), (73, 6, k % 64), (128, 8, k % 64), (136, 8, cause), (144, 16, idx), (160, 16, s.head), (176, 16, s.tail)], false⟩
  else b1

/-- After the driver frees entries of an EVENT ring that lost events, one EVENTS_LOST event is written once 2 are free. -/
def Block.reportLost (b : Block) (k : Nat) : Block :=
  let s := b.ringSt k
  if 0 < s.lost ∧ ringKind b.regs k = 4 ∧ 2 ≤ ringFree b.regs b.ring k then
    let e : Event := ⟨0x0812, 0xFF, b.fnCamp (k / 64), b.fab.time, ringPayload b.regs k 0 0 s.head s.lost⟩
    (b.setRing k { s with lost := 0 }).record ⟨k / 64, k % 64, 4, e.bits, false⟩
  else b

/-- DOORBELL: function `fn` writes BAR2 at `off`; `covers` says that the write covers bytes 0 and 1 of the doorbell. -/
def doorbellEff (fn off idx : Nat) (covers : Bool) (b : Block) : Block := b.tlp fn fun b =>
  if b.fnMapped fn = false ∨ 0x200 ≤ off ∨ b.boot.stage ≠ 10 then b.bump F.bar2Invalid
  else if covers = false then b
  else
    let k := ringKey fn (off / 8)
    let b1 := b.bump (F.doorbells k)
    let cause := overrunCause b k idx
    if cause ≠ 0 then b1.overrun k idx cause
    else if ringKind b.regs k < 2 then b1.setRing k { b1.ringSt k with tail := idx }
    else
      let s := b1.ringSt k
      let full := s.full && decide ((s.tail + 1) % ringSize b.regs k = idx)
      (b1.setRing k { s with head := idx, full := full }).reportLost k

/-! ### Descriptors (R406, R412 to R416) -/

/-- The named bits of a descriptor's body by opcode, (first byte, low bit, width) (R424 to R432). -/
def namedBits (op : Nat) : List (Nat × Nat × Nat) :=
  match op with
  | 0x01 | 0x02 => [(16, 0, 16), (18, 0, 4), (19, 0, 8), (20, 0, 16), (22, 0, 4), (24, 0, 64), (32, 0, 64)]
  | 0x03 => [(16, 0, 2), (18, 0, 16), (20, 0, 32), (24, 0, 32), (32, 0, 64), (64, 0, 256)]
  | 0x04 => [(16, 0, 2), (17, 0, 1), (20, 0, 32), (24, 0, 16), (26, 0, 16), (28, 0, 13), (32, 0, 64), (40, 0, 64)]
  | 0x05 => [(16, 0, 16), (18, 0, 4), (20, 0, 32), (24, 0, 64), (32, 0, 64)]
  | 0x06 => [(16, 0, 96), (28, 0, 288), (64, 0, 64), (72, 0, 32), (76, 0, 32), (80, 0, 64), (88, 0, 3), (89, 0, 6), (90, 0, 12), (92, 0, 16)]
  | 0x07 => [(16, 0, 2), (24, 0, 64), (32, 0, 64), (40, 0, 40)]
  | 0x08 => [(16, 0, 2), (17, 0, 6), (18, 0, 8), (19, 0, 4), (20, 0, 16), (24, 0, 64), (32, 0, 26), (36, 0, 16), (40, 0, 64), (48, 0, 64)]
  | 0x09 => [(16, 0, 32)]
  | 0x0A => [(16, 0, 7), (20, 0, 17), (24, 0, 8), (25, 0, 7), (26, 0, 16), (28, 0, 17), (32, 0, 17), (36, 0, 18)]
  | 0x0B => [(16, 0, 64)]
  | 0x0C => [(16, 0, 1), (24, 0, 64)]
  | 0x20 | 0x21 | 0x22 => [(16, 0, 16), (18, 0, 2), (19, 0, 3), (20, 0, 32), (24, 0, 8), (25, 0, 7), (26, 0, 4), (27, 0, 8),
      (28, 0, 288), (64, 0, 256), (96, 0, 64), (104, 0, 64)]
  | _ => []

/-- The bits of a descriptor that are not reserved: the header's and the body's. -/
def allowedMask (op : Nat) : Nat :=
  (namedBits op).foldl (fun m x => m ||| ((2 ^ x.2.2 - 1) <<< (8 * x.1 + x.2.1))) ((2 ^ 10 - 1) ||| ((2 ^ 112 - 1) <<< 16))

/-- The first byte in which a number has a bit set, from byte `o` on. -/
def firstByte (x : Nat) : Nat → Nat → Option Nat
  | 0, _ => none
  | n + 1, o => if x / 2 ^ (8 * o) % 256 ≠ 0 then some o else firstByte x n (o + 1)

/-- Is the opcode known on this submission kind (R416)? -/
def opOk (kind op : Nat) : Bool :=
  if kind = 0 then decide (0x20 ≤ op) && decide (op ≤ 0x22) else decide (1 ≤ op) && decide (op ≤ 0x0C)

/-- Is the LENGTH allowed (R416, R424)? -/
def lengthOk (op len raw : Nat) : Bool :=
  match op with
  | 0x03 => if bitsOf raw 128 2 = 2 then decide (len = 2) else decide (len = 1)
  | 0x06 => decide (len = 2)
  | 0x20 | 0x21 | 0x22 =>
    if bitsOf raw 208 4 ≠ 0 ∨ bitsOf raw 200 7 ≠ 0 ∨ bitsOf raw 154 1 ≠ 0 then decide (len = 2)
    else decide (len = 1) || decide (len = 2)
  | _ => decide (len = 1)

/-- The byte of the first offending field of a descriptor's header and reserved bits (R415), if any. -/
def badDescriptor (b : Block) (kind camp raw : Nat) : Option Nat :=
  let op := bitsOf raw 0 8
  let len := bitsOf raw 16 16
  let seq := bitsOf raw 32 32
  if opOk kind op = false then some 0
  else if bitsOf raw 10 6 ≠ 0 then some 1
  else if lengthOk op len raw = false then some 2
  else if (b.ring.descs.any fun d => d.camp == camp && d.seq == seq) then some 4
  else firstByte (raw - (raw &&& allowedMask op)) 128 0

-- Log entry 189 (DEDUCED).
/-- May the ring's next entry be consumed now: enabled, running, its function able to read (R377, R383), not empty, its COMPLETION ring with room (R409), no FENCE
of its own open (R432), no BARRIER waiting (R412), its camp not resetting (R533) and, for REQUEST, its wait queue with
room (R329). -/
def mayConsume (b : Block) (fn i raw : Nat) : Bool :=
  let k := ringKey fn i
  let s := b.ringSt k
  let size := ringSize b.regs k
  let ready := (s.tail + size - s.head) % size
  let need := if bitsOf raw 16 16 = 2 then 2 else 1
  s.enabled && !s.stopped && decide (ringKind b.regs k < 2) && decide (need ≤ ready) && b.fnReceives fn &&
  !b.resetting (b.fnCamp fn) &&
  !(b.ringSt (ringKey fn (b.fget (F.ringCfgCplRing k)))).full &&
  !(b.ring.descs.any fun d => d.fn == fn && d.ring == i && d.op == 0x0B) &&
  !(bitAt raw 9 && b.ring.descs.any fun d => d.fn == fn && d.ring == i) &&
  !(decide (ringKind b.regs k = 0) && b.waitFull (b.fnCamp fn))

/-- DESCRIPTOR_FETCH: the read of the next descriptor of a submission ring returns `raw` (128 bytes; the second 64 are
those of the next entry). The entry is consumed: it is accepted, or completes BAD_DESCRIPTOR (R415); the shadow follows. -/
def descriptorFetchEff (fn i raw : Nat) (b : Block) : Block :=
  if mayConsume b fn i raw then
    let k := ringKey fn i
    let s := b.ringSt k
    let len := if bitsOf raw 16 16 = 2 then 2 else 1
    let x := if len = 2 then raw % 2 ^ 1024 else raw % 2 ^ 512
    let head := (s.head + len) % ringSize b.regs k
    let camp := b.fnCamp fn
    let d : Desc := ⟨fn, i, camp, bitsOf x 32 32, bitsOf x 64 64, bitsOf x 0 8, bitAt x 8, bitAt x 9, x, b.fab.time, false⟩
    let b1 := ((b.setRing k { s with head := head, count := (s.count + len) % 2 ^ 32 }).bump F.descriptorsTotal).bump (F.entries k)
    let b2 := match badDescriptor b (ringKind b.regs k) camp x with
      | some o => (b1.bump F.badDescriptors).report d 0x20 0 0 0 o
      | none => { b1 with ring := { b1.ring with descs := b1.ring.descs ++ [d] } }
    b2.shadow k head ((s.count + len) % 2 ^ 32)
  else b

/-- FENCE_DESCRIPTOR: a FENCE completes once every descriptor consumed before it from the rings in its RING_MASK has
completed (R432). -/
def fenceDescriptorEff (camp seq : Nat) (b : Block) : Block :=
  b.withDesc camp seq 0x0B fun d b =>
    let before := b.ring.descs.takeWhile fun x => !(x.camp == d.camp && x.seq == d.seq)
    if before.any fun x => x.fn == d.fn && bitAt (d.field 16 8) x.ring then b else b.complete d 0 0

/-! ### Records (R408 to R410) -/

/-- Where the phase bit stands in a record (R408, R417, R420, R423). -/
def phaseBit (kind : Nat) : Nat := if kind = 2 then 72 else if kind = 3 then 44 else 96

-- Log entry 14 (DEDUCED).
/-- Can a record of a function's ring be issued now (R390, R409, R530): discarded, or written where its ring is enabled and has room? -/
def Block.ringOpen (b : Block) (fn i : Nat) : Bool :=
  let s := b.ringSt (ringKey fn i)
  !b.fnReceives fn || (s.enabled && decide ((s.tail + 1) % ringSize b.regs (ringKey fn i) ≠ s.head))

/-- The record of a function's ring that is issued next, in the order in which the function's records were produced: none before it could
be issued, and none before it is a TOKEN record, which the completion of its request follows (R413). -/
def nextRec (ready : Nat → Bool) (fn i : Nat) : List Rec → Option Rec
  | [] => none
  | r :: rs =>
    if r.fn = fn ∧ r.ring = i then some r
    else if r.fn = fn ∧ (r.kind = 3 ∨ ready r.ring = true) then none
    else nextRec ready fn i rs

-- Log entries 14 (DEDUCED), 177 (DEDUCED).
def Block.nextRec (b : Block) (fn i : Nat) : Option Rec := Sys2Proof.Machine.nextRec (b.ringOpen fn) fn i b.ring.outbox

/-- Does a record make its ring's vector a cause (R410)? -/
def isCause (mode kind : Nat) (irq : Bool) : Bool := decide (mode = 1) || (decide (mode = 2) && decide (kind = 2) && irq)

-- Log entries 14 (DEDUCED), 121 (DEDUCED).
/-- RECORD_WRITE: the next record of a function's ring is issued: written at the producer index with its phase, announced
by the shadow and counted against its vector; discarded where the function cannot receive it (R390); left waiting while
the ring is full or disabled (R409, R530). -/
def recordWriteEff (fn i : Nat) (b : Block) : Block :=
  match b.nextRec fn i with
  | none => b
  | some r =>
    let k := ringKey fn i
    let s := b.ringSt k
    let size := ringSize b.regs k
    let popped : Block := { b with ring := { b.ring with outbox := dropFirst (· == r) b.ring.outbox } }
    if b.fnReceives fn = false then (popped.bump F.recordsDiscarded).bump (F.fnDiscards fn)
    else if s.enabled = false ∨ (s.tail + 1) % size = s.head then b
    else
      let tail := (s.tail + 1) % size
      let full := decide ((tail + 1) % size = s.head)
      let bits := r.bits ||| (if s.phase then 1 <<< phaseBit r.kind else 0)
      let phase := if tail = 0 then !s.phase else s.phase
      let b1 := popped.setRing k { s with tail := tail, phase := phase, count := (s.count + 1) % 2 ^ 32, full := full }
      let b2 := ((b1.bump (F.entries k)).send (.hostWrite fn (ringAddr b.regs k s.tail) (entryBytes r.kind) bits false)).shadow k tail
        ((s.count + 1) % 2 ^ 32)
      let waiting := (b2.ring.outbox.filter fun x => x.fn == fn && x.ring == i).length
      let b3 := if full ∧ s.full = false then
          (b2.bump F.fullEventsTotal).raise 0x0811 0xFF (b.fnCamp fn) (ringPayload b.regs k 0 0 s.head waiting)
        else b2
      if isCause (b.fget (F.ringCtrlIrqMode k)) r.kind r.irq then b3.vecCause fn (b.fget (F.ringCtrlVector k)) else b3

end Sys2Proof.Machine
end

