-- ==== Sys2Proof/Machine/Camps.lean ====
section
/-! DEFINITION. The camp table image as the consent engine compares it (R470 to R472, R479). -/
namespace Sys2Proof.Machine

/-- A write of the camp store fills the inactive copy, and then makes it current (R473). -/
def CampPart.stored (p : CampPart) (image : Sparse Byte) : CampPart := { p with store := image, older := p.store }

/-- Are two images equal over some bytes? -/
def sameBytes (x y : Sparse Byte) (o n : Nat) : Bool := (List.range n).all fun i => imgByte x (o + i) == imgByte y (o + i)

/-- Has a camp's entry or member list changed between two images? -/
def campDiffers (x y : Sparse Byte) (c : Nat) : Bool := !sameBytes x y (32 * c) 32 || !sameBytes x y (640 + 256 * c) 256

-- Log entry 148 (DEDUCED).
/-- The camp that a FN byte maps its function to. -/
def mappedCamp (byte : Nat) : List Nat := if bitAt byte 4 then [bitsOf byte 0 4] else []

-- Log entry 148 (DEDUCED).
/-- The functions whose bytes differ. -/
def changedFns (x y : Sparse Byte) : List Nat := (List.range 64).filter fun fn => fnByte x fn != fnByte y fn

-- Log entry 148 (DEDUCED).
/-- The camps that a change affects (R479). -/
def affectedCamps (x y : Sparse Byte) : List Nat :=
  let byFn := (changedFns x y).flatMap fun fn => mappedCamp (fnByte x fn) ++ mappedCamp (fnByte y fn)
  (List.range 16).filter fun c => campDiffers x y c || byFn.contains c

/-- Is a camp affected by the change that is approved? -/
def Block.affected (b : Block) (c : Nat) : Bool :=
  (decide (b.camp.state = 2) || decide (b.camp.state = 3)) && (affectedCamps b.camp.live b.camp.stage).contains c

/-- An affected camp stops at item 4 of its boundary (R479). -/
def Block.holdCamp (b : Block) (c : Nat) : Block := { b with camp := { b.camp with held := b.camp.held.filter (· ≠ c) ++ [c] } }

/-- A held camp goes on. -/
def Block.freeCamp (b : Block) (c : Nat) : Block := { b with camp := { b.camp with held := b.camp.held.filter (· ≠ c) } }

end Sys2Proof.Machine
end

