-- ==== Sys2Proof/Machine/Phases.lean ====
section
/-! DEFINITION. Preemption (R275 item 3, R338), and chapter 14 without the REFRESH kernels: the phases (R348 to R353), parking and
restoring (R358 to R360, R368), and the consumption of REFRESH (R361, R362). -/
namespace Sys2Proof.Machine

/-! ### Preemption -/

/-- A sequence is preempted: its pages, trays and reservations go; its slot, log and age stay, and it is re-queued. -/
def Block.preemptOne (b : Block) (r : Request) (s : Slot) : Block :=
  let b1 := match b.slotModel s.slot with
    | some m => b.freePages' m s.slot
    | none => b
  let b2 := (b1.freeTraysOf s.slot).setSlot s.slot fun x => { x with
    state := 3, todo := 0, quota := 0, redo := 0, redoQuota := 0, resume := false, follows := false, skip := false,
    void := false, trayLost := false, holes := false, preempts := x.preempts + 1 }
  (b2.trimNow.bump (F.preempted s.camp)).raise 0x0501 0xFF s.camp (servePayload s.seq s.slot 0 r.cls s.gen)

/-- A sequence is preempted, and with a group's fork 0 the forks that wait for its prompt. -/
def Block.preempt (b : Block) (s : Slot) : Block :=
  match b.request? s.camp s.seq with
  | some r =>
    let followers := if s.fork = 0 then (b.campSlotList s.camp).filter fun x => x.seq == s.seq && x.follows else []
    (s :: followers).foldl (fun b x => b.preemptOne r x) b
  | none => b

/-! ### Pools of a phase (R348, R351, R552) -/

-- Log entry 73 (DEDUCED).
/-- The granules per field of pools of some rows for several models. -/
def poolsNeed (ms : List Model) (f rows : Nat) : Nat := sumOf (ms.map fun m => m.poolNeed f rows)

/-- The most rows from `n` down whose pools fit (the fuel is the most to give up). -/
def fitPools (ms : List Model) (f avail : Nat) : Nat → Nat → Nat
  | 0, _ => 0
  | k + 1, n => if poolsNeed ms f n ≤ avail then n else fitPools ms f avail k (n - 1)

/-- The granules of a field that a model holds already: its pool, or what is left of a released one. -/
def Block.poolHeld (b : Block) (m : Model) (f : Nat) : Nat :=
  if m.rows = 0 then b.pagesUsed m f * m.pf else b.poolPages m f * m.pf + m.log

/-- The most rows that every model can have in every field, counting what it holds already. -/
def Block.planRows (b : Block) (c : Nat) (ms : List Model) : Nat :=
  (List.range 96).foldl (fun best f =>
    let per := sumOf (ms.map fun m => m.pagesPerRow f * m.pf)
    let avail := b.available f 2 c false + sumOf (ms.map fun m => b.poolHeld m f)
    if per = 0 then best else min best (fitPools ms f avail (avail / per + 1) (avail / per))) 1048576

/-- The camp's pools are released. -/
def Block.releasePools (b : Block) (c : Nat) : Block :=
  { b with serve := { b.serve with models := b.serve.models.map fun m => if m.camp == c then { m with rows := 0, log := 0 } else m }
           page := { b.page with pools := b.page.pools.filter fun kv => kv.1 / 2 ^ 16 % 16 != c } }

/-- A model receives a pool of some rows, or its pool grows to them. -/
def Block.givePool (b : Block) (c id rows : Nat) : Block :=
  match b.model? c id with
  | some m =>
    let n := max m.rows rows
    (List.range 96).foldl (fun b f => b.fillPool m f (rows * m.pagesPerRow f)) (b.setModel c id fun x => { x with rows := n, log := logGranules n })
  | none => b

/-- The index entries of the camp's models that a phase does not serve leave. -/
def Block.dropForeignIndex (b : Block) (c : Nat) (ids : List Nat) : Block :=
  (b.page.index.filter fun e => e.camp == c && !ids.contains e.model).foldl Block.dropIndex b

/-- The model that GENERATE serves: MODEL_A, or the first loaded that is not score-only (R552). -/
def Block.generateModel (b : Block) (c : Nat) : Nat :=
  let p := b.phaseSt c
  if p.modelA ≠ 0 then p.modelA
  else ((b.serve.models.find? fun m => m.camp == c && m.state == 1 && !m.scoreOnly).map (·.id)).getD 0

/-- The models that a PHASE's target serves. -/
def Block.servedBy (b : Block) (j : PhaseJob) : List Nat :=
  match j.target with
  | 0 => (if j.modelA ≠ 0 then [j.modelA] else [b.generateModel j.camp]).filter (· ≠ 0)
  | 1 => [j.modelA, j.modelB].dedup.filter (· ≠ 0)
  | _ => []

-- Log entry 87 (DEDUCED).
/-- Does the camp's phase take a request of a kind for a model (R348, R350)? A model without a pool is served by no
phase of the moment. -/
def Block.admitsKind (b : Block) (c kind : Nat) (m : Model) : Bool :=
  let p := b.phaseSt c
  !(b.serve.phaseJobs.any fun j => j.camp == c && j.started != 0 && j.switched == 0) && decide (m.rows ≠ 0) &&
  (if kind = 2 then decide (p.phase = 1) else decide (p.phase = 0))

-- Log entry 33 (DEDUCED).
/-- The pools of the camp's present phase are built again. -/
def Block.rebuildPools (b : Block) (c : Nat) : Block :=
  let p := b.phaseSt c
  let ids := match p.phase with
    | 0 => [b.generateModel c]
    | 1 => [p.modelA, p.modelB].dedup.filter (· ≠ 0)
    | _ => []
  let ms := b.serve.models.filter fun m => m.camp == c && m.state == 1 && ids.contains m.id && m.rows == 0
  let rows := b.planRows c ms
  ms.foldl (fun b m => b.givePool c m.id rows) b

/-- Pools grow at item 5 by what is available beyond them, once parked frames have been freed (R351, R360). -/
def Block.growPools (b : Block) (c : Nat) : Block :=
  if (b.phaseSt c).grow then
    let ms := b.serve.models.filter fun m => m.camp == c && m.state == 1 && m.rows != 0
    let rows := b.planRows c ms
    ms.foldl (fun b m => b.givePool c m.id rows) (b.setPhase c fun p => { p with grow := false })
  else b

/-! ### PHASE (R349 to R353) -/

/-- A park entry's fields (R359). -/
def parkAddr (x : Nat) : Nat := bitsOf x 0 64
def parkHost (x : Nat) : Nat := bitsOf x 64 64
def parkGranules (x : Nat) : Nat := bitsOf x 128 26

/-- The function that carries a camp's element (R561): the ports on which a function of the camp exists with Bus Master
Enable 1 take elements in turn, by their lowest such function. -/
def Block.dmaFn (b : Block) (c elem : Nat) : Option Nat :=
  let fns := (List.range 4).filterMap fun p => (List.range 16).findSome? fun i =>
    let fn := 16 * p + i
    if b.fnReceives fn && b.fnServes fn c then some fn else none
  if fns.isEmpty then none else fns[elem % fns.length]?

/-- Does a park entry break R359? Parking names a whole writable object of the camp; a restore, a place that no other
object holds. -/
def Block.parkBad (b : Block) (c : Nat) (restore : Bool) (x : Nat) : Bool :=
  let addr := parkAddr x
  decide (x / 2 ^ 154 ≠ 0) || decide (parkHost x % 4096 ≠ 0) || decide (addr % 0x8000 ≠ 0) || decide (parkGranules x = 0) || (b.dmaFn c 0).isNone ||
  (match b.objAt addr with
   | some (_, _, o) => decide (o.camp ≠ c) || !o.writable || decide (o.count ≠ parkGranules x)
   | none => match place addr with
     | .unified f g _ => !restore || b.overlaps f g (parkGranules x) || decide (b.dirSize < g + parkGranules x)
     | _ => true)

/-- Does another PHASE of the camp stand before this one, or a JOB or REFRESH consumed before it (R350)? -/
def Block.phaseBlocked (b : Block) (j : PhaseJob) : Bool :=
  (b.ring.descs.takeWhile fun d => !(d.camp == j.camp && d.seq == j.seq)).any fun d =>
    d.camp == j.camp && (d.op == 4 || d.op == 5 || d.op == 6)

def Block.setPhaseJob (b : Block) (c seq : Nat) (h : PhaseJob → PhaseJob) : Block :=
  { b with serve := { b.serve with phaseJobs := b.serve.phaseJobs.map fun j => if j.camp == c && j.seq == seq then h j else j } }

/-- A PHASE ends with a status. -/
def Block.endPhase (b : Block) (j : PhaseJob) (status body : Nat) : Block :=
  ({ b with serve := { b.serve with phaseJobs := b.serve.phaseJobs.filter fun x => !(x.camp == j.camp && x.seq == j.seq) } } : Block).completeSeq
    j.camp j.seq status body

-- Log entry 90 (DEDUCED).
/-- A waiting PHASE starts when nothing stands before it; with TARGET the current phase it completes OK (R349). -/
def Block.startPhase (b : Block) (c : Nat) : Block :=
  match b.serve.phaseJobs.find? fun j => j.camp == c with
  | some j =>
    if j.started ≠ 0 ∨ b.phaseBlocked j = true then b
    else if j.target = (b.phaseSt c).phase then b.endPhase j 0 0
    else b.setPhaseJob c j.seq fun x => { x with started := b.fab.time + 1 }
  | none => b

-- Log entry 76 (DESIGN CHOICE).
/-- PHASE: a consumed PHASE is checked and queued. `table` are the park table's entries as read; `readBad` is 0, or the
status of their failed read. -/
def phaseEff (camp seq : Nat) (table : List Nat) (readBad : Nat) (b : Block) : Block :=
  b.withDesc camp seq 0x04 fun d b =>
    let target := d.bits 16 0 2
    let n := d.bits 28 0 13
    let bad (id : Nat) : Bool := decide (id ≠ 0) && (b.usable camp id).isNone
    if target = 3 then b.refuse d 0x21 16
    else if target = 1 ∧ d.field 24 2 = 0 then b.refuse d 0x21 24
    else if 4096 < n then b.refuse d 0x21 28
    else if n ≠ 0 ∧ d.field 40 8 % 32 ≠ 0 then b.refuse d 0x21 40
    else if n ≠ 0 ∧ readBad ≠ 0 then b.complete d readBad (packBits [(0, 64, d.field 40 8), (64, 8, 0xFF)])
    else if table.length ≠ n then b
    else if table.any (b.parkBad camp (decide (target = 2))) then b.refuse d 0x21 40
    else if bad (d.field 24 2) then b.refuse d 0x22 24
    else if bad (d.field 26 2) then b.refuse d 0x22 26
    else
      let j : PhaseJob := ⟨camp, seq, target, decide (d.bits 17 0 1 = 1), d.field 20 4, d.field 24 2, d.field 26 2, d.field 32 8,
        table.map fun x => (parkAddr x, parkHost x, parkGranules x), 0, false, 0, 0, (b.phaseSt camp).phase⟩
      (({ b with serve := { b.serve with phaseJobs := b.serve.phaseJobs ++ [j] } } : Block).start d).startPhase camp

/-- PHASE_DRAIN_LIMIT: DRAIN_LIMIT_MS has passed since the camp's PHASE started (R350). -/
def phaseDrainLimitEff (c : Nat) (b : Block) : Block :=
  match b.serve.phaseJobs.find? fun j => j.camp == c && j.started != 0 && j.switched == 0 with
  | some j =>
    if j.hold = false ∧ j.drainMs ≠ 0 ∧ j.started - 1 + j.drainMs * 1000000 ≤ b.fab.time then
      b.setPhaseJob c j.seq fun x => { x with limit := true }
    else b
  | none => b

-- Log entry 86 (DEDUCED).
/-- The live sequences of the outgoing kind: in PREFILL or DECODE. -/
def Block.outgoing (b : Block) (c : Nat) : List Slot := (b.campSlotList c).filter fun s => s.state == 1 || s.state == 2

-- Log entry 86 (DEDUCED).
/-- May the switch be made (R350)? -/
def Block.switchDue (b : Block) (j : PhaseJob) : Bool :=
  j.started != 0 && j.switched == 0 && (j.hold || j.limit || (b.outgoing j.camp).isEmpty)

/-! ### Parking (R360, R368) -/

/-- Is a granule of an object poisoned? -/
def Block.granulePoison (b : Block) (f g : Nat) : Bool :=
  let e := b.dirEntry f g
  let src := e.source
  e.poison || (decide (src.1 = 1 ∨ src.1 = 2) && (b.poisonIn (frameAddr f src.1 src.2) 1 || b.mem.framePoison (frameAddr f src.1 src.2)))

def Block.objPoison (b : Block) (addr granules : Nat) : Bool :=
  match place addr with
  | .unified f g _ => (List.range granules).any fun i => b.granulePoison f (g + i)
  | _ => false

/-- PARK_POISON (R368). -/
def Block.parkPoison (b : Block) (c entry addr : Nat) : Block := b.raise 0x0554 0xFF c (packBits [(0, 32, entry), (64, 64, addr)])

/-- The listed objects start to be copied out; one with a poisoned granule is not parked. -/
def Block.startParks (b : Block) (j : PhaseJob) : Block :=
  (List.range j.park.length).foldl (fun b i =>
    let x := j.park.getD i (0, 0, 0)
    if b.objPoison x.1 x.2.2 then b.parkPoison j.camp i x.1
    else { b with serve := { b.serve with parks := b.serve.parks ++ [⟨j.camp, i, x.1, x.2.1, x.2.2, [], false, b.fab.time⟩] } }) b

/-- PARK_DONE, when the last entry of a PHASE has landed (R360, R370). -/
def Block.parkDone (b : Block) (c since : Nat) : Block :=
  let ks := b.serve.parks.filter fun k => k.camp == c && k.started == since
  if ks.isEmpty = false ∧ ks.all (·.landed) = true then
    b.raise 0x0555 0xFF c (packBits [(0, 32, ks.length), (32, 32, sumOf (ks.map (·.granules))), (64, 32, (b.fab.time - since) / 1000000)])
  else b

/-- A parked granule reaches host memory; the object is unmapped once all have (R360). -/
def Block.parkElement (b : Block) (c entry granule : Nat) : Block :=
  match b.serve.parks.find? fun k => k.camp == c && k.entry == entry && !k.landed with
  | some k =>
    match place k.addr, b.dmaFn c granule with
    | .unified f g _, some fn =>
      if k.granules ≤ granule ∨ k.done.contains granule then b
      else if b.granulePoison f (g + granule) then
        (({ b with serve := { b.serve with parks := b.serve.parks.filter (· != k) } } : Block).parkPoison c entry k.addr).parkDone c k.started
      else
        let src := (b.dirEntry f (g + granule)).source
        let data := ofBytesLE (b.readBytes (frameAddr f src.1 src.2) 0x8000)
        let k' := { k with done := granule :: k.done, landed := decide (k.done.length + 1 = k.granules) }
        let p := frameAddr f src.1 src.2
        let b0 := (b.lookBulk p 0x8000).chargeBulk c true p 0x8000
        let b1 := ({ b0 with serve := { b0.serve with parks := b0.serve.parks.map fun x => if x == k then k' else x } } : Block).send
          (.hostWrite fn (k.host + 0x8000 * granule) 0x8000 data (b.fnSt fn).relaxed)
        if k'.landed then
          let b2 := b1.setPhase c fun p => { p with grow := true }
          match b.objAt k.addr with
          | some (f, n, _) => (b2.unmapObj f n).parkDone c k.started
          | none => b2.parkDone c k.started
        else b1
    | _, _ => b
  | none => b

/-- The entries of a PHASE to LEARN that it must map and read again; one whose park has not landed stays mapped. -/
def Block.toRestore (b : Block) (j : PhaseJob) : List (Nat × Nat × Nat) := j.park.filter fun x => (b.objAt x.1).isNone

-- Log entries 27 (DESIGN CHOICE), 91 (DEDUCED).
/-- An object is mapped again, writable, with no hint, homed in DRAM, in the lowest free frames. -/
def Block.restoreMap (b : Block) (c : Nat) (x : Nat × Nat × Nat) : Block :=
  match place x.1 with
  | .unified f g _ =>
    let n := b.freeObj f 65535 1
    let o : TierObj := { TierObj.init with base := g, count := x.2.2, camp := c, writable := true, loading := true }
    ((List.range x.2.2).foldl (fun (y : Block × Nat) i => y.1.placeGranule f n o i y.2) (b.setObj f n o, 0)).1
  | _ => b

/-- Element `elem` of a restore arrives. -/
def Block.restoreElement (b : Block) (elem data : Nat) : List (Nat × Nat × Nat) → Block
  | [] => b
  | x :: r =>
    if elem < x.2.2 then
      match place x.1 with
      | .unified f g _ =>
        let e := b.dirEntry f (g + elem)
        b.fillFor e.camp (frameAddr f 2 e.locA) (bytesLE 0x8000 data)
      | _ => b
    else b.restoreElement (elem - x.2.2) data r

/-! ### The switch (R350 to R352) -/

/-- PHASE_DONE and OK, once the switch is made, the pools built and no increase of the plan is unsettled (R353). -/
def Block.finishPhase (b : Block) (c : Nat) : Block :=
  match b.serve.phaseJobs.find? fun j => j.camp == c && j.switched != 0 with
  | some j =>
    if b.rat.plans.any (fun p => p.1 == c) then b
    else
      let us := (b.fab.time - (j.started - 1)) / 1000
      let positions := match (b.servedBy j).head? with
        | some id => (b.model? c id).elim 0 b.poolPositions
        | none => 0
      let b1 := (b.setPhase c fun p => { p with switchUs := us }).raise 0x0550 0xFF c
        (packBits [(0, 32, j.seq), (32, 2, j.old), (40, 2, j.target), (48, 16, j.held), (64, 32, us), (96, 32, positions)])
      (b1.endPhase j 0 (packBits [(0, 16, j.held)])).startPhase c
  | none => b

/-- The phase itself changes. -/
def Block.makeSwitch (b : Block) (j : PhaseJob) (held : Nat) : Block :=
  let c := j.camp
  let b1 := (b.setPhase c fun p => { p with
    phase := j.target
    modelA := if j.modelA = 0 then p.modelA else j.modelA
    modelB := if j.target = 1 then j.modelB else p.modelB }).bump (F.phaseSwitches c)
  b1.setPhaseJob c j.seq fun x => { x with switched := b.fab.time + 1, held := held }

/-- A restore drops the parks of its table's objects that are not copied out, or that are mapped (R360). -/
def Block.dropParks (b : Block) (j : PhaseJob) : Block :=
  { b with serve := { b.serve with parks := b.serve.parks.filter fun k =>
      !(k.camp == j.camp && (j.park.any fun x => x.1 == k.addr) && (!k.landed || (b.objAt k.addr).isSome)) } }

/-- The shortfall in bytes of pools that need at least `rows` rows. -/
def Block.poolsShort (b : Block) (c : Nat) (ms : List Model) (rows : Nat) : Nat :=
  32768 * sumOf ((List.range 96).map fun f => poolsNeed ms f rows - b.available f 2 c false)

/-- The camp's DRAM that is free, in bytes. -/
def Block.campFree (b : Block) (c : Nat) : Nat := 32768 * sumOf ((List.range 96).map fun f => b.available f 2 c false)

/-- The released pools are rebuilt as they were in `b0`. -/
def Block.rebuild (b : Block) (c : Nat) (b0 : Block) : Block :=
  let b1 := (b0.serve.models.filter fun m => m.camp == c).foldl (fun b m => b.setModel c m.id fun x => { x with rows := m.rows, log := m.log }) b
  { b1 with page := { b1.page with pools := b0.page.pools } }

/-- The switch of a camp's PHASE at item 4: the sequences are held, the pools released and rebuilt; a PHASE to LEARN first
restores its parked objects; without room the camp stays in its phase. -/
def Block.switchPhase (b : Block) (c : Nat) : Block :=
  match b.serve.phaseJobs.find? fun j => j.camp == c && j.started != 0 && j.switched == 0 with
  | some j =>
    if b.switchDue j = false ∨ (b.host.dmas.any fun x => x.camp == c && x.seq == j.seq) = true then b
    else
      let out := b.outgoing c
      let held := j.held + out.length
      let b1 := out.foldl (fun b s => (b.preempt s).setSlot s.slot fun x => { x with held := true }) b
      let b2 := b1.releasePools c
      let ids := b2.servedBy j
      let ms := b2.serve.models.filter fun m => m.camp == c && ids.contains m.id
      if j.target = 2 then
        let need := b2.toRestore j
        let bytes := j.arena + 32768 * sumOf (need.map fun x => x.2.2)
        if need.isEmpty = false then
          if b2.campFree c < bytes then (b2.rebuild c b1).endPhase j 0x27 (bytes - b2.campFree c)
          else
            let b3 := b2.dropParks j
            -- the switch waits for the restore's elements
            ((need.foldl (fun b x => b.restoreMap c x) b3).startDma c j.seq (sumOf (need.map fun x => x.2.2))).setPhaseJob c j.seq
              fun x => { x with held := held, park := need }
        else if b2.campFree c < j.arena then ((b2.rebuild c b1).rebuildPools c).endPhase j 0x27 (j.arena - b2.campFree c)
        else ((b2.dropParks j).dropForeignIndex c []).makeSwitch j held
      else if ids.any (fun id => (b.usable c id).isNone) then (b2.rebuild c b1).endPhase j 0x22 24
      else
        let rows := b2.planRows c ms
        if ms.isEmpty = false ∧ rows < b2.minRows c then (b2.rebuild c b1).endPhase j 0x27 (b2.poolsShort c ms (b2.minRows c))
        else
          let b3 := ms.foldl (fun b m => b.givePool c m.id rows) (b2.dropForeignIndex c ids)
          let b4 := b3.makeSwitch j held
          if j.old = 2 then b4.startParks j else b4
  | none => b

-- Log entries 33 (DEDUCED), 188 (DEDUCED).
/-- A restore has ended: an object of which every element has landed stays mapped and is parked no more; any other leaves again
(R368). `first` is the first element of the rest of the table. -/
def Block.restoreEnded (b : Block) (c : Nat) (landed : Nat → Bool) (first : Nat) : List (Nat × Nat × Nat) → Block
  | [] => b
  | x :: r =>
    let b1 := match b.objAt x.1 with
      | some (f, n, o) =>
        if (List.range x.2.2).all fun i => landed (first + i) then
          ({ b with serve := { b.serve with parks := b.serve.parks.filter fun k => !(k.camp == c && k.addr == x.1) } } : Block).setObj f n
            { o with loading := false }
        else b.unmapObj f n
      | none => b
    Block.restoreEnded b1 c landed (first + x.2.2) r

/-! ### REFRESH, as consumed (R361, R362) -/

-- Log entry 125 (DEDUCED).
/-- Does an object of the model stop a REFRESH: HOME_CELLAR, COLD or SPILL_OK? -/
def Block.refreshObjBad (b : Block) (m : Model) : Bool :=
  (List.range 96).any fun f => m.objs.any fun n =>
    let o := b.obj f n
    decide (o.model = m.id ∧ o.camp = m.camp) && (decide (o.hint = 4) || decide (o.hint = 5) || decide ((b.dirEntry f o.base).tierA = 3))

-- Log entry 124 (DEDUCED).
/-- REFRESH: a consumed REFRESH is checked; its kernels run once every JOB consumed before it has completed. `covered` says that
the members' master maps cover every tile of the model exactly once. -/
def refreshEff (camp seq : Nat) (covered : Bool) (b : Block) : Block :=
  b.withDesc camp seq 0x05 fun d b =>
    match b.model? camp (d.field 16 2) with
    | none => (b.bump (F.refreshes camp)).refuse d 0x22 16
    | some m =>
      if m.state ≠ 1 then (b.bump (F.refreshes camp)).refuse d 0x22 16
      else if (b.phaseSt camp).phase ≠ 2 ∨ b.refreshObjBad m = true then (b.bump (F.refreshes camp)).refuse d 0x21 16
      else if d.bits 18 0 4 = 0 ∨ 8 < d.bits 18 0 4 then (b.bump (F.refreshes camp)).refuse d 0x21 18
      else if covered = false then (b.bump (F.refreshes camp)).refuse d 0x21 24
      else ({ b with serve := { b.serve with refreshes := b.serve.refreshes ++
        [⟨camp, seq, m.id, d.bits 18 0 4, b.fab.time, false, 0, []⟩] } } : Block).start d

end Sys2Proof.Machine
end

