-- ==== Sys2Proof/Machine/Serving.lean ====
section
/-! DEFINITION. The step boundary (R330, R331) item by item: committing tokens (R314, R340, R344), cancellations (R342), freeing,
STEP fields and phases, forks (R267), recomputes (R339), the out-of-pages procedure (R275) and reserve-ahead (R270), admission
(R333), and the next step token (R77, R78, R334). -/
namespace Sys2Proof.Machine

/-! ### What runs in a step (R334, R339, R354) -/

-- Log entry 86 (DEDUCED).
/-- Does a sequence run in the step? -/
def Slot.runs (s : Slot) : Bool := (decide (s.state = 1) || decide (s.state = 2)) && !s.skip && !s.follows

/-- Does the step write the last position of its prefill or recompute? -/
def Slot.finishing (s : Slot) : Bool := decide (s.todo = s.quota) && decide (s.redo = s.redoQuota)

-- Log entry 84 (DEDUCED).
/-- The positions written at the end of the step: a decode step writes one; a recompute of a sequence that had decoded ends
in a step that writes its next one too, since that step produces a token (R325). -/
def Slot.after (s : Slot) : Nat :=
  if s.state = 2 then s.t + 1 else if s.resume ∧ s.finishing then s.t + 1 else s.t + s.quota

/-- The model of a slot, and its request. -/
def Block.slotWork (b : Block) (s : Slot) : Option (Model × Request) :=
  match b.request? s.camp s.seq with
  | some r => (b.model? s.camp r.model).map fun m => (m, r)
  | none => none

/-- Is a running sequence void in this step (R294)? -/
def Block.isVoid (b : Block) (s : Slot) : Bool := s.void || s.trayLost || !(b.droppedRows s.slot).isEmpty

-- Log entry 85 (DEDUCED).
/-- The forks that wait for a slot's prompt. -/
def Block.followers (b : Block) (s : Slot) : List Slot :=
  if s.fork = 0 then (b.campSlotList s.camp).filter fun x => x.seq == s.seq && x.follows else []

-- Log entry 82 (DEDUCED).
/-- The rows that the step samples for a sequence: (slot, position). -/
def Block.rowsOf (b : Block) (r : Request) (s : Slot) : List (Nat × Nat) :=
  if s.runs = false ∨ b.isVoid s = true ∨ s.ended ≠ 0 then []
  else if r.kind = 2 then
    (List.range (s.after + 1 - (r.promptLen + s.gen))).map (fun i => (s.slot, r.promptLen + s.gen + i)) |>.filter fun x => decide (x.2 < r.cap)
  else if s.state = 2 ∨ s.finishing = true then (s.slot, s.after) :: (b.followers s).map fun x => (x.slot, s.after)
  else []

/-- Every row that a camp's step samples. -/
def Block.stepRows (b : Block) (c : Nat) : List (Nat × Nat) :=
  (b.campSlotList c).flatMap fun s => match b.request? s.camp s.seq with
    | some r => b.rowsOf r s
    | none => []

/-- The result of a row. -/
def Block.result? (b : Block) (c slot pos : Nat) : Option StepResult :=
  b.serve.results.find? fun x => x.camp == c && x.slot == slot && x.position == pos

/-- Have all rows their results? -/
def Block.resultsReady (b : Block) (c : Nat) : Bool := (b.stepRows c).all fun x => (b.result? c x.1 x.2).isSome

/-! ### Item 1: commit (R330, R340, R344, R421) -/

/-- ATT_VOID, once per sequence and step (R294, R298). -/
def Block.voidSlot (b : Block) (s : Slot) (m : Model) (pair page cause : Nat) : Block :=
  if s.void then b
  else ((b.setSlot s.slot fun x => { x with void := true }).bump F.attVoidRows).raise 0x0530
    (m.pageField pair page / max 1 m.team * m.team) s.camp
    (packBits [(0, 32, s.slot), (32, 16, pair), (48, 16, page), (64, 32, (b.stepSt s.camp).token), (96, 8, cause)])

/-- The bits of a token record without its phase (R420). -/
def tokenBits (slot pos flags token lp : Nat) : Nat :=
  packBits [(0, 20, slot), (20, 24, pos), (44, 20, flags), (64, 32, token), (96, 32, lp)]

/-- A token record goes to the request's TOKEN ring. -/
def Block.tokenRecord (b : Block) (r : Request) (bits : Nat) : Block :=
  b.recordFor r.camp ⟨r.fn, b.fget (F.ringCfgTokenRing (ringKey r.fn r.ring)), 3, bits, false⟩

/-- The FLAGS of a token record from those of its result (R314, R421). -/
def tokenFlags (x : Nat) (last stop substituted holes : Bool) : Nat :=
  packBits [(2, 1, last.toNat), (3, 1, bitsOf x 0 1), (4, 1, bitsOf x 1 1), (5, 1, bitsOf x 2 1), (6, 1, bitsOf x 3 1),
    (7, 1, bitsOf x 4 1), (8, 1, substituted.toNat), (9, 1, holes.toNat), (10, 1, bitsOf x 6 1), (11, 1, bitsOf x 7 1), (12, 1, stop.toNat)]

/-- Was an expert substituted in the camp's present step (R104)? -/
def Block.substitutedStep (b : Block) (c : Nat) : Bool :=
  b.tier.announces.any fun a => a.camp == c && a.decided == 2 && a.step == (b.stepSt c).token

/-- Is a CANCEL of the request observed in the step (R342)? -/
def Block.cancelSeen (b : Block) (c seq : Nat) : Bool := b.serve.cancels.any fun x => x.1 == c && x.2.2 == seq

/-- Pages gain positions t to t' - 1: those of the pages read VALID, full rows are sealed and indexed (R258, R263, R265, R272). -/
def Block.writtenRows (b : Block) (m : Model) (slot t t' : Nat) (log : List Nat) : Block :=
  let inPages := t' - t' % max 1 m.depth
  let keys := if b.prefixOn m.camp then prefixKeys log (t' / 256) 0 else []
  (List.range (cdiv inPages 256)).foldl (fun b i =>
    if i < t / 256 ∨ m.rowHere i = false then b
    else
      let b1 := b.validRow m slot i
      if 256 * (i + 1) ≤ t' then
        let b2 := b1.sealRow m slot i
        match keys[i]? with
        | some k => b2.indexRow m slot i k.1 k.2
        | none => b2
      else b1) b

/-- One result is committed: its token record, and the end that it brings. -/
def Block.commitRow (b : Block) (r : Request) (x : Nat × Nat) : Block :=
  match b.slot? x.1, b.result? r.camp x.1 x.2 with
  | some s, some res =>
    if s.state = 4 then b
    else if res.status ≠ 0 then b.endSlot r s res.status 0 0
    else
      let stop := decide (r.kind ≠ 2) && r.stops.contains res.token
      let last := stop || (if r.kind = 2 then decide (x.2 + 1 = r.cap) else decide (s.gen + 1 = r.maxNew))
      let b1 := (b.tokenRecord r (tokenBits s.slot x.2 (tokenFlags res.flags last stop (b.substitutedStep r.camp) s.holes) res.token res.logprob)).bump
        (F.tokens r.camp)
      let s' : Slot := { s with gen := s.gen + 1, log := if r.kind = 2 then s.log else s.log ++ [res.token] }
      let b2 := b1.setSlot s.slot fun _ => s'
      if last then
        b2.endSlot r s' (if b.cancelSeen r.camp r.seq then 1 else 0) (if r.kind = 2 then 2 else if stop then 0 else 1) 0
      else b2
  | _, _ => b

/-- One slot of the step is committed. -/
def Block.commitSlot (b : Block) (s : Slot) : Block :=
  match b.slotWork s with
  | some (m, r) =>
    if s.ended ≠ 0 ∧ s.state ≠ 4 then b.endSlot r s (s.ended - 1) 0 s.endBody
    else if s.runs = false then b
    else if b.isVoid s then b.voidSlot s m (((b.slotPtes s.slot).find? fun x => bitAt x.2.2 29).elim 0 (·.1)) ((b.droppedRows s.slot).headD 0) 0
    else
      let rows := b.rowsOf r s
      let t' := s.after
      let b1 := b.writtenRows m s.slot (if s.redo ≠ 0 then 0 else s.t) t' s.log
      let b2 := b1.setSlot s.slot fun x => { x with
        t := t', todo := s.todo - s.quota, redo := s.redo - s.redoQuota, quota := 0, redoQuota := 0,
        state := if s.finishing = true ∧ r.kind ≠ 2 then 2 else s.state,
        resume := s.resume && !s.finishing }
      rows.foldl (fun b x => b.commitRow r x) b2
  | none => b

/-- The requests of a camp that have ended, by their lowest slot. -/
def Block.endedRequests (b : Block) (c : Nat) : List Request :=
  let ends := sortBy (fun (x y : ForkEnd) => decide (x.slot < y.slot)) (b.serve.forkEnds.filter fun e => e.camp == c)
  (ends.map (·.seq)).dedup.filterMap fun seq => (b.request? c seq).bind fun r => if (b.requestDone r).isSome then some r else none

/-- A request whose sequences have all ended is completed, and remembered for item 2. -/
def Block.completeDone (b : Block) (r : Request) : Block :=
  match b.requestDone r with
  | some (status, body) =>
    let b1 := b.completeRequest r status body
    { b1 with serve := { b1.serve with justDone := b1.serve.justDone ++ [(r.camp, r.seq, status)] } }
  | none => b

/-- Item 1: token records in ascending slot order, then completions in ascending slot order. -/
def Block.item1 (b : Block) (c : Nat) : Block :=
  let order := sortBy (fun (x y : Slot) => decide (x.slot < y.slot)) (b.campSlotList c)
  let b1 := order.foldl (fun b s => b.commitSlot s) b
  let b2 := (b1.endedRequests c).foldl (fun b r => b.completeDone r) b1
  { b2 with serve := { b2.serve with results := b2.serve.results.filter fun x => x.camp != c } }

-- Log entry 79 (DESIGN CHOICE).
/-- Have the camp's TOKEN rings room for the records that wait for them (R409)? -/
def Block.tokenRoom (b : Block) (c : Nat) : Bool :=
  b.ring.rings.all fun kv =>
    !(kv.2.enabled && decide (ringKind b.regs kv.1 = 3) && b.fnServes (kv.1 / 64) c && b.fnReceives (kv.1 / 64)) ||
    decide ((b.ring.outbox.filter fun r => ringKey r.fn r.ring == kv.1).length + (kv.2.tail + ringSize b.regs kv.1 - kv.2.head) % ringSize b.regs kv.1
      ≤ ringSize b.regs kv.1 - 1)

/-! ### Item 2: cancellations (R342) -/

/-- One observed CANCEL acts. -/
def Block.cancelOne (b : Block) (c seq target : Nat) : Block :=
  match b.serve.justDone.find? fun x => x.1 == c && x.2.1 == target with
  | some x =>
    ({ b with serve := { b.serve with justDone := b.serve.justDone.filter (· != x) } } : Block).completeSeq c seq 0 x.2.2
  | none =>
    match b.serve.queue.find? fun r => r.camp == c && r.seq == target with
    | some r => (b.completeRequest r 0x40 0).completeSeq c seq 0 0x40
    | none =>
      match b.request? c target with
      | some r =>
        let b1 := ((b.campSlotList c).filter fun s => s.seq == target && s.state != 4).foldl (fun b s => b.endSlot r s 0x40 3 0) b
        match b1.requestDone r with
        | some (status, body) => (b1.completeRequest r status body).completeSeq c seq 0 status
        | none => b1.completeSeq c seq 0x21 16
      | none => b.completeSeq c seq 0x21 16

/-- Item 2. -/
def Block.item2 (b : Block) (c : Nat) : Block :=
  let mine := b.serve.cancels.filter fun x => x.1 == c
  let b1 := mine.foldl (fun b x => b.cancelOne c x.2.1 x.2.2) b
  { b1 with serve := { b1.serve with
      cancels := (b1.serve.cancels.filter fun x => x.1 != c) ++ b1.serve.lateCancels.filter fun x => x.1 == c
      lateCancels := b1.serve.lateCancels.filter fun x => x.1 != c
      justDone := b1.serve.justDone.filter fun x => x.1 != c
      counted := b1.serve.counted.filter fun x => x.1 != c } }

/-! ### Item 3: freeing (R341, R97) -/

/-- A slot becomes FREE: its pages, trays and log go. -/
def Block.freeSlot (b : Block) (s : Slot) : Block :=
  let b1 := match b.model? s.camp s.model with
    | some m => b.freePages' m s.slot
    | none => b
  let b2 := b1.freeTraysOf s.slot
  ({ b2 with serve := { b2.serve with slots := b2.serve.slots.filter fun x => x.slot != s.slot } } : Block).trimNow

-- Log entry 85 (DEDUCED).
/-- Item 3: ended sequences are freed (a fork 0 whose forks are still to be made, after them), dropped pages' frames go,
directory entries are rebuilt, UNMAP and UNLOAD_MODEL take effect. -/
def Block.item3 (b : Block) (c : Nat) : Block :=
  let ended := (b.campSlotList c).filter fun s => s.state == 4 && (b.followers s).isEmpty
  (((((ended.foldl (fun b s => b.freeSlot s) b).freeDropped c).trimNow.rebuildEntries).boundaryUnmap c).boundaryUnload c).poolLow

/-! ### Item 4: STEP fields, STATS, the phase -/

/-- A camp's 16 serving words (R347) as they read. -/
def Block.servingWord (b : Block) (c i : Nat) : Nat :=
  match i with
  | 4 => packBits [(0, 17, ((b.campSlotList c).filter fun s => s.state == 1 || s.state == 2).length)]
  | 5 => packBits [(0, 17, b.queued c)]
  | 6 => satTo 32 (b.phaseSt c).projected
  | _ => (regWord b.regs (0xC00100 + 0x40 * c + 4 * i)).toNat

-- Log entries 90 (DEDUCED), 174 (DEDUCED).
/-- A camp's 8 phase words (R371) as they read. -/
def Block.phaseWord (b : Block) (c i : Nat) : Nat :=
  let p := b.phaseSt c
  match i with
  | 0 =>
    let held := satTo 16 ((b.campSlotList c).filter fun s => s.held && s.state == 3).length
    match b.serve.phaseJobs.find? fun j => j.camp == c && j.started != 0 && j.switched == 0 with
    | some j => packBits [(0, 2, p.phase), (2, 1, 1), (4, 2, j.target), (6, 1, j.hold.toNat), (16, 16, held)]
    | none => packBits [(0, 2, p.phase), (16, 16, held)]
  | 1 => p.version % 2 ^ 32
  | 3 => satTo 32 p.switchUs
  | 4 => satTo 32 p.refreshUs
  | 7 => sumOf ((b.serve.parks.filter fun k => k.camp == c && k.landed).map (·.granules)) % 2 ^ 26
  | _ => (regWord b.regs (0xC00800 + 0x20 * c + 4 * i)).toNat

/-- The CNT words among a camp's 16 serving and 8 phase words (R432). -/
def statsCounters (c : Nat) : List Nat :=
  (List.range 8).map (fun i => 0xC00120 + 0x40 * c + 4 * i) ++ [0xC00814 + 0x20 * c, 0xC00818 + 0x20 * c]

-- Log entry 175 (DEDUCED).
/-- The 128 bytes of a snapshot. -/
def Block.snapshot (b : Block) (c : Nat) : Nat :=
  packBits ((List.range 16).map (fun i => (32 * i, 32, b.servingWord c i)) ++
    (List.range 8).map (fun i => (512 + 32 * i, 32, b.phaseWord c i)) ++
    [(768, 32, (regWord b.regs (0x600100 + 8 * c)).toNat + campGuarantee b.camp.live c % 2 ^ 9), (800, 32, (regWord b.regs (0x600104 + 8 * c)).toNat),
     (832, 64, b.fab.time), (896, 32, (b.stepSt c).token)])

/-- A STATS takes its snapshot. -/
def Block.takeStats (b : Block) (c seq : Nat) : Block :=
  match b.desc? c seq with
  | some d =>
    let b1 := b.send (.hostWrite d.fn (d.field 24 8) 128 (b.snapshot c) false)
    let b2 : Block := if d.bits 16 0 1 = 1 then
        { b1 with regs := (statsCounters c).foldl (fun m o => sset resetWord m o 0) b1.regs } else b1
    b2.complete d 0 (b.stepSt c).token
  | none => b

/-- STATS: a consumed STATS waits for item 4 of the camp's next boundary, or is taken at once when no step is in progress. -/
def statsEff (camp seq : Nat) (b : Block) : Block :=
  b.withDesc camp seq 0x0C fun d b =>
    if d.field 24 8 % 8 ≠ 0 then b.refuse d 0x21 24
    else if b.inStep camp then ({ b with serve := { b.serve with stats := b.serve.stats ++ [(camp, seq)] } } : Block).start d
    else b.takeStats camp seq

/-- Item 4. -/
def Block.item4 (b : Block) (c : Nat) : Block :=
  let b1 := b.takeStep c
  let b2 := b1.trimNow
  let b3 := (b2.serve.stats.filter fun x => x.1 == c).foldl (fun b x => b.takeStats c x.2) b2
  let b4 : Block := { b3 with serve := { b3.serve with stats := b3.serve.stats.filter fun x => x.1 != c } }
  (b4.startPhase c).switchPhase c

/-! ### Item 5: forks, recomputes, pages (R267, R339, R270, R275) -/

/-- One fork is made: it names fork 0's pages, holds a copy of its trays, and decodes from the next step on. -/
def Block.makeFork (b : Block) (m : Model) (s0 s : Slot) : Block :=
  ((b.forkPages m s0.slot s.slot).forkTrays m s0.slot s.slot).setSlot s.slot fun x => { x with follows := false, state := 2, t := s0.t }

-- Log entries 75 (DESIGN CHOICE), 85 (DEDUCED).
/-- The forks of every group whose prompt is written. -/
def Block.makeForks (b : Block) (c : Nat) : Block :=
  (sortBy (fun (x y : Slot) => decide (x.slot < y.slot)) (b.campSlotList c)).foldl (fun b s =>
    let fs := b.followers s
    if fs.isEmpty ∨ (s.state ≠ 2 ∧ s.state ≠ 4) then b
    else match b.slotModel s.slot with
      | some m =>
        let s0 : Slot := { s with t := (b.request? s.camp s.seq).elim s.t (·.promptLen) }
        let b1 := (fs.foldl (fun b x => if x.state = 4 then b.setSlot x.slot fun y => { y with follows := false } else b.makeFork m s0 x) b).bump F.forks
        if s.state = 4 then b1.freeSlot s else b1
      | none => b) b

/-- A dropped page of a slot is found again in the prefix index and shared. -/
def Block.refind (b : Block) (m : Model) (slot i : Nat) (e : PrefixEnt) : Block :=
  m.pairList.foldl (fun b p =>
    if bitAt (b.pte slot p i) 29 then
      match e.pages.find? fun x => x.1 == p with
      | some x => match b.pageAt x.2.1 x.2.2 with
        | some y =>
          -- past 65,535 references the page is recomputed privately (R269)
          if y.refcnt < 65535 then (b.setPte slot p i (pteValid + x.2.2)).setPage x.2.1 x.2.2 (some { y with refcnt := y.refcnt + 1 }) else b
        | none => b
      | none => b
    else b) b

/-- The dropped whole pages of a sequence are looked up in the prefix index (chapter 10, "When a page is dropped"). -/
def Block.refindRows (b : Block) (m : Model) (s : Slot) : Block :=
  if b.prefixOn s.camp = false then b
  else
    let keys := prefixKeys s.log (s.t / 256) 0
    (b.droppedRows s.slot).foldl (fun b i => match keys[i]? with
      | some k =>
        let x := b.prefixLookup m s.slot i [k]
        match x.1 with
        | e :: _ => (x.2.refind m s.slot i e).bump F.prefixHitRows
        | [] => x.2
      | none => b) b

-- Log entry 84 (DEDUCED).
/-- The positions that a recompute rewrites: those of the rows with a dropped page, and those of lost trays. -/
def Block.redoPositions (b : Block) (m : Model) (s : Slot) : Nat :=
  sumOf ((b.droppedRows s.slot).map fun i => min 256 (s.t - 256 * i)) + (if s.trayLost then s.t % max 1 m.depth else 0)

-- Log entry 84 (DEDUCED).
/-- A sequence with dropped pages enters PREFILL (R339). -/
def Block.enterRecompute (b : Block) (s : Slot) : Block :=
  match b.slotWork s with
  | some (m, r) =>
    if s.follows = true ∨ (s.state ≠ 1 ∧ s.state ≠ 2) ∨ (s.trayLost = false ∧ (b.droppedRows s.slot).isEmpty) then b
    else
      let n := b.redoPositions m s
      let b1 := b.refindRows m s
      let redo := b1.redoPositions m s
      (b1.setSlot s.slot fun x => { x with state := 1, resume := s.resume || decide (s.state = 2), redo := redo, void := false, trayLost := false }).raiseIf
        (decide (s.redo = 0)) 0x0503 0xFF s.camp (servePayload s.seq s.slot 0 r.cls n)
  | none => b

/-- What a sequence needs at item 5. -/
structure Need where
  /-- dropped pages to replace: (pair, page) -/
  lost : List (Nat × Nat)
  /-- 0 no row, 1 a new row, 2 private copies of its shared pages -/
  row : Nat
  /-- pairs whose tray is missing -/
  trays : List Nat
  /-- the fields of the pages needed, one entry per page -/
  pages : List Nat
  /-- the fields of the trays needed -/
  trayFields : List Nat
deriving DecidableEq, Repr

def Need.none (n : Need) : Bool := n.lost.isEmpty && decide (n.row = 0) && n.trays.isEmpty

-- Log entry 84 (DEDUCED).
/-- Does the sequence write its next decode position in the coming step? -/
def Slot.decodes (s : Slot) : Bool := decide (s.state = 2) || (decide (s.state = 1) && s.resume)

/-- The need of a sequence as it stands now (R270, R262, R339). -/
def Block.needOf (b : Block) (m : Model) (s : Slot) : Need :=
  let lost := ((b.slotPtes s.slot).filter fun x => bitAt x.2.2 29).map fun x => (x.1, x.2.1)
  let i := s.t / 256
  let here := m.rowHere i
  let fills := s.decodes && here && decide ((s.t + 1) % max 1 m.depth = 0)
  let shared := if fills then b.sharedFields m s.slot i else []
  let row := if fills = false then 0 else if b.rowHeld m s.slot i = false then 1 else if shared.isEmpty then 0 else 2
  let trays := if s.decodes && here then m.pairList.filter fun p => (b.trayOf s.slot p).isNone else []
  { lost := lost
    row := row
    trays := trays
    pages := (lost.map fun x => m.pageField x.1 x.2) ++
      (match row with | 1 => m.pairList.map fun p => m.pageField p i | 2 => shared | _ => [])
    trayFields := trays.map fun p => m.pageField p i }

def countIn (x : Nat) (xs : List Nat) : Nat := (xs.filter (· == x)).length

/-- The fields in which a need does not fit. -/
def Block.shortFields (b : Block) (m : Model) (n : Need) : List Nat :=
  (List.range 96).filter fun f => decide (b.freePages m f < countIn f n.pages) || decide (b.freeTrays m f < countIn f n.trayFields)

/-- Is a page of an entry, in one of the fields, held only by the index? -/
def Block.indexOnlyIn (b : Block) (e : PrefixEnt) (fs : List Nat) : Bool :=
  e.pages.any fun p => fs.contains p.2.1 && match b.pageAt p.2.1 p.2.2 with | some x => decide (x.refcnt = 1) | none => false

/-- Step 1 of R275: index entries give way, least recently matched first. -/
def Block.indexGiveWay (b : Block) (m : Model) (n : Need) : Nat → Block
  | 0 => b
  | k + 1 =>
    let fs := b.shortFields m n
    if fs.isEmpty then b
    else match leastMatched (b.page.index.filter fun e => e.camp == m.camp && e.model == m.id && b.indexOnlyIn e fs) with
      | some e => Block.indexGiveWay (b.dropIndex e) m n k
      | none => b

/-- The holed blocks of a camp's sequences. -/
def Block.holedBlocks (b : Block) (c : Nat) : Nat :=
  sumOf ((b.campSlotList c).map fun s => match b.slotModel s.slot with
    | some m => sumOf ((b.slotPtes s.slot).map fun x =>
        if x.2.2 = pteHoled then 16
        else if pteStands x.2.2 then (match b.pageAt (m.pageField x.1 x.2.1) (pteFrame x.2.2) with | some p => popCount p.holes 16 | none => 0)
        else 0)
    | none => 0)

/-- Step 2 of R275: score eviction in the short fields, where the camp has it on. -/
def Block.evictFor (b : Block) (m : Model) (n : Need) : Block :=
  if bitAt (b.inForceFor m.camp F.evictConfigCampMask) m.camp then
    (b.shortFields m n).foldl (fun b f => b.evictField m f (countIn f n.pages)) b
  else b

/-- Step 3 of R275: the next victim for a sequence short in some fields. -/
def Block.pageVictim (b : Block) (m : Model) (cls slot : Nat) (fs done : List Nat) : Option Slot :=
  let ok := (b.campSlotList m.camp).filter fun v =>
    (v.state == 1 || v.state == 2) && v.slot != slot && !done.contains v.slot &&
    (match b.request? v.camp v.seq with | some r => r.model == m.id && decide (cls ≤ r.cls) | none => false) &&
    (b.slotPtes v.slot).any fun x => pteStands x.2.2 && fs.contains (m.pageField x.1 x.2.1)
  let cl (v : Slot) : Nat := (b.request? v.camp v.seq).elim 0 (·.cls)
  (sortBy (fun (x y : Slot) =>
    decide (cl y < cl x) || (decide (cl x = cl y) && (decide (x.gen < y.gen) || (decide (x.gen = y.gen) &&
      (decide (y.admitted < x.admitted) || (decide (x.admitted = y.admitted) && decide (y.slot < x.slot))))))) ok).head?

/-- Preempt victims one at a time until the need fits; answers how many (the fuel is the number of slots). -/
def Block.preemptFor (b : Block) (m : Model) (cls slot : Nat) (done : List Nat) : Nat → Block × Nat
  | 0 => (b, 0)
  | k + 1 =>
    match b.slot? slot with
    | some s =>
      let fs := b.shortFields m (b.needOf m s)
      if fs.isEmpty then (b, 0)
      else match b.pageVictim m cls slot fs done with
        | some v =>
          let x := Block.preemptFor ((b.preempt v).bump F.oopPreemptions) m cls slot done k
          (x.1, x.2 + 1)
        | none => (b, 0)
    | none => (b, 0)

-- Log entry 74 (DEDUCED).
/-- A need that fits is met: lost pages and a new row are reserved, shared pages copied, trays taken. -/
def Block.meetNeed (b : Block) (m : Model) (s : Slot) (n : Need) : Block :=
  let i := s.t / 256
  let b1 := n.lost.foldl (fun b x => b.reservePage m s.slot x.1 x.2) b
  let b2 := match n.row with
    | 1 => b1.reserveRow m s.slot i
    | 2 => b1.privateRow m s.slot i (s.t - s.t % max 1 m.depth - 256 * i)
    | _ => b1
  if n.trays.isEmpty then b2
  else n.trays.foldl (fun b p => match b.trayPlace (m.pageField p i) m.trayBytes with
    | some o =>
      let t : TrayEnt := ⟨s.slot, p, m.camp, m.trayBytes, false, false⟩
      { b with page := { b.page with trays := sset (fun _ => none) b.page.trays (m.pageField p i * 2 ^ 27 + o) (some t) } }
    | none => b) b2

/-- One needing sequence is served: (block, slots that hold reservations, preempted, deferred). -/
def Block.serveNeed (x : Block × List Nat × Nat × Nat) (slot : Nat) : Block × List Nat × Nat × Nat :=
  let b := x.1
  match b.slot? slot with
  | some s =>
    match b.slotWork s with
    | some (m, r) =>
      let n := b.needOf m s
      if (s.state ≠ 1 ∧ s.state ≠ 2) ∨ n.none = true then x
      else
        let b1 := (b.indexGiveWay m n b.page.index.length).evictFor m n
        let y := b1.preemptFor m r.cls slot x.2.1 b1.serve.slots.length
        let n' := y.1.needOf m s
        if (y.1.shortFields m n').isEmpty then ((y.1.meetNeed m s n').trimNow, slot :: x.2.1, x.2.2.1 + y.2, x.2.2.2)
        else
          (((y.1.setSlot slot fun z => { z with skip := true }).bump F.oopDeferrals).defer r [slot] 0x10 0 slot, x.2.1, x.2.2.1 + y.2, x.2.2.2 + 1)
    | none => x
  | none => x

/-- The trays of a sealed row are released (R262): those that do not lie with the open row's pages. -/
def Block.releaseSealedTrays (b : Block) (s : Slot) : Block :=
  match b.slotModel s.slot with
  | some m =>
    if s.decodes = false ∨ s.t % 256 ≠ 0 then b
    else { b with page := { b.page with trays := b.page.trays.filter fun kv => match kv.2 with
        | some t => t.slot != s.slot || (m.rowHere (s.t / 256) && decide (kv.1 / 2 ^ 27 = m.pageField t.pair (s.t / 256)))
        | none => false } }
  | none => b

-- Log entry 196 (DEDUCED).
/-- Item 5. -/
def Block.item5 (b : Block) (c : Nat) : Block :=
  let b1 := (b.makeForks c).applyCapacity
  let slots := sortBy (fun (x y : Slot) => decide (x.slot < y.slot)) (b1.campSlotList c)
  let b2 := slots.foldl (fun b s => (b.enterRecompute s).setSlot s.slot fun x => { x with skip := false, void := false }) b1
  let b3 := (b2.campSlotList c).foldl (fun b s => b.releaseSealedTrays s) b2
  let cl (s : Slot) : Nat × Nat := (b3.request? s.camp s.seq).elim (0, 0) fun r => (r.cls, r.age)
  let order := sortBy (fun (x y : Slot) => decide ((cl x).1 < (cl y).1) || (decide ((cl x).1 = (cl y).1) &&
    (decide ((cl x).2 < (cl y).2) || (decide ((cl x).2 = (cl y).2) && decide (x.slot < y.slot)))))
    ((b3.campSlotList c).filter fun s => (s.state == 1 || s.state == 2) && !s.follows)
  let x := order.foldl (fun x s => Block.serveNeed x s.slot) (b3, [], 0, 0)
  let holed := x.1.holedBlocks c - b3.holedBlocks c
  let b4 := x.1.raiseIf (decide (0 < holed)) 0x0522 0xFF c
    (packBits [(0, 32, holed), (32, 32, x.1.fget F.evictPagesFreed - b3.fget F.evictPagesFreed)])
  let b5 := b4.raiseIf (decide (0 < x.2.2.1 + x.2.2.2)) 0x0523 0xFF c (packBits [(0, 32, x.2.2.1), (32, 32, x.2.2.2)])
  (b5.growPools c).poolLow

/-! ### Item 6: admission (R333, R272, R338, R422) -/

/-- The lowest `n` free slots. -/
def Block.freeSlots (b : Block) : Nat → Nat → Nat → List Nat
  | 0, _, _ => []
  | k + 1, n, s =>
    if n = 0 then [] else if (b.slot? s).isSome then Block.freeSlots b k n (s + 1) else s :: Block.freeSlots b k (n - 1) (s + 1)

/-- The fields of the pages of some rows, one entry per page. -/
def Model.rowFields (m : Model) (rows : List Nat) : List Nat := rows.flatMap fun i => if m.rowHere i then m.pairList.map fun p => m.pageField p i else []

/-- Do the rows beyond the hits, and the open row's trays for `forks` sequences, fit? -/
def Block.rowsFit (b : Block) (m : Model) (hits n forks : Nat) : Bool :=
  let pages := m.rowFields ((List.range (cdiv n 256)).drop hits)
  let trays := m.rowFields [n / 256]
  (List.range 96).all fun f => decide (countIn f pages ≤ b.freePages m f) && decide (forks * countIn f trays ≤ b.freeTrays m f)

/-- Fork 0's rows are shared or reserved, and the trays of every sequence taken. -/
def Block.takeRows (b : Block) (m : Model) (slots : List Nat) (hits : List PrefixEnt) (n : Nat) : Block :=
  let slot := slots.headD 0
  let b1 := (List.range hits.length).foldl (fun b i => match hits[i]? with
    | some e => (({ b with page := { b.page with index := b.page.index.map fun x => if x == e then { x with matched := b.fab.time } else x } } : Block).shareRow
        m slot i e.pages).bump F.prefixHitRows
    | none => b) b
  let b2 := ((List.range (cdiv n 256)).drop hits.length).foldl (fun b i => if m.rowHere i then b.reserveRow m slot i else b) b1
  if m.rowHere (n / 256) then slots.foldl (fun b s => b.takeTrays m s (n / 256)) b2 else b2

/-- The prefix hits of a token sequence's whole pages, when the index is on. -/
def Block.hitsFor (b : Block) (m : Model) (slot : Nat) (toks : List Nat) (pages : Nat) : List PrefixEnt × Block :=
  if b.prefixOn m.camp then b.prefixLookup m slot 0 (prefixKeys toks pages 0) else ([], b)

/-- A request is admitted: its slots, its rows and trays, one ADMIT record per slot. -/
def Block.admitOne (b : Block) (m : Model) (r : Request) (slots : List Nat) (hits : List PrefixEnt) : Block :=
  let b1 := b.takeRows m slots hits r.prefill
  let from_ := 256 * hits.length
  let new (i slot : Nat) : Slot :=
    ⟨slot, r.camp, r.seq, i, 1, r.tokens, if i = 0 then from_ else 0, if i = 0 then r.prefill - from_ else 0, 0, 0, 0, false, decide (0 < i), 0,
      r.deferred, false, false, false, false, false, 0, b1.serve.nextAdmit, 0, 0, r.model, false⟩
  let b2 : Block := { b1 with serve := { b1.serve with
      slots := b1.serve.slots ++ (List.range slots.length).map fun i => new i (slots.getD i 0)
      queue := b1.serve.queue.filter fun x => !(x.camp == r.camp && x.seq == r.seq)
      requests := b1.serve.requests ++ [r]
      nextAdmit := b1.serve.nextAdmit + 1 } }
  (List.range slots.length).foldl (fun b i => b.tokenRecord r (tokenBits (slots.getD i 0) r.promptLen 2 r.seq i)) (b2.bump (F.admitted r.camp))

/-- A preempted sequence is admitted again: it re-writes its prompt and every logged token. -/
def Block.readmit (b : Block) (m : Model) (r : Request) (s : Slot) (n : Nat) (hits : List PrefixEnt) : Block :=
  let from_ := 256 * hits.length
  let b1 := (b.takeRows m [s.slot] hits n).setSlot s.slot fun x => { x with
    state := 1, t := from_, todo := n - from_, held := false, admitted := b.serve.nextAdmit }
  ({ b1 with serve := { b1.serve with nextAdmit := b1.serve.nextAdmit + 1 } } : Block).raise 0x0502 0xFF s.camp
    (servePayload s.seq s.slot 0 r.cls (min n (r.promptLen + s.gen) - from_))

/-- An entry of the wait queue: a queued request, or a preempted slot. -/
inductive Waiting where
  | request (r : Request)
  | slot (r : Request) (s : Slot)

def Waiting.req : Waiting → Request
  | .request r => r
  | .slot r _ => r

-- Log entry 81 (DEDUCED).
/-- The wait queue in order of class, then age. -/
def Block.waitOrder (b : Block) (c : Nat) : List Waiting :=
  let preempted := (sortBy (fun (x y : Slot) => decide (x.slot < y.slot)) ((b.campSlotList c).filter fun s => s.state == 3)).filterMap fun s =>
    (b.request? c s.seq).map fun r => Waiting.slot r s
  sortBy (fun (x y : Waiting) => decide (x.req.cls < y.req.cls) || (decide (x.req.cls = y.req.cls) && decide (x.req.age < y.req.age)))
    (preempted ++ (b.serve.queue.filter fun r => r.camp == c).map Waiting.request)

/-- The batch: slots in PREFILL or DECODE. -/
def Block.batch (b : Block) (c : Nat) : Nat := ((b.campSlotList c).filter fun s => s.state == 1 || s.state == 2).length

/-- The log entries that a model's admitted requests may use. -/
def Block.logUsed (b : Block) (m : Model) : Nat :=
  sumOf ((b.serve.requests.filter fun r => r.camp == m.camp && r.model == m.id).map fun r => r.forks * r.cap)

/-- Why an entry is not admitted: (reason, value), or none (R333). -/
def Block.admitBar (b : Block) (m : Model) (r : Request) (new : Bool) : Option (Nat × Nat) :=
  let need := if new then r.forks else 1
  let proj := if new then b.requestProjection r else 0
  let excess := b.projected m + proj - b.budgetFor m r.cls
  if new ∧ b.slotsFor r.camp r.cls < (b.campSlotList r.camp).length + r.forks then some (0x11, 0)
  else if new ∧ 65536 < b.serve.slots.length + r.forks then some (0x11, 0)
  else if b.batchMax r.camp < b.batch r.camp + need then some (0x12, 0)
  else if 0 < excess then some (0x12, excess)
  else if new ∧ m.rows * 512 < b.logUsed m + r.forks * r.cap then some (0x10, 0)
  else none

-- Log entries 76 (DESIGN CHOICE), 181 (DEDUCED).
/-- The body of an ended request whose token ids could not be read (R386). -/
def Block.readFailBody (b : Block) (r : Request) : Nat :=
  if r.readBad = 0x30 then packBits [(0, 64, r.field 56 8), (64, 8, 0xFF)]
  else if r.readBad = 0x34 then (Config.internalReason b.free).toNat else 0

-- Log entries 87 (DEDUCED), 181 (DEDUCED).
/-- One entry of the wait queue is tried; `blocked` is the reason that stopped admission, 0 for none. -/
def Block.tryAdmit (x : Block × Nat) (w : Waiting) : Block × Nat :=
  let b := x.1
  let r := w.req
  let slots := match w with | .request _ => [] | .slot _ s => [s.slot]
  let at_ := match w with | .request _ => noSlot | .slot _ s => s.slot
  match b.model? r.camp r.model with
  | none => (b.defer r slots 0x14 0 at_, x.2)
  | some m =>
    if b.admitsKind r.camp r.kind m = false then (b.defer r slots 0x14 0 at_, x.2)
    else if x.2 ≠ 0 then
      let proj := match w with | .request _ => b.requestProjection r | .slot _ _ => 0
      (b.defer r slots x.2 (if x.2 = 0x12 then b.projected m + proj - b.budgetFor m r.cls else 0) at_, x.2)
    else match w with
      | .request r =>
        let short := b.objectShort m r
        if short ≠ 0 then ((b.bump (F.refused r.camp)).completeRequest r 0x27 short, 0)
        else if r.readBad ≠ 0 then (b.tick.completeRequest r r.readBad (b.readFailBody r), 0)
        else match b.admitBar m r true with
          | some (reason, value) => (b.defer r [] reason value noSlot, reason)
          | none =>
            let free := b.freeSlots 65536 r.forks 0
            let y := b.hitsFor m (free.headD 0) r.tokens (r.promptLen / 256)
            if y.2.rowsFit m y.1.length r.prefill r.forks then (y.2.admitOne m r free y.1, 0)
            else (y.2.defer r [] 0x10 0 noSlot, 0x10)
      | .slot r s =>
        match b.admitBar m r false with
        | some (reason, value) => (b.defer r slots reason value at_, reason)
        | none =>
          let n := if r.kind = 2 then r.prefill else s.log.length
          let y := b.hitsFor m s.slot s.log ((if r.kind = 2 then r.promptLen else n) / 256)
          if y.2.rowsFit m y.1.length n 1 then (y.2.readmit m r s n y.1, 0)
          else (y.2.defer r slots 0x10 0 at_, 0x10)

/-- Item 6. -/
def Block.item6 (b : Block) (c : Nat) : Block :=
  let x := (b.waitOrder c).foldl Block.tryAdmit (b, 0)
  let total := sumOf ((x.1.serve.models.filter fun m => m.camp == c).map x.1.projected)
  ((x.1.setPhase c fun p => { p with projected := total }).queueMark c).poolLow

-- Log entry 187 (DEDUCED).
/-- The requests of a camp's step that waits past an object's deadline are reported deferred TIER_LATE, which counts no deferred step
(R336). -/
def Block.tierLateReport (b : Block) (c : Nat) : Block :=
  (sortBy (fun (x y : Slot) => decide (x.slot < y.slot)) ((b.campSlotList c).filter Slot.runs)).foldl (fun b s =>
    match b.request? c s.seq with
    | some r =>
      if r.reason = 0x15 then b
      else (b.setRequest c s.seq fun x => { x with reason := 0x15 }).raise 0x0500 0xFF c (servePayload s.seq s.slot 0x15 r.cls 0)
    | none => b) b

-- Log entry 187 (DEDUCED).
/-- The steps whose wait has just passed its object's deadline. -/
def Block.lateSteps (b : Block) (ws : List TierWait) : Block :=
  (((ws.filter fun w => w.step && decide ((b.fab.time - w.at_) / 1000 = b.deadline (b.obj w.field w.object) + 1)).map (·.camp)).dedup).foldl
    Block.tierLateReport b

/-! ### Item 7: the standing plan and the next token (R77, R78, R334, R336) -/

/-- The positions that a step may write for sequences in PREFILL (R334, R356). -/
def Block.prefillBudget (b : Block) (c : Nat) : Nat :=
  let v := if (b.phaseSt c).phase = 1 then b.inForce (F.scoreCfgScoreTokens c) else b.inForceFor c F.serveConfigPrefillTokens
  if v = 0 then 256 else v

/-- Hand a step's positions to the sequences in PREFILL, in order of age. -/
def shareOut : Nat → List Slot → List (Nat × Nat × Nat)
  | _, [] => []
  | n, s :: r =>
    let x := min s.redo n
    let y := min s.todo (n - x)
    (s.slot, x, y) :: shareOut (n - x - y) r

def Block.assignQuotas (b : Block) (c : Nat) : Block :=
  let age (s : Slot) : Nat := (b.request? s.camp s.seq).elim 0 (·.age)
  let writers := sortBy (fun (x y : Slot) => decide (age x < age y) || (decide (age x = age y) && decide (x.slot < y.slot)))
    ((b.campSlotList c).filter fun s => s.state == 1 && s.runs)
  (shareOut (b.prefillBudget c) writers).foldl (fun b x => b.setSlot x.1 fun s => { s with redoQuota := x.2.1, quota := x.2.2 }) b

-- Log entry 71 (DEDUCED).
/-- The transplants of the coming step (R263, R264): two elements for each pair of a sequence that fills its tray. -/
def Block.expectTransplants (b : Block) (c : Nat) : Block :=
  (b.campSlotList c).foldl (fun b s =>
    match b.slotModel s.slot with
    | some m =>
      if s.runs = true ∧ (s.state = 2 ∨ (s.resume = true ∧ s.finishing = true)) ∧ (s.t + 1) % max 1 m.depth = 0 ∧ m.rowHere (s.t / 256) = true then
        let b1 : Block := { b with page := { b.page with trays := b.page.trays.map fun (kv : Nat × Option TrayEnt) => (kv.1, kv.2.map fun (t : TrayEnt) =>
          if t.slot == s.slot then { t with keysMoved := false, valuesMoved := false } else t) } }
        m.pairList.foldl (fun b p => b.ackAdd c (m.pageField p (s.t / 256)) 2) b1
      else b
    | none => b) b

-- Log entry 226 (DESIGN CHOICE).
/-- The prompt page writes of the coming step (R265, R274): for each page that gains positions, an element of keys and one of values, of at
least 4 KiB. -/
def Block.expectPrompts (b : Block) (c : Nat) : Block :=
  ((b.campSlotList c).filter fun s => s.state == 1 && s.runs && decide (0 < s.quota)).foldl (fun b s =>
    match b.slotModel s.slot with
    | some m =>
      let last := s.t + s.quota - (s.t + s.quota) % max 1 m.depth
      ((List.range (cdiv last 256)).filter fun i => decide (s.t < 256 * (i + 1)) && m.rowHere i).foldl (fun b i =>
        m.pairList.foldl (fun b p =>
          let f := m.pageField p i
          let n := (min last (256 * (i + 1)) - max s.t (256 * i)) * 2 * m.dim
          (b.pageElems 2 c f s.slot p i (max 4096 n)).ackAdd c f 2) b) b
    | none => b) b

/-- Do the camp's forks still wait for the copies of their trays (R274)? -/
def Block.trayCopies (b : Block) (c : Nat) : Bool := b.page.elems.any fun e => decide (e.kind = 1) && e.camp == c

-- Log entry 98 (DESIGN CHOICE).
/-- The fields that hold the camp's work: those in service (R26, R52). -/
def Block.joinFields (b : Block) (c : Nat) : Block :=
  (List.range 96).foldl (fun b f =>
    let on := decide ((b.fieldSt f).state = 2) || decide ((b.fieldSt f).state = 3)
    let x := b.campField c f
    if x.member = on then b
    else b.setCampField c f { x with member := on, token := (b.stepSt c).token, done := (b.stepSt c).token }) b

/-- The next step starts. -/
def Block.openStep (b : Block) (c : Nat) : Block :=
  let b1 := ((((b.setPhase c fun p => { p with ramping := false }).joinFields c).assignQuotas c).expectTransplants c).expectPrompts c
  let b2 : Block := { b1 with tier := { b1.tier with announces := b1.tier.announces.filter fun a => a.camp != c } }
  b2.issueToken c

/-- A grant stands or no longer stands, for a camp and a class. -/
def Block.markGrant (b : Block) (f : Nat) (who : Asker) (cls camp : Nat) (standing : Bool) : Block :=
  let d := b.desk f
  b.setDesk f { d with grants := d.grants.map fun g => if g.who == who then { g with cls := cls, camp := camp, standing := standing } else g }

/-- Does a JOB or a kernel need an engine's grant: the wake of a pod in which it runs (R75)? -/
def Block.jobUses (b : Block) (f : Nat) (who : Asker) : Option Job :=
  if who.sub = 2 ∧ who.unit < 0x120 then b.tc.jobs.find? fun k => decide (k.phase ≠ 0) && bitAt k.fields f && k.pods.contains (who.unit / 72) else none

-- Log entry 202 (DEDUCED).
/-- A standing grant leaves the plan: it is released, or becomes the automatic grant of the JOB or kernel that works under it; a waiting one is
withdrawn. -/
def Block.planDrop (b : Block) (c f : Nat) (who : Asker) : Block :=
  match b.grantOf f who with
  | some g =>
    if g.standing = false ∨ g.camp ≠ c then b
    else match b.jobUses f who with
      | some k => b.markGrant f who (b.workClass k) k.camp false
      | none => b.release f who
  | none => b.removeReqs f fun q => q.standing && q.camp == c && q.who == who

-- Log entry 202 (DEDUCED).
/-- A grant joins the plan (R77): an engine that holds as much already keeps it, standing; one that holds or waits for another amount
gives that up and asks anew (R72). Answers whether it had to ask. -/
def Block.planAdd (b : Block) (c f : Nat) (who : Asker) (amount : Nat) : Block × Bool :=
  let cls := b.stepClass c
  match b.grantOf f who with
  | some g =>
    if g.standing = true ∧ g.camp ≠ c then (b, false)
    else if g.amount = amount then ((b.passTo f who c).markGrant f who cls c true, false)
    else (((b.passTo f who c).release f who).request f who cls c amount true, decide (g.amount < amount))
  | none =>
    if (b.desk f).queue.any fun q => q.who == who && !q.clock && q.standing && q.amount == amount && q.camp == c then (b, false)
    else (((b.passTo f who c).withdraw f who).request f who cls c amount true, true)

-- Log entries 80 (DESIGN CHOICE), 116 (DESIGN CHOICE), 202 (DEDUCED).
/-- The plan changes: standing grants that leave it, and those that join it: (field, endpoint, thread, engine, rations). An increase is
noted until every grant of it is delivered; one that is met at once settles at once (R78). -/
def Block.changePlan (b : Block) (c : Nat) (plan : List (Nat × Nat × Nat × Nat × Nat)) (drops : List (Nat × Nat × Nat × Nat)) : Block :=
  let b1 := drops.foldl (fun b x => b.planDrop c x.1 ⟨x.2.1, x.2.2.1, x.2.2.2⟩) b
  let x := plan.foldl (fun (x : Block × Bool) p =>
    let y := x.1.planAdd c p.1 ⟨p.2.1, p.2.2.1, p.2.2.2.1⟩ p.2.2.2.2
    (y.1, x.2 || y.2)) (b1, false)
  let b2 := x.1
  if x.2 = true ∧ (b2.rat.plans.any fun p => p.1 == c) = false then
    ({ b2 with rat := { b2.rat with plans := sset (fun _ => 0) b2.rat.plans c (b2.fab.time + 1) } } : Block).settle [(c, b2.fab.time + 1)]
  else b2

-- Log entry 80 (DESIGN CHOICE).
/-- Item 7. `before` is the admission count at which this boundary began. -/
def Block.item7 (b : Block) (c before : Nat) (plan : List (Nat × Nat × Nat × Nat × Nat)) (drops : List (Nat × Nat × Nat × Nat)) : Block :=
  let b0 := b.setStepSt c { b.stepSt c with inStep := false }
  if b0.batch c = 0 then
    ((b0.changePlan c plan drops).setPhase c fun p => { p with ramping := false, idleAt := b.fab.time }).finishPhase c
  else
    let b1 := b0.changePlan c plan drops
    if b1.rat.plans.any fun p => p.1 == c then
      let admitted := (b1.campSlotList c).filter fun s => s.state == 1 && decide (before ≤ s.admitted) && s.fork == 0
      let b2 := admitted.foldl (fun b s => match b.request? c s.seq with
        | some r => b.defer r [s.slot] 0x13 0 s.slot
        | none => b) b1
      b2.setPhase c fun p => { p with ramping := true }
    else if b1.trayCopies c then b1.setPhase c fun p => { p with ramping := true }
    else (b1.openStep c).finishPhase c

/-! ### STEP_BOUNDARY -/

/-- Items 4 to 7. -/
def Block.fromItem4 (b : Block) (c : Nat) (plan : List (Nat × Nat × Nat × Nat × Nat)) (drops : List (Nat × Nat × Nat × Nat)) : Block :=
  let b1 := (b.item4 c).item5 c
  (b1.item6 c).item7 c b1.serve.nextAdmit plan drops

-- Log entry 79 (DESIGN CHOICE).
/-- Items 2 to 7; a camp with a step in progress that an approved change affects is held at item 4 (R479). -/
def Block.restOfBoundary (b : Block) (c : Nat) (plan : List (Nat × Nat × Nat × Nat × Nat)) (drops : List (Nat × Nat × Nat × Nat)) : Block :=
  let b1 := ((b.setPhase c fun p => { p with waiting := false }).item2 c).item3 c
  if b1.affected c = true ∧ b1.inStep c = true then b1.holdCamp c else b1.fromItem4 c plan drops

-- Log entry 79 (DESIGN CHOICE).
/-- STEP_BOUNDARY: the leader of a camp in a step holds STEP_DONE from every field and runs items 1 to 7; item 1 waits for room
in the TOKEN rings; a camp without a step runs items 2 to 7. `plan` and `drops` are the changes that the step plan's load makes
to the camp's standing grants. -/
def stepBoundaryEff (c : Nat) (plan : List (Nat × Nat × Nat × Nat × Nat)) (drops : List (Nat × Nat × Nat × Nat)) (b : Block) : Block :=
  let p := b.phaseSt c
  if b.boot.en.service = false ∨ b.resetting c = true then b
  else if b.camp.held.contains c then (if b.affected c then b else (b.freeCamp c).fromItem4 c plan drops)
  else if p.waiting then (if b.tokenRoom c then b.restOfBoundary c plan drops else b)
  else if b.inStep c then
    if b.stepComplete c && b.resultsReady c && !b.barrierOpen c then
      let b1 := b.item1 c
      if b1.tokenRoom c then b1.restOfBoundary c plan drops else b1.setPhase c fun p => { p with waiting := true }
    else b
  else if p.ramping then (if (b.rat.plans.any fun x => x.1 == c) || b.trayCopies c then b else (b.openStep c).finishPhase c)
  else b.restOfBoundary c plan drops

/-- CAMP_IDLE_HOLD: a camp with no step in progress for IDLE_HOLD_MS releases its standing grants (R77, R331). -/
def campIdleHoldEff (c : Nat) (b : Block) : Block :=
  let p := b.phaseSt c
  if b.inStep c = false ∧ p.ramping = false ∧ p.waiting = false ∧ p.idleAt + b.fget F.serveConfigIdleHoldMs * 1000000 ≤ b.fab.time then
    b.rat.desks.foldl (fun b kv => kv.2.grants.foldl (fun b g => b.planDrop c kv.1 g.who) b) b
  else b

end Sys2Proof.Machine
end

