-- ==== Sys2Proof/Machine/Dram.lean ====
section
/-! DEFINITION. Chapter 05: refresh (R121, R122), burst mode (R123), the regulators (R125 to R128), thermal states (R135 to
R137), spare lanes (R140), the test port (R141), and the capacity that a dark channel takes with it (R24, R29, R31). -/
namespace Sys2Proof.Machine

/-- The payload of the DRAM events (R145). -/
def dramPayload (chan lane temp state cause value : Nat) : Nat :=
  packBits [(0, 5, chan), (8, 8, lane), (16, 8, temp), (24, 3, state), (27, 2, cause), (32, 32, value)]

/-! ### Capacity (R24, R29, R31) -/

/-- The frames of a channel that a reset retired (R162). -/
def Block.retiredIn (b : Block) (f n : Nat) : Nat :=
  ((((b.integField f).fused ++ (b.integField f).soft).filter fun r => r.retired && decide (r.mem = 0) && decide (r.unit = n)).map
    (·.place)).dedup.length

/-- An in-service loss of channels: both registers first, then STATUS_GEN and MAP_GEN, then the event. A field with fewer
than 32 channels is DEGRADED. -/
def Block.capacityDrop (b : Block) (f : Nat) (chans : List Nat) (cause : Nat) : Block :=
  let x := b.fieldSt f
  let gone := chans.filter (bitAt x.chans)
  if x.state < 2 ∨ gone = [] then b
  else
    let y : FieldSt := { x with
      chans := gone.foldl (fun m n => setBit m n false) x.chans
      granules := x.granules - sumOf (gone.map fun n => 32768 - b.retiredIn f n)
      state := if x.state = 2 then 3 else x.state
      statusGen := (x.statusGen + 1) % 2 ^ 16 }
    let b1 : Block := { b with wafer := { b.wafer with
      fields := sset (fun _ => FieldSt.init) b.wafer.fields f y
      mapGen := (b.wafer.mapGen + 1) % 2 ^ 16 } }
    b1.raise 0x0911 f 0xFF (packBits [(0, 32, y.chans), (32, 32, y.granules), (64, 8, gone.length), (72, 8, cause), (80, 16, y.statusGen)])

/-- The granule whose directory entry a frame of the reserve holds starts at this one; 2,048 entries a frame (R90, R551). -/
def Block.dirFrameOf (b : Block) (g : Nat) : Nat := 1048576 - b.dirSize / 2048 + g / 2048

/-- Entries lost with channels wait to be rebuilt at the next boundary (R117). -/
def Block.loseEntries (b : Block) (f : Nat) (chans : List Nat) : Block :=
  let acts := ((b.fieldDir f).filter fun ge => chans.contains (b.dirFrameOf ge.1 % 32)).map fun ge => (⟨1, f, ge.1, 0⟩ : OwnerAct)
  { b with integ := { b.integ with acts := b.integ.acts ++ acts.filter fun a => !b.integ.acts.contains a } }

/-- Drop the dirty lines of dark channels (R137). -/
def Block.dropDarkLines (b : Block) (f : Nat) (chans : List Nat) : Block :=
  (b.mem.lines.filter fun kv => (kv.2.elim false (·.dirty)) && decide (physField (kv.1 * 128) = f) && chans.contains (dramChan (kv.1 * 128))).foldl
    (fun b kv => b.dropLine (kv.1 * 128)) b

/-- Channels go dark: their state, their cached lines, the field's capacity, and what stood in their frames (R24, R111, R117,
R137). -/
def Block.goDark (b : Block) (f : Nat) (chans : List Nat) (cause : Nat) : Block :=
  let b1 := chans.foldl (fun b n => b.setChan f n { b.chan f n with state := 3 }) b
  let b2 := (b1.dropDarkLines f chans).capacityDrop f chans cause
  let lost (fr : Nat) : Bool := chans.contains (fr % 32)
  (((b2.tierLose f lost).pagesLose f lost).loseEntries f chans).noteCapacity

/-! ### Spare lanes (R140, R143, R159) -/

/-- Forget the per-row counts of a channel (R159). -/
def IntegField.clearRows (x : IntegField) (n : Nat) : IntegField := { x with rows := x.rows.filter fun r => r.1 / 2 ^ 19 ≠ n }

-- Log entry 217 (DESIGN CHOICE).
/-- One lane that a channel must retrain moves to a free spare, or the channel goes dark. -/
def Block.moveLane (b : Block) (f n lane : Nat) : Block :=
  let c := b.chan f n
  let t := (b.stack f).temp
  let st := (b.stack f).state
  if c.state ≠ 1 then b
  else if c.spared.length < 4 then
    let b1 := (b.setChan f n { c with
      spared := c.spared ++ [lane], laneHits := sset (fun _ => []) c.laneHits lane [], quiet := max c.quiet b.fab.time + 2000 }).setInteg f
      ((b.integField f).clearRows n)
    (b1.bump (F.laneRetrains f n)).raise 0x0160 f 0xFF (dramPayload n lane t st 0 (c.spared.length + 1))
  else
    let b1 := (b.setChan f n { c with state := 3 }).raise 0x0161 f 0xFF (dramPayload n 0xFF t st 1 0)
    b1.goDark f [n] 1

/-- The lanes that a channel must retrain are retrained at its refresh (R140), but for GRACE (R143). -/
def Block.laneRetrain (b : Block) (f n : Nat) : Block :=
  let c := b.chan f n
  if c.retrain = [] ∨ 3 ≤ (b.stack f).state then b
  else c.retrain.foldl (fun b lane => b.moveLane f n lane) (b.setChan f n { c with retrain := [] })

-- Log entry 40 (DEDUCED).
/-- A correction is attributed to a lane of a channel: as many as the limit within 100 ms ask for a retrain; in GRACE it is only
counted (R140, R143). -/
def Block.laneHit (b : Block) (f n lane : Nat) : Block :=
  let c := b.chan f n
  let hits := ((sget (fun _ => []) c.laneHits lane).filter fun t => decide (b.fab.time < t + 100000000)) ++ [b.fab.time]
  let asks := decide (max 1 (b.fget F.dramConfigLaneFailLimit) ≤ hits.length) && decide ((b.stack f).state < 3) && !c.retrain.contains lane
  b.setChan f n { c with laneHits := sset (fun _ => []) c.laneHits lane hits, retrain := if asks then c.retrain ++ [lane] else c.retrain }

/-! ### Refresh (R121, R122, R124) -/

/-- REF_POSTPONE as it acts. -/
def Block.refPostpone (b : Block) : Nat := max 1 (min 8 (b.fget F.dramConfigRefPostpone))

/-- A channel has paid `n` refreshes: a lane that asks for it is retrained. -/
def Block.paid (b : Block) (f c n : Nat) : Block :=
  let x := b.chan f c
  (b.setChan f c { x with owed := x.owed - n }).laneRetrain f c

-- Log entry 45 (DEDUCED).
/-- Refresh bursts of a controller: every channel of its pod pays up to `n` of what it owes. -/
def Block.refreshBurst (b : Block) (f p n : Nat) : Block :=
  let b1 := b.setCtl f p { b.ctl f p with forced := false }
  (podChans p).foldl (fun b c => if (b.chan f c).owed = 0 ∨ (b.chan f c).state = 3 then b else b.paid f c n) b1

-- Log entry 45 (DEDUCED).
/-- A controller that holds its refresh-burst grant runs one burst and releases it (R124). -/
def Block.payGranted (b : Block) (f p : Nat) : Block :=
  if b.covers f (ctlAsker p 1) 12 then (b.refreshBurst f p 1).release f (ctlAsker p 1) else b

/-- At REF_POSTPONE a channel pays what it owes distributed; the event is raised once per controller until its next burst. -/
def Block.payDistributed (b : Block) (f c : Nat) : Block :=
  let owed := (b.chan f c).owed
  let p := c / 8
  let first := !(b.ctl f p).forced
  let b1 := (b.setCtl f p { b.ctl f p with forced := true }).count (F.refDistributed f c) owed
  let b2 := b1.raiseIf first 0x0225 f 0xFF (dramPayload c 0xFF (b.stack f).temp (b.stack f).state 0 owed)
  b2.paid f c owed

-- Log entry 213 (DESIGN CHOICE).
/-- REFRESH_DUE: a tREFI of a channel has passed. In burst mode its controller pays by refresh bursts; in base mode the refresh
is postponed while a refresh-burst grant of 12 at class 2 is asked for, and paid distributed at REF_POSTPONE. -/
def refreshDueEff (f n : Nat) (b : Block) : Block :=
  let c := b.chan f n
  let p := n / 8
  if c.state = 3 ∨ (b.stack f).state = 4 ∨ b.boot.en.dram = false then b
  else
    let b1 := b.setChan f n { c with owed := c.owed + 1 }
    if b1.bursting f p then b1.refreshBurst f p 8
    else
      let b2 := if b1.holds f (ctlAsker p 1) ∨ b1.waits f (ctlAsker p 1) ∨ (b1.stack f).state = 3 then b1
        else b1.request f (ctlAsker p 1) 2 0xFF 12 false
      let b3 := b2.payGranted f p
      if b3.refPostpone ≤ (b3.chan f n).owed then b3.payDistributed f n
      else if c.owed < (b3.chan f n).owed then b3.bump (F.refPostponed f n) else b3

-- Log entry 45 (DEDUCED).
/-- Refresh bursts whose grants a tick has delivered. -/
def Block.payAllGranted (b : Block) : Block :=
  b.rat.desks.foldl (fun b kv => (List.range 4).foldl (fun b p => b.payGranted kv.1 p) b) b

/-! ### Burst mode (R123) -/

/-- QUEUE_DEEP as it acts (R146). -/
def Block.queueDeep (b : Block) : Nat := max 1 (b.fget F.burstCtrlQueueDeep)

-- Log entry 47 (DEDUCED).
/-- The operations in a channel's queue, in the order of their arrival. -/
def Block.chanQueue (b : Block) (f n : Nat) : List MemOp := b.tc.ops.filter fun o => b.atChan f n o

/-- A channel's queue is deep: its controller asks for burst mode at the class of the work at its head. -/
def Block.askBurst (b : Block) (f n cls camp : Nat) : Block :=
  let p := n / 8
  if 3 ≤ (b.stack f).state then b
  else
    let b1 := b.setCtl f p { b.ctl f p with deepAt := b.fab.time }
    if b1.bursting f p ∨ b1.waits f (ctlAsker p 0) then b1 else b1.request f (ctlAsker p 0) cls camp 32 false

/-- A bulk access puts its bursts into the queues of its channels. -/
def Block.noteBulk (b : Block) (cls camp : Nat) (xs : List (Nat × Nat × Nat)) : Block :=
  ((xs.map fun x => (physField x.1, dramChan x.1)).dedup).foldl (fun b c =>
    let k := (xs.filter fun x => physField x.1 == c.1 && dramChan x.1 == c.2).length
    if k + (b.chanQueue c.1 c.2).length < b.queueDeep then b else b.askBurst c.1 c.2 cls camp) b

-- Log entry 47 (DEDUCED).
/-- BURST_IDLE_EXPIRY: BURST_IDLE_US without a deep queue release the controller's grant; a standing one is firmware's. -/
def burstIdleExpiryEff (f p : Nat) (b : Block) : Block :=
  match b.grantOf f (ctlAsker p 0) with
  | some g =>
    if g.standing = false ∧ (b.ctl f p).deepAt + b.fget F.burstCtrlBurstIdleUs * 1000 ≤ b.fab.time ∧
        (podChans p).all (fun n => decide ((b.chanQueue f n).length < b.queueDeep)) then
      b.release f (ctlAsker p 0)
    else b
  | none => b

/-! ### Thermal states (R135 to R137) -/

/-- One transition of the table. -/
def stackNext (state temp : Nat) : Nat :=
  match state with
  | 0 => if 85 < temp then 1 else 0
  | 1 => if temp ≤ 82 then 0 else if 95 < temp then 2 else 1
  | 2 => if 105 ≤ temp then 3 else if temp ≤ 92 then 1 else 2
  | s => s

/-- The state that a sample reaches: no sample takes more than three transitions. -/
def stackAfter (state temp : Nat) : Nat := stackNext (stackNext (stackNext state temp) temp) temp

/-- The event of a change of state, if it raises one (R145). -/
def stackEvent (old new : Nat) : Option Nat :=
  if old = new then none
  else if new = 3 then some 0x0223
  else if new = 2 then some 0x0221
  else if old = 2 then some 0x0222
  else if old = 0 ∧ new = 1 then some 0x0220
  else none

/-- A stack's burst and refresh grants are released and taper; its waiting requests are withdrawn (R136). -/
def Block.releaseCtls (b : Block) (f : Nat) : Block :=
  (List.range 4).foldl (fun b p => (List.range 2).foldl (fun b e => (b.withdraw f (ctlAsker p e)).release f (ctlAsker p e)) b) b

-- Log entry 43 (DESIGN CHOICE).
/-- A stack enters GRACE: the operations in its channel queues, at most 64 to a queue, are marked, and its grants taper (R136). -/
def Block.enterGrace (b : Block) (f : Nat) (queued : List Nat) : Block :=
  let held := (List.range 32).flatMap fun n => (((b.chanQueue f n).filter fun o => queued.contains o.id).take 64).map (·.id)
  let mark (o : MemOp) : MemOp := if held.contains o.id then { o with queued := true } else o
  ({ b with tc := { b.tc with ops := b.tc.ops.map mark } } : Block).releaseCtls f

/-- A sample of a stack's temperature (R135). `queued` names the operations that stand in the stack's channel queues. -/
def Block.thermalSample (b : Block) (f temp : Nat) (queued : List Nat) : Block :=
  let s := b.stack f
  if s.state = 4 ∨ (b.boot.en.dram = false) then b
  else
    let n := stackAfter s.state temp
    let b1 := (b.setStack f { s with
      state := n, temp := temp, sampleAt := b.fab.time, graceAt := if n = 3 ∧ s.state ≠ 3 then b.fab.time else s.graceAt }).peak
        (F.stackStatusPeakC f) (satTo 8 temp)
    let b2 := if n = 2 ∧ s.state ≠ 2 then b1.bump (F.simmerEntries f) else b1
    let b3 := match stackEvent s.state n with
      | some code => b2.raise code f 0xFF (dramPayload 0x1F 0xFF temp n 0 0)
      | none => b2
    if n = 3 ∧ s.state ≠ 3 then b3.enterGrace f queued else b3

/-- A stack goes DARK: the event, then what its channels take with them. -/
def Block.stackDark (b : Block) (f cause graceUs : Nat) : Block :=
  let s := b.stack f
  let b1 := (b.setStack f { s with state := 4, cause := cause, graceUs := satTo 16 graceUs }).raise 0x0224 f 0xFF
    (dramPayload 0x1F 0xFF s.temp 4 cause graceUs)
  b1.goDark f ((List.range 32).filter fun n => decide ((b.chan f n).state ≠ 3)) cause

/-- Are the channel queues of a stack in GRACE empty (R136)? -/
def Block.queuesEmpty (b : Block) (f : Nat) : Bool := !(b.tc.ops.any fun o => o.queued && (List.range 32).any (fun n => b.atChan f n o))

/-- GRACE ends when the queues are empty or 2 ms after entry (R136). -/
def Block.graceEnd (b : Block) (f : Nat) : Block :=
  let s := b.stack f
  if s.state = 3 ∧ (b.queuesEmpty f = true ∨ s.graceAt + 2000000 ≤ b.fab.time) then b.stackDark f 2 ((b.fab.time - s.graceAt) / 1000)
  else b

/-- A stack fault: `supply` says that its supply failed; otherwise its sensors have been silent for 100 µs. The desk's ballast
catches the dropped draw (R137, R69). -/
def Block.stackFault (b : Block) (f : Nat) (supply : Bool) : Block :=
  let s := b.stack f
  if s.state = 4 ∨ b.modu.pwrGood = false then b
  else if supply = true ∨ (b.boot.en.dram = true ∧ s.sampleAt + 100000 ≤ b.fab.time) then
    let b1 := (List.range 4).foldl (fun b p => unplannedDropEff f (0x1C0 + 8 * p) 0xFF 1 (unplannedDropEff f (0x1C0 + 8 * p) 0xFF 0 b)) b
    b1.stackDark f 3 (if s.state = 3 then (b.fab.time - s.graceAt) / 1000 else 0)
  else b

/-! ### The test port (R141, R147) -/

def Block.test (b : Block) (f : Nat) : TestPort := sget (fun _ => TestPort.init) b.dram.tests f

def Block.setTest (b : Block) (f : Nat) (x : TestPort) : Block :=
  { b with dram := { b.dram with tests := sset (fun _ => TestPort.init) b.dram.tests f x } }

/-- MARGIN_SCAN: a write of MARGIN_CTRL; START begins a scan in bring-up mode. -/
def marginScanEff (fn f value : Nat) (b : Block) : Block :=
  b.barWrite fn (0x1020010 + 0x80000 * f) fun b =>
    let b1 := b.writeWord (0x1020010 + 0x80000 * f) (BitVec.ofNat 32 value)
    if b.boot.bringup = true ∧ bitAt value 31 = true then b1.setTest f { b1.test f with scanning := true, scanDone := false } else b1

/-- MARGIN_SCAN_DONE: a scan has completed with some bit errors. -/
def marginScanDoneEff (f errors : Nat) (b : Block) : Block :=
  let x := b.test f
  if x.scanning then b.setTest f { x with scanning := false, scanDone := true, errors := satTo 24 errors } else b

/-- The spare rows used of a bank. -/
def bankKey (f n bank : Nat) : Nat := (32 * f + n) * 16 + bank

def Block.rowsLeft (b : Block) (f n bank : Nat) : Nat := 8 - sget (fun _ => 0) b.dram.rowsUsed (bankKey f n bank)

/-- A write of REPAIR_CMD. -/
def Block.repairWrite (b : Block) (fn f value : Nat) (act : Block → Block) : Block :=
  b.barWrite fn (0x1020018 + 0x80000 * f) fun b =>
    let b1 := b.writeWord (0x1020018 + 0x80000 * f) (BitVec.ofNat 32 value)
    if bitAt value 31 = false then b1
    else if b.boot.bringup = false then b1.setTest f { b1.test f with err := true, done := true }
    else act b1

/-- REPAIR_QUERY: KIND 0 reads the spare rows left in a bank. -/
def repairQueryEff (fn f value : Nat) (b : Block) : Block :=
  b.repairWrite fn f value fun b =>
    if bitAt value 24 then b
    else b.setTest f { b.test f with rowsLeft := b.rowsLeft f (bitsOf value 0 5) (bitsOf value 5 4), err := false, done := true }

-- Log entry 51 (DEDUCED).
/-- A soft repair joins the field's list; the store holds the first 64, and what lies beyond is in force until the next reset (R163). -/
def Block.addSoft (b : Block) (f : Nat) (r : Repair) : Block :=
  let x := b.integField f
  b.setInteg f { x with soft := x.soft ++ [r] }

/-- SOFT_ROW_REPAIR: KIND 1 maps a row onto a spare row at once. -/
def softRowRepairEff (fn f value : Nat) (b : Block) : Block :=
  b.repairWrite fn f value fun b =>
    let n := bitsOf value 0 5
    let bank := bitsOf value 5 4
    let left := b.rowsLeft f n bank
    if bitAt value 24 = false then b
    else if left = 0 then b.setTest f { b.test f with rowsLeft := 0, err := true, done := true }
    else
      let b1 : Block := { b with dram := { b.dram with rowsUsed := supd (fun _ => 0) b.dram.rowsUsed (bankKey f n bank) (· + 1) } }
      (b1.addSoft f ⟨0, n, bank, bitsOf value 9 15, false⟩).setTest f { b1.test f with rowsLeft := left - 1, err := false, done := true }

end Sys2Proof.Machine
end

