-- ==== Sys2Proof/Machine/Integ.lean ====
section
/-! DEFINITION. Chapter 06: decoding (R151), poison (R152, R154, R155), counts and
candidates (R159 to R161), owner actions (R166), and flip masks (R165). -/
namespace Sys2Proof.Machine

/-! ### Counters (R169, R170) -/

def Block.countCe (b : Block) (f mem : Nat) : Block :=
  match mem with
  | 0 => (b.bump (F.dramCe f)).bump F.dramCeTotal
  | 1 => (b.bump (F.sramCe f)).bump F.sramCeTotal
  | _ => (b.bump (F.localCe f)).bump F.localCeTotal

def Block.countUe (b : Block) (f mem : Nat) : Block :=
  match mem with
  | 0 => (b.bump (F.dramUe f)).bump F.dramUeTotal
  | 1 => (b.bump (F.sramUe f)).bump F.sramUeTotal
  | _ => (b.bump (F.localUe f)).bump F.localUeTotal

/-- The payload of the integrity events (R168). -/
def integPayload (mem owner action unit value addr : Nat) : Nat :=
  packBits [(0, 2, mem), (8, 4, owner), (12, 4, action), (16, 10, unit), (32, 32, value), (64, 64, addr)]

/-! ### Places (R159 to R161) -/

/-- A place's key in its tracker: a DRAM row by channel, bank and row; a bit-column by memory, unit and bit. -/
def rowKey (chan bank row : Nat) : Nat := 2 ^ 19 * chan + 2 ^ 15 * bank + row
def colKey (mem unit bit : Nat) : Nat := 2 ^ 20 * mem + 2 ^ 8 * unit + bit

/-- Count a place in a tracker of a size: answers the tracker, whether TRACKER_EVICTS counts, and the place's count, 0 where
it is not tracked (R160). -/
def trackPlace (size : Nat) (l : List (Nat × Nat)) (key : Nat) : List (Nat × Nat) × Bool × Nat :=
  match l.find? fun e => e.1 == key with
  | some e => (l.map fun x => if x.1 = key then (x.1, min 255 (x.2 + 1)) else x, false, min 255 (e.2 + 1))
  | none =>
    if l.length < size then (l ++ [(key, 1)], false, 1)
    else if l.any fun e => e.2 == 1 then (dropFirst (fun e => e.2 == 1) l ++ [(key, 1)], true, 1)
    else (l, true, 0)

/-- The spares of a place's memory that the repairs in force leave (R162). -/
def IntegField.noSpare (x : IntegField) (mem unit bank : Nat) : Bool :=
  let used := ((x.fused ++ x.soft).filter fun r => !r.retired && decide (r.mem = mem) && decide (r.unit = unit) && decide (r.bank = bank)).length
  decide ((match mem with | 0 => 8 | 1 => 4 | _ => 2) ≤ used)

/-- A place becomes a candidate, once; a 33rd raises REPAIR_LIST_FULL once (R161). -/
def Block.addCand (b : Block) (f mem unit bank place count addr : Nat) (byUe : Bool) : Block :=
  let x := b.integField f
  let same (c : Cand) : Bool := decide (c.mem = mem) && decide (c.unit = unit) && decide (c.bank = bank) && decide (c.place = place)
  if x.cands.any same then b.setInteg f { x with cands := x.cands.map fun c => if same c then { c with count := max c.count count } else c }
  else if x.cands.length < 32 then
    (b.setInteg f { x with cands := x.cands ++ [⟨mem, unit, bank, place, count, byUe, x.noSpare mem unit bank⟩] }).raise 0x0103 f 0xFF
      (integPayload mem 0 0 unit count addr)
  else if x.listFull then b
  else (b.setInteg f { x with listFull := true }).raise 0x0104 f 0xFF (integPayload mem 0 0 unit 0 addr)

/-- The address at which the row of a DRAM address starts. -/
def rowStart (w : Nat) : Nat :=
  dramBase + physField w * 2 ^ 36 + dramRow w * 2 ^ 20 + dramChan w * 2 ^ 15 + (dramBank w / 4) * 2 ^ 7 + (dramBank w % 4) * 2 ^ 9

/-- The count of a place, 0 where it is not tracked. -/
def placeCount (l : List (Nat × Nat)) (key : Nat) : Nat := ((l.find? fun e => e.1 == key).map (·.2)).getD 0

-- Log entry 221 (DESIGN CHOICE).
/-- The place of a codeword with an error pattern becomes a candidate by an uncorrectable: for a bit-column its lowest wrong bit's. -/
def Block.candUe (b : Block) (w pattern : Nat) : Block :=
  let f := physField w
  let x := b.integField f
  if isDram w then
    b.addCand f 0 (dramChan w) (dramBank w) (dramRow w) (placeCount x.rows (rowKey (dramChan w) (dramBank w) (dramRow w))) (rowStart w) true
  else b.addCand f (memOf w) (unitOf w) 0 (lowestBit pattern) (placeCount x.cols (colKey (memOf w) (unitOf w) (lowestBit pattern))) w true

/-- A Weeder's correction counts its place, and at the limit makes it a candidate (R159, R161). -/
def Block.countPlace (b : Block) (w pattern : Nat) : Block :=
  let f := physField w
  let x := b.integField f
  if isDram w then
    let t := trackPlace 1024 x.rows (rowKey (dramChan w) (dramBank w) (dramRow w))
    let b1 := (b.setInteg f { x with rows := t.1 }).count (F.trackerEvicts f) (if t.2.1 then 1 else 0)
    if max 1 (b.fget F.integConfigRowCeLimit) ≤ t.2.2 then b1.addCand f 0 (dramChan w) (dramBank w) (dramRow w) t.2.2 (rowStart w) false else b1
  else
    let t := trackPlace 256 x.cols (colKey (memOf w) (unitOf w) (lowestBit pattern))
    let b1 := (b.setInteg f { x with cols := t.1 }).count (F.trackerEvicts f) (if t.2.1 then 1 else 0)
    if max 1 (b.fget F.integConfigColCeLimit) ≤ t.2.2 then b1.addCand f (memOf w) (unitOf w) 0 (lowestBit pattern) t.2.2 w false else b1

/-! ### Owner actions (R166) -/

/-- What an owner action did: OWNER, ACTION, VALUE and the camp of the event (R168). -/
structure Acted where
  blk : Block
  owner : Nat
  action : Nat
  value : Nat
  camp : Nat

/-- Make data of a word good again: its poison and its errors go. -/
def Block.cleanse (b : Block) (w : Nat) : Block :=
  { b with mem := { b.mem with poison := sset (fun _ => false) b.mem.poison w false, bad := sset (fun _ => 0) b.mem.bad w 0 } }

/-- The action for a home of a granule: reloaded from a clean source, or the granule's POISON bit, or nothing for writable
data. -/
def Block.homeAct (b : Block) (f g : Nat) : Acted :=
  let e := b.dirEntry f g
  if e.writable then ⟨b, 3, 5, 0, e.camp⟩
  else if ((b.obj f e.object).clean g).isSome then ⟨b.reload f g, 1, 1, 0, e.camp⟩
  else ⟨b.setDir f g { e with poison := true }, 1, 5, 0, e.camp⟩

/-- The action for a word of a granule. A COPY with a good lower home is dropped; an uncorrectable in the lower home of a COPY
drops the copy and acts on the home. -/
def Block.granuleAct (b : Block) (f g tier n : Nat) : Acted :=
  let e := b.dirEntry f g
  if e.state = 4 ∧ e.tierA = tier ∧ e.locA = n then
    if b.lowerDark f e = false then ⟨b.dropCopy f g, 1, 2, 0, e.camp⟩
    else match (b.obj f e.object).host with
      | 0 => ⟨b.setDir f g { e with poison := true }, 1, 5, 0, e.camp⟩
      | _ => (b.dropCopy f g).homeAct f g
  else if e.state = 4 then (b.dropCopy f g).homeAct f g
  else b.homeAct f g

/-- The granule whose home, copy or move holds a frame. -/
def Block.granuleOfFrame (b : Block) (f tier n : Nat) : Option (Nat × DirEntry) :=
  (b.fieldDir f).find? fun ge => decide (ge.2.state ≠ 0) &&
    ((decide (ge.2.tierA = tier) && decide (ge.2.locA = n)) || (decide (ge.2.tierB = tier) && decide (ge.2.locB = n)))

/-- The tray at a place of a bank of a field. -/
def Block.trayAt (b : Block) (f bank off : Nat) : Option TrayEnt :=
  match (b.trayBanks f).findIdx? (· == bank) with
  | some k => ((b.fieldTrays f).find? fun (x : Nat × TrayEnt) => decide (x.1 ≤ k * 0x400000 + off) && decide (k * 0x400000 + off < x.1 + x.2.bytes)).map (·.2)
  | none => none

/-- The action for a frame that no granule holds: a KV page, the reserve, or a free frame. -/
def Block.frameAct (b : Block) (f tier n w : Nat) : Acted :=
  match if tier = 2 then b.pageOfFrame f n else none with
  | some (fr, p) =>
    let seqs := ((b.pageUsers f fr).map (·.1)).dedup.length
    ⟨(b.dropPage f fr).bump (F.kvDropped f), 2, 3, seqs, p.camp⟩
  | none =>
    if tier = 2 ∧ 1048576 - b.dirSize / 2048 ≤ n then
      let g := (n - (1048576 - b.dirSize / 2048)) * 2048 + w % 0x8000 / 16
      let acts : List OwnerAct := [⟨1, f, g, w⟩, ⟨1, f, g + 1, w⟩]
      ⟨{ b with integ := { b.integ with acts := b.integ.acts ++ acts.filter fun a => !b.integ.acts.contains a } }, 4, 6, 0, 0xFF⟩
    else if tier = 2 ∧ 1048576 - b.reserve ≤ n then ⟨b.cleanse w, 5, 6, 0, 0xFF⟩
    else match (b.frame f tier n).use with
      | 0 => ⟨if tier = 2 then b.freeFrame f tier n else b.zeroFrame f tier n, 0, 4, 0, 0xFF⟩
      | 3 | 4 => ⟨b, 0, 4, 0, 0xFF⟩
      | _ => ⟨b, 5, 5, 0, 0xFF⟩

/-- The owner of a word is looked up and its action taken (R166); nothing is reported of a granule that is moving until its
switch. -/
def Block.ownerAct (b : Block) (w : Nat) : Option Acted :=
  let f := physField w
  if memOf w = 2 then some ⟨b, 7, 5, 0, 0xFF⟩
  else
    let bank := (w - sramBase) % 0x10000000 / 0x400000
    let tier := if isDram w then 2 else 1
    let n := if isDram w then (w - dramBase) % 0x1000000000 / 0x8000 else (w - sramBase) % 0x10000000 / 0x8000
    if tier = 1 ∧ b.bankMode f bank = 2 then
      match b.trayAt f bank (w % 0x400000) with
      | some t =>
        some ⟨{ b with serve := { b.serve with slots := b.serve.slots.map fun s => if s.slot == t.slot then { s with trayLost := true } else s } },
          2, 3, 1, t.camp⟩
      | none => some ⟨b.cleanse w, 0, 4, 0, 0xFF⟩
    else
      match b.granuleOfFrame f tier n with
      | some ge =>
        if ge.2.state = 5 ∨ ge.2.state = 6 then none else some (b.granuleAct f ge.1 tier n)
      | none => some (b.frameAct f tier n w)

/-- Take the owner action of a lost word and raise UE_FOUND; one in a moving granule waits for the switch. `code` is the codeword that was
found: the word itself, or the one of a cached line that held it. -/
def Block.actOn (b : Block) (w code : Nat) : Block :=
  match b.ownerAct w with
  | some a => a.blk.raise 0x0101 (physField w) a.camp (integPayload (memOf code) a.owner a.action (unitOf code) a.value code)
  | none =>
    let n := if isDram w then (w - dramBase) % 0x1000000000 / 0x8000 else (w - sramBase) % 0x10000000 / 0x8000
    match b.granuleOfFrame (physField w) (if isDram w then 2 else 1) n with
    | some ge => { b with integ := { b.integ with acts := b.integ.acts ++ [⟨2, physField w, ge.1, w⟩] } }
    | none => b

/-- After a granule's switch, the owner actions that waited for it are taken (R166). -/
def Block.actAfterMove (b : Block) (f g : Nat) : Block :=
  let mine := b.integ.acts.filter fun a => a.kind == 2 && a.field == f && a.item == g
  let b1 : Block := { b with integ := { b.integ with acts := b.integ.acts.filter fun a => !mine.contains a } }
  mine.foldl (fun b a =>
    let e := b.dirEntry f g
    if e.state = 0 then b
    else
      let r := b.granuleAct f g e.tierA e.locA
      let w := frameAddr f e.tierA e.locA + a.addr % 0x8000
      r.blk.raise 0x0101 f r.camp (integPayload (memOf w) r.owner r.action (unitOf w) r.value w)) b1

/-! ### Reading codewords (R151, R152, R159) -/

/-- A word of a resident firmware structure that its owner made good again holds what its second copy holds (R166). -/
def Block.secondCopy (b : Block) (w : Nat) (old : List Byte) : Block :=
  let n := (w - dramBase) % 0x1000000000 / 0x8000
  if isDram w = true ∧ 1048576 - b.reserve ≤ n ∧ n < 1048576 - b.dirSize / 2048 then { b with mem := b.mem.put w old } else b

/-- A reader decodes the codeword at an address: corrections and losses are counted, a loss becomes poison and has its owner
act; a Weeder counts places as well. -/
def Block.found (b : Block) (w : Nat) (weeder : Bool) : Block :=
  let f := physField w
  let pattern := sget (fun _ => 0) b.mem.bad w
  let fixed (b : Block) : Block :=
    let b1 := b.countCe f (memOf w)
    let b2 := if isDram w then b1.laneHit f (dramChan w) (laneOf pattern) else b1
    if weeder then b2.countPlace w pattern else b2
  match b.decodeAt w with
  | .clean | .poison => b
  | .corrected | .wrong => fixed b
  | .lost =>
    let b1 := (b.countUe f (memOf w)).count (F.weederUe f) (if weeder then 1 else 0)
    ((({ b1 with mem := b1.mem.poisonWord w } : Block).candUe w pattern).actOn w w).secondCopy w
      ((List.range (wordBytes w)).map fun i => sget (fun _ => 0) b.mem.bytes (w + i))

/-- The codewords of a run of bytes that hold errors and that no cached line stands before. -/
def Block.badWords (b : Block) (p n : Nat) : List Nat :=
  (b.mem.bad.filter fun kv => decide (p < kv.1 + wordBytes kv.1) && decide (kv.1 < p + n) && (b.mem.line kv.1).isNone).map (·.1)

/-- A cached line's sub-block is lost in its bank (R155): a clean line is dropped, to be filled anew; a dirty one is written back with
poison there. `p` is the DRAM address, `code` the codeword that was found. -/
def Block.lineLost (b : Block) (p code : Nat) : Block :=
  match b.mem.line p with
  | none => b
  | some l =>
    if l.dirty then
      let b1 := b.setLine p (some { l with poison := setBit l.poison (p % 128 / 32) true })
      (b1.evictLine p).actOn (wordOf p) code
    else (b.setLine p none).raise 0x0101 (physField p) 0xFF (integPayload 1 6 2 (unitOf code) 0 code)

/-- A reader decodes the codeword of a CACHE bank that holds the byte of a cached line at a DRAM address (R151, R155, R159). -/
def Block.foundLine (b : Block) (p : Nat) (weeder : Bool) : Block :=
  let f := physField p
  let w := b.codeAt p
  let pattern := sget (fun _ => 0) b.mem.bad w
  match b.decodeAt w with
  | .clean | .poison => b
  | .corrected | .wrong =>
    let b1 := b.countCe f 1
    if weeder then b1.countPlace w pattern else b1
  | .lost =>
    let b1 := (b.countUe f 1).count (F.weederUe f) (if weeder then 1 else 0)
    ((({ b1 with mem := { b1.mem with bad := sset (fun _ => 0) b1.mem.bad w 0 } } : Block).candUe w pattern).lineLost p w)

/-- The bytes of a run that start codewords with errors in the cached lines which hold it. -/
def Block.badLines (b : Block) (p n : Nat) : List Nat :=
  ((List.range (cdiv (p % 8 + n) 8)).map fun i => p / 8 * 8 + 8 * i).filter fun q =>
    (b.mem.line q).isSome && decide (sget (fun _ => 0) b.mem.bad (b.codeAt q) ≠ 0)

/-- A reader decodes every codeword of a run of bytes: those of the lines that hold it, then the memory's. -/
def Block.check (b : Block) (p n : Nat) : Block :=
  let b1 := if isDram p then (b.badLines p n).foldl (fun b q => if b.darkAt q then b else b.foundLine q false) b else b
  (b1.badWords p n).foldl (fun b w => if b.darkAt w then b else b.found w false) b1

/-- A codeword that a write covers only in part is decoded first; one that miscorrects then holds what was delivered (R149). -/
def Block.takeWrong (b : Block) (p : Nat) : Block :=
  let w := wordOf p
  if (b.mem.line p).isNone ∧ b.decodeAt w = .wrong then ({ b with mem := b.mem.putWord w (b.readBytes w (wordBytes w)) } : Block).tick else b

-- Log entry 38 (DEDUCED).
/-- The words of a segment that a store covers only in part are read first, and every word of a line that leaves with it. -/
def Block.checkPart (b : Block) (p n : Nat) : Block :=
  let w := wordBytes p
  let b0 := (b.badLines (p / 128 * 128) (p % 128 + n)).foldl (fun b q => if b.darkAt q then b else b.foundLine q false) b
  let b1 := if p % w = 0 ∧ w ≤ n then b0 else (b0.check p 1).takeWrong p
  if (p + n) % w = 0 then b1 else (b1.check (p + n - 1) 1).takeWrong (p + n - 1)

/-- A camp's bulk write of bytes with their poisoned runs, at its tokens (R128, R153). -/
def Block.landFor (b : Block) (camp p : Nat) (xs : List Byte) (bad : List (Nat × Nat)) : Block :=
  ((b.chargeBulk camp false p xs.length).checkPart p xs.length).landBytes p xs bad

/-- A camp's bulk read of a run, at its tokens: it is looked up and decoded. -/
def Block.readFor (b : Block) (camp p n : Nat) : Block := ((b.chargeBulk camp true p n).lookBulk p n).check p n

/-! ### Flip masks and queries (R165, R169) -/

/-- Does a word belong to a granule or page of camp 0? -/
def Block.ofCamp0 (b : Block) (w : Nat) : Bool :=
  let f := physField w
  let tier := if isDram w then 2 else 1
  let n := if isDram w then (w - dramBase) % 0x1000000000 / 0x8000 else (w - sramBase) % 0x10000000 / 0x8000
  match b.granuleOfFrame f tier n with
  | some ge => decide (ge.2.camp = 0)
  | none => match if tier = 2 then b.pageOfFrame f n else none with
    | some x => decide (x.2.camp = 0)
    | none => match b.trayAt f ((w - sramBase) % 0x10000000 / 0x400000) (w % 0x400000) with
      | some t => decide (tier = 1) && decide (t.camp = 0)
      | none => false

/-- Is the unit of a word ready? -/
def Block.wordReady (b : Block) (w : Nat) : Bool :=
  let f := physField w
  match memOf w with
  | 0 => bitAt ((b.fieldSt f).shown (b.fieldSt f).chans) (dramChan w)
  | 1 => b.bankReady f (unitOf w)
  | _ => bitAt ((b.fieldSt f).shown (b.fieldSt f).cores) (unitOf w)

/-- Why an arm is in error, 0 where it is not (R165, R169). -/
def Block.armError (b : Block) : Nat :=
  match place b.flipAddr with
  | .local_ .. | .sram .. | .dram .. =>
    let w := wordOf b.flipAddr
    if b.boot.bringup = false ∧ (memOf w = 2 ∨ b.ofCamp0 w = false) then 2
    else if b.darkAt w then 3
    else if b.wordReady w = false then 4
    else 0
  | _ => 1

/-- FLIP_ARM: a write of FLIP_CTRL. ARM checks the target; APPLIED is cleared by a 1. -/
def flipArmEff (fn value : Nat) (b : Block) : Block :=
  b.barWrite fn 0x700024 fun b =>
    let b1 := if bitAt value 1 then b.fset F.flipCtrlApplied 0 else b
    if bitAt value 0 = false then b1.fset F.flipCtrlArm 0
    else
      let e := b1.armError
      ({ b1 with integ := { b1.integ with flipErr := e } } : Block).fset F.flipCtrlArm (if e = 0 then 1 else 0)

/-- CAND_QUERY: the write selects a candidate (R169). -/
def candQueryEff (fn value : Nat) (b : Block) : Block :=
  b.barWrite fn 0x700060 fun b => b.writeWord 0x700060 (BitVec.ofNat 32 value)

/-- CAND_RESULT0 and CAND_RESULT1 of the selected candidate. -/
def Block.candResult (b : Block) (word : Nat) : Nat :=
  match (b.integField (b.fget F.candQueryField)).cands[b.fget F.candQueryIndex]? with
  | none => 0
  | some c =>
    if word = 0 then packBits [(0, 2, c.mem), (2, 2, if c.noSpare then 2 else 1), (4, 9, c.unit), (13, 4, c.bank), (17, 15, c.place)]
    else packBits [(0, 8, c.count), (8, 1, if c.byUe then 1 else 0)]

/-! ### Camp reset (R167) -/

/-- The owner actions pending for a camp are discarded, but for directory entries to rebuild; those are rebuilt at once when no
camp has a step in progress; a camp 0 reset clears an armed mask. -/
def Block.integCampReset (b : Block) (c : Nat) : Block :=
  let keep (a : OwnerAct) : Bool := a.kind == 1 || (b.dirEntry a.field a.item).camp != c
  let b1 : Block := { b with integ := { b.integ with acts := b.integ.acts.filter keep } }
  let b2 := if b1.idleCamps.length = 16 then b1.rebuildEntries else b1
  if c = 0 then b2.fset F.flipCtrlArm 0 else b2

end Sys2Proof.Machine
end

