-- ==== Sys2Proof/Machine/Cellar.lean ====
section
/-! DEFINITION. Chapter 07: the Root Cellar: the block map (R172), images and INSTALL (R173 to R177), unit reads (R178 to
R180), relocation (R181 to R183), the thermal pause (R184), rations (R185, R186), mount (R187), and unreadable units and dark
channels (R188, R189). -/
namespace Sys2Proof.Machine

/-! ### Controllers, channels, blocks -/

def Block.setCc (b : Block) (k : Nat) (x : CcSt) : Block :=
  { b with cellar := { b.cellar with ccs := sset (fun _ => CcSt.init) b.cellar.ccs k x } }

/-- Does the controller hold its grant for reading, or does a channel hold its grant for programming (R186)? -/
def Block.readGrant (b : Block) (k : Nat) : Bool := b.covers (b.hostField k) (ccAsker k 0) 8
def Block.progGrant (b : Block) (chan : Nat) : Bool := b.covers (b.hostField (chan / 16)) (chanAsker chan) 4

-- Log entry 204 (DEDUCED).
/-- A channel asks for its programming grant, unless it holds one or waits for one. -/
def Block.askProgram (b : Block) (chan : Nat) : Block :=
  let h := b.hostField (chan / 16)
  if b.holds h (chanAsker chan) || b.waits h (chanAsker chan) then b else b.request h (chanAsker chan) 2 0xFF 4 false

/-- Has a channel a program waiting or running: staged units for WRITE_MARK, or a running relocation? -/
def Block.programs (b : Block) (chan : Nat) : Bool :=
  (b.cellar.staged.any fun s => !s.done && decide (unitChan s.unit = chan)) || b.cellar.relocs.any fun r => r.chan == chan && decide (r.target ≠ 0)

/-- A channel's program has ended: its grant is released, and asked for again where another program waits; a running relocation keeps it. -/
def Block.restChan (b : Block) (chan : Nat) : Block :=
  let h := b.hostField (chan / 16)
  if b.cellar.relocs.any fun r => r.chan == chan && decide (r.target ≠ 0) then b
  else
    let b1 := (b.withdrawAuto h (chanAsker chan)).releaseAuto h (chanAsker chan)
    if b1.programs chan then b1.askProgram chan else b1

/-- The payload of the cellar events (R191). -/
def cellarPayload (image k chan value unit : Nat) : Nat :=
  packBits [(0, 16, image), (16, 3, k), (24, 7, chan), (32, 32, value), (64, 64, unit)]

/-- Raise a cellar event of controller k. -/
def Block.cellarEvent (b : Block) (code k image chan value unit camp : Nat) : Block :=
  b.raise code (b.hostField k) camp (cellarPayload image k chan value unit)

def blockKey (chan p : Nat) : Nat := 20480 * chan + p

def Block.pblock (b : Block) (key : Nat) : PBlock := sget (fun _ => PBlock.init) b.cellar.blocks key

def Block.setPBlock (b : Block) (key : Nat) (x : PBlock) : Block :=
  { b with cellar := { b.cellar with blocks := sset (fun _ => PBlock.init) b.cellar.blocks key x } }

/-- The logical block of a unit on its channel, and its key in the map (R172). -/
def unitBlock (u : Nat) : Nat := u / 128 / 1024
def mapKey (chan l : Nat) : Nat := 16384 * chan + l

/-- The physical block that the map names. -/
def Block.mapped (b : Block) (chan l : Nat) : Nat := sget (fun k => k % 16384) b.cellar.map (mapKey chan l)

/-- Does the map of a channel name a physical block? -/
def Block.isMapped (b : Block) (chan p : Nat) : Bool :=
  (decide (p < 16384) && decide (b.mapped chan p = p)) ||
  b.cellar.map.any fun kv => decide (kv.1 / 16384 = chan) && decide (kv.2 = p)

/-- The blocks in a channel's spare pool (R171): every channel has 20,480 blocks and maps 16,384. -/
def Block.poolSize (b : Block) (chan : Nat) : Nat :=
  4096 - (b.cellar.blocks.filter fun kv => decide (kv.1 / 20480 = chan) && decide (kv.2.use ≠ 0)).length

-- Log entry 56 (DESIGN CHOICE).
/-- The least-erased block of a channel's pool, ties to the lower (R181). -/
def Block.spare (b : Block) (chan : Nat) : Option Nat :=
  ((List.range 20480).foldl (fun best p =>
    if (b.pblock (blockKey chan p)).use ≠ 0 ∨ b.isMapped chan p = true then best
    else
      let e := (b.pblock (blockKey chan p)).erases
      match best with
      | some (e', q) => if e < e' then some (e, p) else some (e', q)
      | none => some (e, p)) none).map (·.2)

/-- A block's read count: what it has counted, and the penalties of unclean mounts since. -/
def Block.readCount (b : Block) (chan p : Nat) : Nat :=
  (b.pblock (blockKey chan p)).reads + ((b.cc (chan / 16)).penalty - (b.pblock (blockKey chan p)).base)

/-- READ_LIMIT in reads (R192). -/
def Block.readLimit (b : Block) : Nat := 1000 * max 1 (b.fget F.cellarConfigReadLimitK)

/-- CELLAR_SPARES_LOW is raised once per channel when its pool falls below 256 (R183). -/
def Block.noteSpares (b : Block) (chan : Nat) : Block :=
  let c := b.cc (chan / 16)
  if b.poolSize chan < 256 ∧ bitAt c.low (chan % 16) = false then
    (b.setCc (chan / 16) { c with low := setBit c.low (chan % 16) true }).cellarEvent 0x0416 (chan / 16) 0 chan (b.poolSize chan) 0 0xFF
  else b

/-- A block that fails to program or erase is retired (R183). -/
def Block.retireBlock (b : Block) (chan p : Nat) : Block :=
  (b.setPBlock (blockKey chan p) { b.pblock (blockKey chan p) with use := 3 }).noteSpares chan

/-- Queue a logical block for relocation, once (R181). -/
def Block.queueReloc (b : Block) (chan l : Nat) : Block :=
  if b.cellar.relocs.any fun r => r.chan == chan && r.lblock == l then b
  else { b with cellar := { b.cellar with relocs := b.cellar.relocs ++ [⟨chan, l, 0, 0, []⟩] } }

/-! ### Images (R173 to R175) -/

def Image.units (x : Image) : Nat := 96 * x.fieldUnits

/-- The extents of an image: first and count (R173). -/
def Image.firstExtent (x : Image) : Nat := x.base / 131072
def Image.extents (x : Image) : Nat := cdiv x.units 131072

def Block.setImage (b : Block) (id : Nat) (h : Image → Image) : Block :=
  { b with cellar := { b.cellar with images := b.cellar.images.map fun x => if x.id = id then h x else x } }

/-- Is a run of extents free? -/
def Block.extentsFree (b : Block) (e n : Nat) : Bool :=
  decide (e + n ≤ 16384) && b.cellar.images.all fun x => decide (e + n ≤ x.firstExtent) || decide (x.firstExtent + x.extents ≤ e)

/-- The lowest free run of n extents: it starts at 0 or behind an image. -/
def Block.freeRun (b : Block) (n : Nat) : Option Nat :=
  ((0 :: b.cellar.images.map fun x => x.firstExtent + x.extents).filter fun e => b.extentsFree e n).foldl
    (fun best e => some (match best with | none => e | some y => min e y)) none

def Block.freeExtents (b : Block) : Nat := 16384 - sumOf (b.cellar.images.map Image.extents)

/-- The image that holds a logical unit. -/
def Block.imageOf (b : Block) (u : Nat) : Option Image :=
  b.cellar.images.find? fun x => decide (x.base ≤ u) && decide (u < x.base + x.units)

/-- The 64 bytes of a catalogue record (R174). -/
def Image.bits (x : Image) : Nat :=
  packBits [(0, 16, x.id), (16, 4, x.camp), (20, 3, x.state), (32, 32, x.units), (64, 32, x.fieldUnits), (96, 32, x.base),
    (128, 32, x.version), (160, 32, x.mark), (192, 16, x.damage.length), (256, 256, x.digest)]

/-! ### INSTALL (R176, R177, R427) -/

-- Log entry 7 (DESIGN CHOICE).
/-- INSTALL runs once the cellar is mounted (R187). -/
def Block.withInstall (b : Block) (camp seq op : Nat) (f : Desc → Block → Block) : Block :=
  b.withDesc camp seq 0x03 fun d b => if d.bits 16 0 2 = op ∧ b.cellar.mounted = true then f d b else b

/-- INSTALL_CREATE. -/
def installCreateEff (camp seq : Nat) (b : Block) : Block :=
  b.withInstall camp seq 0 fun d b =>
    let id := d.field 18 2
    let fu := d.field 20 4
    let need := cdiv (96 * fu) 131072
    let mine := sumOf ((b.cellar.images.filter fun x => x.camp == camp).map Image.extents)
    if id = 0 ∨ (b.image? id).isSome then b.refuse d 0x21 18
    else if fu = 0 then b.refuse d 0x21 20
    else if 1024 ≤ b.cellar.images.length then b.complete d 0x27 (packBits [(0, 64, 1), (64, 8, 2)])
    else if campExtents b.camp.live camp < mine + need then b.refuse d 0x23 20
    else match b.freeRun need with
      | none => b.complete d 0x27 (packBits [(0, 64, (need - b.freeExtents) * 2 ^ 32), (64, 8, 0)])
      | some e =>
        let x : Image := ⟨id, camp, 1, fu, 131072 * e, d.field 24 4, 0, 0, [], 0, []⟩
        ({ b with cellar := { b.cellar with images := b.cellar.images ++ [x] } } : Block).complete d 0 (131072 * e)

/-- The first byte of a WRITE that is wrong for its image, if any. -/
def writeBad (d : Desc) (x : Image) : Option Nat :=
  let n := d.field 20 4
  let first := d.field 24 4
  if x.state ≠ 1 ∧ x.state ≠ 3 then some 18
  else if n = 0 ∨ 1048576 < n then some 20
  else if d.field 32 8 % 4096 ≠ 0 then some 32
  else if x.units < first + n then some 24
  else if x.state = 1 ∧ x.mark < first then some 24
  else none

-- Log entry 55 (DESIGN CHOICE).
/-- INSTALL_WRITE: the run's units are read from host memory into the staging buffers. -/
def installWriteEff (camp seq : Nat) (b : Block) : Block :=
  b.withInstall camp seq 1 fun d b =>
    match b.image? (d.field 18 2) with
    | none => b.refuse d 0x21 18
    | some x =>
      if x.camp ≠ camp then b.refuse d 0x25 18
      else match writeBad d x with
        | some off => b.refuse d 0x21 off
        | none => (b.startDma camp seq (d.field 20 4)).start d

/-- What a rewrite gathers: the unit's new data joins a relocation of its block that has not started, or a new one (R177). -/
def Block.rewrite (b : Block) (u data : Nat) : Block :=
  let chan := unitChan u
  let l := unitBlock u
  let open_ (r : Reloc) : Bool := decide (r.chan = chan) && decide (r.lblock = l) && decide (r.target = 0)
  if b.cellar.relocs.any open_ then
    { b with cellar := { b.cellar with relocs := b.cellar.relocs.map fun r => if open_ r then { r with writes := r.writes ++ [(u, data)] } else r } }
  else { b with cellar := { b.cellar with relocs := b.cellar.relocs ++ [⟨chan, l, 0, 0, [(u, data)]⟩] } }

-- Log entry 55 (DESIGN CHOICE).
/-- A WRITE ends: its staged units, its rewrites that no relocation has made, and its transfer are forgotten. -/
def Block.endWrite (b : Block) (camp seq status body : Nat) : Block :=
  let mine (s : Staged) : Bool := s.camp == camp && s.seq == seq
  let chans := ((b.cellar.staged.filter fun s => mine s && !s.done).map fun s => unitChan s.unit).dedup
  let lost := b.cellar.staged.filter fun s => mine s && s.done
  let kept (w : Nat × Nat) : Bool := !lost.any fun s => s.unit == w.1 && s.data == w.2
  let b1 : Block := { b with
    cellar := { b.cellar with
      staged := b.cellar.staged.filter fun s => !mine s
      relocs := b.cellar.relocs.map fun r => { r with writes := r.writes.filter kept } }
    host := { b.host with dmas := b.host.dmas.filter fun j => !(j.camp == camp && j.seq == seq) } }
  (chans.foldl Block.restChan b1).completeSeq camp seq status body

/-- A WRITE that reaches a DARK channel at unit u ends TIER_FAIL, with the unit's host address (R189). -/
def Block.writeDark (b : Block) (camp seq u : Nat) (x : Image) : Block :=
  b.endWrite camp seq 0x31 (packBits [(0, 64, ((b.desc? camp seq).map fun d => d.field 32 8 + 0x8000 * (u - x.base - d.field 24 4)).getD 0), (64, 8, 0xFF)])

/-- A WRITE that reaches a channel whose pool is empty ends CAPACITY (R183). -/
def Block.writeFull (b : Block) (camp seq : Nat) : Block :=
  b.endWrite camp seq 0x27 (packBits [(0, 64, 0x8000), (64, 8, 0)])

-- Log entry 55 (DESIGN CHOICE).
/-- The WRITEs of an image that is no longer open to them end BAD_PARAM (R176). -/
def Block.stopWrites (b : Block) (id : Nat) : Block :=
  (((b.cellar.staged.filter fun s => s.image == id).map fun s => (s.camp, s.seq)).dedup).foldl (fun b cs => b.endWrite cs.1 cs.2 0x21 18) b

-- Log entry 55 (DESIGN CHOICE).
/-- Element i of a WRITE arrives from host memory: it is staged, and a unit below WRITE_MARK goes to its block's relocation,
unless its channel is DARK or has an empty pool. A WRITE whose image is no longer open to it ends. -/
def Block.installElement (b : Block) (d : Desc) (i data : Nat) : Block :=
  match b.image? (d.field 18 2) with
  | none => b.endWrite d.camp d.seq 0x21 18
  | some x =>
    let n := d.field 24 4 + i
    let u := x.base + n
    let b1 : Block := { b with cellar := { b.cellar with staged := b.cellar.staged ++ [⟨d.camp, d.seq, x.id, u, data, decide (n < x.mark)⟩] } }
    if x.state ≠ 1 ∧ x.state ≠ 3 then b.endWrite d.camp d.seq 0x21 18
    else if x.mark ≤ n then b1.askProgram (unitChan u)
    else if b.unitDark u then b1.writeDark d.camp d.seq u x
    else if b.poolSize (unitChan u) = 0 then b1.writeFull d.camp d.seq
    else b1.rewrite u data

-- Log entry 55 (DESIGN CHOICE).
/-- A WRITE whose units are all committed completes OK (R177). -/
def Block.settleWrite (b : Block) (camp seq : Nat) : Block :=
  match b.desc? camp seq with
  | none => b
  | some d =>
    let all := b.host.dmas.any fun j => j.camp == camp && j.seq == seq && decide (j.done.length = j.total)
    if d.op = 3 ∧ all = true ∧ (b.cellar.staged.any fun s => s.camp == camp && s.seq == seq) = false then
      b.endWrite camp seq 0 (((b.image? (d.field 18 2)).map (·.mark)).getD 0)
    else b

/-- WRITE_MARK has passed a unit that other WRITEs have staged too: they rewrite it. -/
def Block.restage (b : Block) (u : Nat) : Block :=
  (b.cellar.staged.filter fun s => s.unit == u && !s.done).foldl (fun b s =>
    ({ b with cellar := { b.cellar with staged := b.cellar.staged.map fun t => if t == s then { t with done := true } else t } } : Block).rewrite u s.data) b

/-- A failed block that the map names is replaced from the pool (R183); with an empty pool it stays named. -/
def Block.replaceBlock (b : Block) (chan l : Nat) : Block :=
  let b1 := match b.spare chan with
    | some q => { b with cellar := { b.cellar with map := sset (fun k => k % 16384) b.cellar.map (mapKey chan l) q } }
    | none => b
  b1.retireBlock chan (b.mapped chan l)

-- Log entry 55 (DESIGN CHOICE).
/-- UNIT_PROGRAM_DONE: the program of a staged unit at WRITE_MARK ends. `ok` says whether its block took it; one that did not is
retired and replaced from the pool, and the unit is programmed again. A dark channel ends the WRITE TIER_FAIL, an empty pool
CAPACITY; without its grant the channel asks for it. -/
def unitProgramDoneEff (u : Nat) (ok : Bool) (b : Block) : Block :=
  let k := unitCc u
  let chan := unitChan u
  match b.cellar.staged.find? fun s => s.unit == u && !s.done with
  | none => b
  | some s =>
    match b.image? s.image with
    | none => b
    | some x =>
      if x.base + x.mark ≠ u then b
      else if b.unitDark u then b.writeDark s.camp s.seq u x
      else if b.poolSize chan = 0 then b.writeFull s.camp s.seq
      else if (b.cc k).paused then b
      else if b.progGrant chan = false then b.askProgram chan
      else if ok = true ∧ (b.pblock (blockKey chan (b.mapped chan (unitBlock u)))).use ≠ 3 then
        let b1 : Block := { b with cellar := { b.cellar with
          units := sset (fun _ => 0) b.cellar.units u s.data
          lost := sset (fun _ => false) b.cellar.lost u false
          staged := dropFirst (fun t => t.unit == u && !t.done) b.cellar.staged } }
        (((((b1.setImage x.id fun y => { y with mark := y.mark + 1 }).restage u).bump F.unitsProgrammed).bump (F.ccPrograms k)).restChan chan).settleWrite s.camp s.seq
      else b.replaceBlock chan (unitBlock u)

/-! ### SEAL (R176) -/

/-- The SHA-256 of units in order. -/
def unitsDigest (xs : List Nat) : Nat := sha256LE (xs.flatMap fun v => (bytesLE 0x8000 v).map fun (y : Byte) => y.toNat)

/-- A SEAL ends without success: the image stays in its state. -/
def Block.endSeal (b : Block) (s : Seal) (off : Nat) : Block :=
  ({ b with cellar := { b.cellar with seals := b.cellar.seals.filter fun x => !(x.camp == s.camp && x.seq == s.seq) } } : Block).completeSeq s.camp s.seq 0x21 off

-- Log entry 205 (DESIGN CHOICE).
/-- The SEALs of an image that is erased end BAD_PARAM. -/
def Block.stopSeals (b : Block) (id : Nat) : Block := (b.cellar.seals.filter fun s => s.image == id).foldl (fun b s => b.endSeal s 18) b

-- Log entry 205 (DESIGN CHOICE).
/-- INSTALL_SEAL: the image is read in order at the lowest rank, once no WRITE to it is under way. -/
def installSealEff (camp seq : Nat) (b : Block) : Block :=
  b.withInstall camp seq 2 fun d b =>
    match b.image? (d.field 18 2) with
    | none => b.refuse d 0x21 18
    | some x =>
      if x.camp ≠ camp then b.refuse d 0x25 18
      else if x.state = 4 ∨ x.mark < x.units then b.refuse d 0x21 18
      else if b.cellar.staged.any fun s => s.image == x.id then b
      else
        let b1 : Block := { b with cellar := { b.cellar with seals := b.cellar.seals ++ [⟨camp, seq, x.id, []⟩] } }
        (b1.start d).queueRead x.base (.seal camp seq) true 0 0 camp 2

-- Log entry 205 (DESIGN CHOICE).
/-- A SEAL has read its next unit, or could not: with the last one it seals the image if the digest matches. -/
def Block.sealRead (b : Block) (camp seq : Nat) (v : Option Nat) : Block :=
  match b.cellar.seals.find? fun s => s.camp == camp && s.seq == seq with
  | none => b
  | some s =>
    match v, b.image? s.image, b.desc? camp seq with
    | some v, some x, some d =>
      let xs := s.data ++ [v]
      if xs.length < x.units then
        ({ b with cellar := { b.cellar with seals := b.cellar.seals.map fun t => if t == s then { t with data := xs } else t } } : Block).queueRead
          (x.base + xs.length) (.seal camp seq) true 0 0 camp 2
      else if unitsDigest xs ≠ d.field 64 32 then b.endSeal s 64
      else
        let b1 : Block := { b with cellar := { b.cellar with seals := b.cellar.seals.filter fun t => t != s } }
        ((((b1.stopWrites x.id).setImage x.id fun y => { y with state := 2, digest := d.field 64 32, damage := [], damaged := 0 }).cellarEvent
          0x0417 0 x.id 0x7F 0 0 camp)).complete d 0 0
    | _, _, _ => b.endSeal s 0xFFFF

/-- Does a directory entry name a unit of an image (R176)? -/
def Block.imageNamed (b : Block) (x : Image) : Bool :=
  b.tier.dir.any fun kv =>
    (decide (kv.2.tierA = 3) && decide (x.base ≤ kv.2.locA) && decide (kv.2.locA < x.base + x.units)) ||
    (decide (kv.2.tierB = 3) && decide (x.base ≤ kv.2.locB) && decide (kv.2.locB < x.base + x.units))

-- Log entry 57 (DEDUCED).
/-- INSTALL_ERASE: an image that nothing names goes to ERASING; its blocks wait for their erase. -/
def installEraseEff (camp seq : Nat) (b : Block) : Block :=
  b.withInstall camp seq 3 fun d b =>
    match b.image? (d.field 18 2) with
    | none => b.refuse d 0x21 18
    | some x =>
      if x.camp ≠ camp then b.refuse d 0x25 18
      else if b.imageNamed x then b.refuse d 0x21 18
      else
        let blocks := (List.range x.extents).flatMap fun e => (List.range 128).map fun chan => mapKey chan (x.firstExtent + e)
        (((b.stopSeals x.id).stopWrites x.id).setImage x.id fun y => { y with state := 4, toErase := blocks }).complete d 0 0

/-! ### Failed reads (R106, R188) -/

/-- The body of a TIER_FAIL (R418). -/
def failBody (addr field : Nat) : Nat := packBits [(0, 64, addr), (64, 8, field)]

/-- The work that waits for a granule ends TIER_FAIL: of a step, the requests of the camp's batch that the object's model serves;
else the waiting descriptor's JOB (R106). -/
def Block.failWaits (b : Block) (f g : Nat) : Block :=
  let n := (b.dirEntry f g).object
  let o := b.obj f n
  let addr := granuleAddr f g
  let fails (w : TierWait) : Bool := w.field == f && w.object == n && w.granules.contains g
  let ws := b.tier.waits.filter fails
  let hits (s : Slot) : Bool := s.camp == o.camp && (s.state == 1 || s.state == 2) && s.ended == 0 &&
    (decide (o.model = 0) || match b.slotModel s.slot with | some m => m.id == o.model | none => false)
  let endSlot (s : Slot) : Slot := if hits s then { s with ended := 0x31 + 1, endBody := failBody addr f } else s
  let waitsFor (j : Job) : Bool := !j.kernel && ws.any fun w => !w.step && w.camp == j.camp && w.key == j.seq
  let endJob (j : Job) : Job :=
    if waitsFor j = true ∧ j.ended = 0 then { j with phase := 3, ended := 0x31 + 1, body := failBody addr f } else j
  { b with
    serve := { b.serve with slots := if ws.any (·.step) then b.serve.slots.map endSlot else b.serve.slots }
    tc := { b.tc with jobs := b.tc.jobs.map endJob }
    tier := { b.tier with waits := b.tier.waits.filter fun w => !fails w } }

-- Log entry 32 (DESIGN CHOICE).
/-- TIER_READ_FAIL is raised and counted, and what waits for the object ends. -/
def Block.readFail (b : Block) (f g : Nat) : Block :=
  let e := b.dirEntry f g
  ((b.bump (F.tierFails f)).raise 0x0403 f e.camp (tierPayload e.object 0 1 (granuleAddr f g))).failWaits f g

/-- A move whose source has failed is not made: its frame is given back and the entry stands as before it; a later read tries again (R106). -/
def Block.abandonMove (b : Block) (m : Move) : Block :=
  let e := b.dirEntry m.field m.granule
  ((b.setDir m.field m.granule e.unmoved).dropMove m.field m.granule true).freeFrame m.field m.tier m.dst

/-- The move of a granule whose unit cannot be read: from host memory where LOAD_MODEL recorded it, else it fails. -/
def Block.moveReadFailed (b : Block) (m : Move) : Block :=
  let o := b.obj m.field (b.dirEntry m.field m.granule).object
  if o.host ≠ 0 then
    (b.setMove m.field m.granule true fun x => { x with srcTier := 4, src := o.host - 1 + 0x8000 * (m.granule - o.base), got := true }).bump (F.reloads m.field)
  else (b.abandonMove m).readFail m.field m.granule

/-- The reads of a memory operation that a unit read serves: delivered, or failed. -/
def Block.feedOp (b : Block) (id how : Nat) : Block :=
  { b with tc := { b.tc with ops := b.tc.ops.map fun o => if o.id + 1 = id then { o with fed := if o.fed = 3 then 3 else how } else o } }

/-! ### Unit reads (R178 to R182) -/

/-- Is a block past its hard limit? -/
def Block.pastHard (b : Block) (chan l : Nat) : Bool := (b.pblock (blockKey chan (b.mapped chan l))).late

/-- A channel's reads in order (R180); the reads of a relocation stop in a thermal pause (R184). -/
def Block.chanReads (b : Block) (chan : Nat) : List UnitRead :=
  sortBy b.readBefore (b.cellar.reads.filter fun r => decide (unitChan r.unit = chan) && !(r.who == .reloc && (b.cc (chan / 16)).paused))

-- Log entry 206 (DEDUCED).
/-- The read whose transfer is next on a channel: the head of the order, or, in one slot of four, the read of a relocation past its hard
limit, ahead of rank 2 (R182). -/
def Block.nextRead (b : Block) (chan : Nat) : Option UnitRead :=
  let rs := b.chanReads chan
  match rs.find? fun r => r.who == .reloc && b.pastHard chan (unitBlock r.unit) with
  | some r =>
    if 3 ≤ sget (fun _ => 0) b.cellar.turns chan ∧ (rs.head?.map fun x => (b.unitRank x).1) ≠ some 1 then some r else rs.head?
  | none => rs.head?

/-- A read leaves its queue. -/
def Block.leaveQueue (b : Block) (r : UnitRead) : Block :=
  let x := b.pblock r.block
  let n := sget (fun _ => 0) b.cellar.turns (unitChan r.unit)
  ({ b with cellar := { b.cellar with
      reads := dropFirst (· == r) b.cellar.reads
      turns := sset (fun _ => 0) b.cellar.turns (unitChan r.unit) (if r.who = .reloc then 0 else min 3 (n + 1)) } } : Block).setPBlock r.block
    { x with flight := x.flight - 1 }

/-- One more read of a physical block: at READ_LIMIT its logical block is queued for relocation, at twice that it is late,
once (R181, R182). -/
def Block.countRead (b : Block) (u p : Nat) : Block :=
  let chan := unitChan u
  let x := b.pblock p
  let b1 := b.setPBlock p { x with reads := x.reads + 1 }
  let n := b1.readCount chan (p % 20480)
  let b2 := if b1.readLimit ≤ n ∧ b1.mapped chan (unitBlock u) = p % 20480 then b1.queueReloc chan (unitBlock u) else b1
  if 2 * b1.readLimit ≤ n ∧ x.late = false then
    ((b2.setPBlock p { b2.pblock p with late := true }).bump F.relocLate).cellarEvent 0x0413 (chan / 16) 0 chan n u 0xFF
  else b2

/-- A unit is unreadable (R188): its image is damaged, it enters the damage list, its block is queued. -/
def Block.unitLost (b : Block) (u : Nat) : Block :=
  let k := unitCc u
  let known := sget (fun _ => false) b.cellar.lost u
  let b1 := (b.bump F.cellarUe).bump (F.ccUe k)
  match b1.imageOf u with
  | none => b1
  | some x =>
    if known then b1
    else
      let b2 : Block := { b1 with cellar := { b1.cellar with lost := sset (fun _ => false) b1.cellar.lost u true } }
      let b3 := b2.setImage x.id fun y =>
        { y with state := if y.state = 2 then 3 else y.state, damaged := y.damaged + 1, damage := if y.damage.length < 256 then y.damage ++ [u - y.base] else y.damage }
      let b4 := b3.cellarEvent 0x0411 k x.id (unitChan u) 0 u x.camp
      let b5 := if x.state = 2 then b4.cellarEvent 0x0412 k x.id (unitChan u) 0 u x.camp else b4
      b5.queueReloc (unitChan u) (unitBlock u)

/-- Unit n of a channel's logical block (R172). -/
def blockUnit (chan l n : Nat) : Nat := (1024 * l + n) * 128 + chan

/-- A running relocation has copied its next unit, or left it unreadable (R181, R188); its next read is queued. -/
def Block.relocRead (b : Block) (chan l : Nat) : Block :=
  match b.cellar.relocs.find? fun r => r.chan == chan && r.lblock == l && decide (r.target ≠ 0) with
  | none => b
  | some r =>
    let b1 : Block := { b with cellar := { b.cellar with relocs := b.cellar.relocs.map fun x => if x == r then { x with copied := x.copied + 1 } else x } }
    if r.copied + 1 < 1024 then b1.queueRead (blockUnit chan l (r.copied + 1)) .reloc true 0 0 0xFF 2 else b1

/-- What a firmware reader or an element asked for has been read, or could not be. -/
def Block.bulkRead (b : Block) (r : UnitRead) (ok : Bool) : Block :=
  { b with cellar := { b.cellar with got := b.cellar.got ++ [⟨r.who, r.unit, ok⟩] } }

-- Log entry 49 (DESIGN CHOICE).
/-- Deliver a unit to what waits for it (R178). -/
def Block.deliverUnit (b : Block) (r : UnitRead) : Block :=
  match r.who with
  | .move =>
    let give (m : Move) : Move := if m.running = true ∧ m.srcTier = 3 ∧ m.src = r.unit then { m with got := true } else m
    { b with tier := { b.tier with moves := b.tier.moves.map give } }
  | .op id => b.feedOp (id + 1) 2
  | .bulk .. => b.bulkRead r true
  | .seal camp seq => b.sealRead camp seq (some (sget (fun _ => 0) b.cellar.units r.unit))
  | .reloc => b.relocRead (unitChan r.unit) (unitBlock r.unit)

-- Log entry 49 (DESIGN CHOICE).
/-- What waits for a unit that cannot be read. -/
def Block.failUnit (b : Block) (r : UnitRead) : Block :=
  match r.who with
  | .move => (b.tier.moves.filter fun m => m.running && decide (m.srcTier = 3) && decide (m.src = r.unit) && !m.got).foldl Block.moveReadFailed b
  | .op id => b.feedOp (id + 1) 3
  | .bulk .. => b.bulkRead r false
  | .seal camp seq => b.sealRead camp seq none
  | .reloc => b.relocRead (unitChan r.unit) (unitBlock r.unit)

-- Log entry 49 (DESIGN CHOICE).
/-- CELLAR_READ_COMPLETE: the next read of a channel ends. `outcome` is 0 when it decodes, 1 when BCH fails after every retry, 2 when the
CRC mismatches; `bits` the bits corrected, `pct` the largest share of 72 bits in a codeword. A listed unit fails at once, and a unit of a
dark channel without damage to its image. -/
def cellarReadCompleteEff (chan retries outcome bits pct : Nat) (b : Block) : Block :=
  let k := chan / 16
  match b.nextRead chan with
  | none => b
  | some r =>
    let u := r.unit
    if b.cellar.mounted = false then b
    else if b.unitDark u then ((((b.leaveQueue r).bump F.cellarUe).bump (F.ccUe k)).failUnit r).askRead k
    else if b.readGrant k = false then b.askRead k
    else if sget (fun _ => false) b.cellar.lost u then (((b.leaveQueue r).unitLost u).failUnit r).askRead k
    else
      let b1 := ((b.leaveQueue r).countRead u r.block).count F.readRetries (min 8 retries)
      if outcome = 0 then
        let b2 := ((b1.bump F.unitsRead).bump (F.ccReads k)).count (F.ccBchBits k) bits
        let b3 := if retries ≠ 0 ∨ min 100 (b.fget F.cellarConfigBchRelocPct) < pct then b2.queueReloc chan (unitBlock u) else b2
        (b3.deliverUnit r).askRead k
      else (((if outcome = 2 then b1.bump F.crcFails else b1).unitLost u).failUnit r).askRead k

/-! ### Relocation (R181 to R183) -/

-- Log entry 56 (DESIGN CHOICE).
/-- The first relocation of a logical block goes to a target. -/
def markReloc (chan l target : Nat) : List Reloc → List Reloc
  | [] => []
  | r :: rs => if r.chan = chan ∧ r.lblock = l then { r with target := target, copied := 0 } :: rs else r :: markReloc chan l target rs

/-- A rewrite of an image that a SEAL reads waits for the SEAL. -/
def Block.sealed (b : Block) (r : Reloc) : Bool :=
  r.writes.any fun w => match b.imageOf w.1 with
    | some x => b.cellar.seals.any fun s => s.image == x.id
    | none => false

-- Log entry 56 (DESIGN CHOICE).
/-- RELOCATION_START: a queued relocation of a block starts into the least-erased spare block: it asks for its channel's programming grant
and, with it, queues its first read. -/
def relocationStartEff (chan l : Nat) (b : Block) : Block :=
  let k := chan / 16
  let busy := b.cellar.reads.any fun r => decide (unitChan r.unit = chan) && decide ((b.unitRank r).1 < 3)
  let mine (r : Reloc) : Bool := r.chan == chan && r.lblock == l
  if (b.cellar.relocs.any mine) = false ∨ (b.cellar.relocs.any fun r => r.chan == chan && decide (r.target ≠ 0)) = true ∨ (b.cc k).paused = true ∨
      b.unitDark chan = true ∨ (b.cellar.relocs.any fun r => mine r && b.sealed r) = true ∨ (busy = true ∧ b.pastHard chan l = false) then b
  else match b.spare chan with
    | none =>
      -- an empty pool: the block stays, and a WRITE that needs it ends
      let ws := (b.cellar.relocs.filter mine).flatMap (·.writes)
      let hit := (b.cellar.staged.filter fun s => ws.any fun w => w.1 == s.unit).map fun s => (s.camp, s.seq)
      hit.dedup.foldl (fun b cs => b.writeFull cs.1 cs.2) b
    | some q =>
      if b.progGrant chan = false then b.askProgram chan
      else
        let b1 : Block := { b with cellar := { b.cellar with relocs := markReloc chan l (q + 1) b.cellar.relocs } }
        ((b1.setPBlock (blockKey chan q) { b1.pblock (blockKey chan q) with use := 1 }).noteSpares chan).queueRead (blockUnit chan l 0) .reloc true 0 0 0xFF 2

/-- The writes of a relocation are committed: the units hold their new data. -/
def Block.commitWrites (b : Block) : List (Nat × Nat) → Block
  | [] => b
  | (u, data) :: ws =>
    let owner := b.cellar.staged.find? fun s => s.unit == u && s.done
    let b1 : Block := { b with cellar := { b.cellar with
      units := sset (fun _ => 0) b.cellar.units u data
      lost := sset (fun _ => false) b.cellar.lost u false
      staged := dropFirst (fun s => s.unit == u && s.done) b.cellar.staged } }
    Block.commitWrites (match owner with | some s => b1.settleWrite s.camp s.seq | none => b1) ws

/-- The reads of a relocation that is given up leave their queue. -/
def Block.dropRelocReads (b : Block) (chan l : Nat) : Block :=
  ((b.cellar.reads.filter fun r => r.who == .reloc && decide (unitChan r.unit = chan) && decide (unitBlock r.unit = l)).foldl Block.leaveQueue b).askRead (chan / 16)

/-- RELOCATION_SWITCH: a running copy of a block is complete. `ok` says whether its target took it; one that did not is retired
and the relocation waits again. The switch is one update of the map; the old block waits for its erase. -/
def relocationSwitchEff (chan l : Nat) (ok : Bool) (b : Block) : Block :=
  let k := chan / 16
  match b.cellar.relocs.find? fun r => r.chan == chan && r.lblock == l && decide (r.target ≠ 0) with
  | none => b
  | some r =>
    let q := r.target - 1
    let p := b.mapped chan l
    if (b.cc k).paused = true ∨ b.unitDark chan = true ∨ (ok = true ∧ r.copied < 1024) then b
    else if b.progGrant chan = false then b.askProgram chan
    else if ok = false then
      let b1 : Block := { b with cellar := { b.cellar with
        relocs := b.cellar.relocs.map fun x => if x == r then { x with target := 0, copied := 0 } else x } }
      ((b1.dropRelocReads chan l).retireBlock chan q).restChan chan
    else
      let b1 : Block := { b with cellar := { b.cellar with
        relocs := dropFirst (· == r) b.cellar.relocs
        map := sset (fun k => k % 16384) b.cellar.map (mapKey chan l) q } }
      let b2 := b1.setPBlock (blockKey chan q) { b1.pblock (blockKey chan q) with use := 0, reads := 0, late := false, base := (b.cc k).penalty }
      let b3 := b2.setPBlock (blockKey chan p) { b2.pblock (blockKey chan p) with use := 2 }
      let b4 := ((b3.bump F.relocations).bump (F.ccRelocs k)).count F.unitsProgrammed 1024
      ((b4.count (F.ccPrograms k) 1024).commitWrites r.writes).restChan chan

-- Log entry 57 (DEDUCED).
/-- A block of an ERASING image is erased; the last one frees the image's extents (R176). A relocation of the block is given up, and its
target waits for its erase. -/
def Block.eraseImageBlock (b : Block) (chan l : Nat) (x : Image) : Block :=
  let inBlock (u : Nat) : Bool := decide (unitChan u = chan) && decide (unitBlock u = l)
  let rest := x.toErase.filter (· != mapKey chan l)
  let targets := (b.cellar.relocs.filter fun r => r.chan == chan && r.lblock == l && decide (r.target ≠ 0)).map fun r => r.target - 1
  let b0 := targets.foldl (fun b q => b.setPBlock (blockKey chan q) { b.pblock (blockKey chan q) with use := 2 }) (b.dropRelocReads chan l)
  let b1 : Block := { b0 with cellar := { b0.cellar with
    units := b.cellar.units.filter fun kv => !inBlock kv.1
    lost := b.cellar.lost.filter fun kv => !inBlock kv.1
    relocs := b.cellar.relocs.filter fun r => !(r.chan == chan && r.lblock == l) } }
  if rest = [] then { b1 with cellar := { b1.cellar with images := b1.cellar.images.filter fun y => y.id != x.id } }
  else b1.setImage x.id fun y => { y with toErase := rest }

/-- BLOCK_ERASE: a physical block's erase ends: an old block of a relocation, once every read issued before the switch has
completed, or a block of an ERASING image. One that fails is retired, and replaced from the pool where it has one. -/
def blockEraseEff (chan p : Nat) (ok : Bool) (b : Block) : Block :=
  let k := chan / 16
  let key := blockKey chan p
  let x := b.pblock key
  let done (b : Block) : Block :=
    b.setPBlock key { x with use := if ok then 0 else 3, erases := x.erases + 1, reads := 0, late := false, base := (b.cc k).penalty }
  let erasing (m : Nat) : Bool := decide (m / 16384 = chan) && decide (b.mapped chan (m % 16384) = p)
  let image := b.cellar.images.find? fun y => y.state == 4 && y.toErase.any erasing
  if (b.cc k).paused = true ∨ b.unitDark chan = true ∨ x.flight ≠ 0 ∨ (x.use ≠ 2 ∧ image = none) then b
  else if b.progGrant chan = false then b.askProgram chan
  else if x.use = 2 then ((done b).noteSpares chan).restChan chan
  else
    match image.bind fun y => (y.toErase.find? erasing).map fun m => (y, m % 16384) with
    | none => b
    | some (y, l) => ((if ok then done b else (done b).replaceBlock chan l).eraseImageBlock chan l y).restChan chan

/-! ### Heat, mount, darkness (R184, R187, R189) -/

/-- CELLAR_THERMAL_SAMPLE: a controller's hottest sensor. -/
def cellarThermalSampleEff (k temp : Nat) (b : Block) : Block :=
  let c := b.cc k
  let hot := b.fget F.cellarConfigHotC
  let b1 := (b.setCc k { c with temp := temp, paused := if hot < temp then true else if temp + 5 ≤ hot then false else c.paused }).peak (F.ccTempPeakC k) (satTo 8 temp)
  if hot < temp ∧ c.paused = false then b1.cellarEvent 0x0415 k 0 0x7F temp 0 0xFF else b1

/-- The logical blocks of a channel that have an entry of their own: those that the map moved, and those of listed physical blocks. -/
def Block.knownBlocks (b : Block) (chan : Nat) : List Nat :=
  (((b.cellar.map.filter fun (kv : Nat × Nat) => decide (kv.1 / 16384 = chan)).map fun (kv : Nat × Nat) => kv.1 % 16384) ++
    ((b.cellar.blocks.filter fun (kv : Nat × PBlock) => decide (kv.1 / 20480 = chan) && decide (kv.1 % 20480 < 16384)).map fun (kv : Nat × PBlock) => kv.1 % 20480)).dedup

/-- Queue the blocks of a controller whose restored counts have reached READ_LIMIT (R181). -/
def Block.queueWorn (b : Block) (k : Nat) : Block :=
  (List.range 16).foldl (fun b j =>
    let chan := 16 * k + j
    let ls := if b.readLimit ≤ (b.cc k).penalty then List.range 16384 else b.knownBlocks chan
    ls.foldl (fun b l => if b.readLimit ≤ b.readCount chan (b.mapped chan l) then b.queueReloc chan l else b) b) b

-- Log entry 54 (DEDUCED).
/-- A controller restores its read counts; after an unclean loss of power READ_LIMIT / 8 is added to each (R187). The target of a
relocation that the reset cut off waits for its erase. -/
def Block.restoreCounts (b : Block) (k : Nat) : Block :=
  let clean := bitAt b.cellar.savedClean k
  let penalty := if clean then 0 else b.readLimit / 8
  let back (x : PBlock) : PBlock := { x with reads := x.saved, base := x.savedBase, flight := 0, use := if x.use = 1 then 2 else x.use }
  let blocks := b.cellar.blocks.map fun kv => if kv.1 / 20480 / 16 = k then (kv.1, back kv.2) else kv
  ({ b with cellar := { b.cellar with
      blocks := blocks.filter fun kv => decide (kv.2 ≠ PBlock.init)
      unclean := b.cellar.unclean || !clean
      savedClean := setBit b.cellar.savedClean k false } } : Block).setCc k
    { b.cc k with penalty := sget (fun _ => 0) b.cellar.savedPenalty k + penalty }

-- Log entry 54 (DEDUCED).
/-- CELLAR_MOUNTED: a controller has read its map, journal, catalogue and read counts, `ms` after the mount began; `chans` are its
channels that came up. The cellar accepts reads once every controller is up or dark. -/
def cellarMountedEff (k chans ms : Nat) (b : Block) : Block :=
  let c := b.cc k
  if c.state ≠ 0 ∨ b.boot.running = false then b
  else
    let b1 := b.restoreCounts k
    let b2 := (b1.setCc k { b1.cc k with state := 1, chans := chans }).queueWorn k
    let all := (List.range 8).all fun j => decide ((b2.cc j).state ≠ 0)
    let b3 : Block := { b2 with
      cellar := { b2.cellar with mounted := all }
      boot := { b2.boot with en := { b2.boot.en with cellar := all } } }
    b3.cellarEvent 0x0410 k 0 0x7F ms 0 0xFF

-- Log entry 54 (DEDUCED).
/-- READ_COUNT_SAVE: a controller saves its read counts to flash. -/
def readCountSaveEff (k : Nat) (b : Block) : Block :=
  let c := b.cc k
  let save (x : PBlock) : PBlock := { x with saved := x.reads, savedBase := x.base }
  let blocks := b.cellar.blocks.map fun kv => if kv.1 / 20480 / 16 = k then (kv.1, save kv.2) else kv
  if c.state = 1 then { b with cellar := { b.cellar with blocks := blocks, savedPenalty := sset (fun _ => 0) b.cellar.savedPenalty k c.penalty } } else b

/-- The rewrites that reach a unit which is now on a DARK channel end their WRITEs (R189). -/
def Block.endDarkWrites (b : Block) : Block :=
  (b.cellar.staged.filter fun s => s.done && b.unitDark s.unit).foldl (fun b s =>
    if b.cellar.staged.contains s then
      match b.image? s.image with
      | some x => b.writeDark s.camp s.seq s.unit x
      | none => b
    else b) b

/-- CELLAR_CC_DARK: a controller (`chan` 16 or above) or one of its channels stops or fails; the ballast catches its draw. -/
def cellarCcDarkEff (k chan : Nat) (b : Block) : Block :=
  let c := b.cc k
  if c.state = 2 then b
  else if chan < 16 then
    if bitAt c.chans chan then
      (((b.dropDraw (b.hostField k) (ccAsker k (1 + chan))).setCc k { c with chans := setBit c.chans chan false }).endDarkWrites).cellarEvent 0x0414 k 0 (16 * k + chan) 0 0 0xFF
    else b
  else
    let h := b.hostField k
    let b1 := (List.range 17).foldl (fun b e => (b.dropDraw h (ccAsker k e)).withdraw h (ccAsker k e)) b
    let b2 := b1.setCc k { c with state := 2 }
    let all := (List.range 8).all fun j => decide ((b2.cc j).state ≠ 0)
    let b3 : Block := { b2 with
      cellar := { b2.cellar with mounted := b2.cellar.mounted || all }
      boot := { b2.boot with en := { b2.boot.en with cellar := b2.boot.en.cellar || (all && b2.boot.running) } } }
    b3.endDarkWrites.cellarEvent 0x0414 k 0 0x7F 0 0 0xFF

/-! ### Queries (R192, R193) and camp reset (R190) -/

/-- IMAGE_QUERY: the write selects a record and a damage-list entry. -/
def imageQueryEff (fn value : Nat) (b : Block) : Block :=
  b.barWrite fn 0x800010 fun b => b.writeWord 0x800010 (BitVec.ofNat 32 value)

/-- Word i of the selected record. -/
def Block.imageRecord (b : Block) (i : Nat) : Nat :=
  match b.image? (b.fget F.imageQueryImageId) with
  | some x => bitsOf x.bits (32 * i) 32
  | none => 0

/-- DAMAGE_RESULT. -/
def Block.damageResult (b : Block) : Nat :=
  match b.image? (b.fget F.imageQueryImageId) with
  | some x => (x.damage[b.fget F.imageQueryDamageIndex]?).getD 0xFFFFFFFF
  | none => 0xFFFFFFFF

-- Log entry 207 (DEDUCED).
/-- A camp's queued reads are discarded and counted, and its INSTALL stops at its last committed unit (R190). A running move whose read is
discarded is given up. -/
def Block.cellarCampReset (b : Block) (c : Nat) : Block :=
  let mine := b.cellar.reads.filter fun r => r.camp == c && r.who != .reloc
  let b1 := mine.foldl (fun b r =>
    let b' := (b.leaveQueue r).bump (F.ccCampDiscards (unitCc r.unit))
    if r.who = .move then (b'.tier.moves.filter fun m => m.running && decide (m.srcTier = 3) && decide (m.src = r.unit) && !m.got &&
      decide ((b'.dirEntry m.field m.granule).camp = c)).foldl Block.abandonMove b' else b') b
  let units := (b1.cellar.staged.filter fun s => s.camp == c).map (·.unit)
  let chans := (units.map unitChan).dedup
  let b2 : Block := { b1 with cellar := { b1.cellar with
    staged := b1.cellar.staged.filter fun s => s.camp != c
    seals := b1.cellar.seals.filter fun s => s.camp != c
    got := b1.cellar.got.filter fun x => match x.who with | .bulk camp _ => camp != c | _ => true
    relocs := (b1.cellar.relocs.map fun r => { r with writes := r.writes.filter fun w => !units.contains w.1 }) } }
  chans.foldl Block.restChan ((List.range 8).foldl Block.askRead b2)

end Sys2Proof.Machine
end

