-- ==== Sys2Proof/Machine/Narrow.lean ====
section
/-! DEFINITION. Narrow formats, tile images and the arrays' arithmetic (R233 to R235); quantisation and folds (R236, R363). -/
namespace Sys2Proof.Machine

/-- A decoded value: a number `n 2^e`, an infinity, or NaN. -/
inductive Elt where
  | fin (n e : Int)
  | inf (neg : Bool)
  | nan
deriving DecidableEq, Repr

/-- A small float of `eb` exponent and `mb` mantissa bits with a bias. -/
def miniFloat (eb mb : Nat) (bias : Int) (x : Nat) : Elt :=
  let m := x % 2 ^ mb
  let ex := x / 2 ^ mb % 2 ^ eb
  let mag : Int := if ex = 0 then m else m + 2 ^ mb
  let e : Int := (if ex = 0 then 1 else (ex : Int)) - bias - mb
  .fin (if bitAt x (eb + mb) then -mag else mag) e

/-- The value of an element of a format (R233). -/
def elemVal (fmt x : Nat) : Elt :=
  match fmt with
  | 0 => if x % 128 = 127 then .nan else miniFloat 4 3 7 x
  | 1 => if x / 4 % 32 = 31 then (if x % 4 = 0 then .inf (bitAt x 7) else .nan) else miniFloat 5 2 15 x
  | 2 => miniFloat 3 2 3 x
  | 3 => miniFloat 2 3 1 x
  | 4 => miniFloat 2 1 1 x
  | 5 => .fin (ofTwos 8 x) (-6)
  | _ => .fin (ofTwos 4 x) 0

/-- The bits of an element. -/
def tileElemBits (fmt : Nat) : Nat :=
  match fmt with
  | 0 | 1 | 5 => 8
  | 2 | 3 => 6
  | _ => 4

/-- The element bytes of a tile. -/
def tileElemBytes (fmt : Nat) : Nat := 2048 * tileElemBits fmt

/-- The bytes of a tile image (R233). -/
def imageBytes (fmt : Nat) : Nat := tileElemBytes fmt + (if fmt = 6 then 128 else 512)

/-- Element k of column c of a tile image (R234): elements fill bytes from the low bits up. -/
def tileElem (fmt image k c : Nat) : Elt := elemVal fmt (bitsOf image (tileElemBits fmt * (128 * k + c)) (tileElemBits fmt))

/-- The E8M0 scale of block b of column c. -/
def tileScale (fmt image b c : Nat) : Nat := bitsOf image (8 * (tileElemBytes fmt + (if fmt = 6 then 0 else 128 * b) + c)) 8

/-- A bf16 value. -/
def bfVal (x : Nat) : Elt :=
  let w := bfWide x
  if f32IsNan w then .nan else if f32IsInf w then .inf (f32Neg w) else .fin (f32Val w).1 (f32Val w).2

-- Log entry 113 (DEDUCED).
/-- An exact product. -/
def Elt.mul (x y : Elt) : Elt :=
  match x, y with
  | .fin a e, .fin c g => .fin (a * c) (e + g)
  | .inf s, .fin c _ => if c = 0 then .nan else .inf (s != decide (c < 0))
  | .fin a _, .inf t => if a = 0 then .nan else .inf (t != decide (a < 0))
  | .inf s, .inf t => .inf (s != t)
  | _, _ => .nan

-- Log entry 113 (DEDUCED).
/-- An exact sum. -/
def Elt.add (x y : Elt) : Elt :=
  match x, y with
  | .fin a e, .fin c g => let s := dyAdd (a, e) (c, g); .fin s.1 s.2
  | .inf s, .inf t => if s = t then .inf s else .nan
  | .inf s, .fin _ _ => .inf s
  | .fin _ _, .inf t => .inf t
  | _, _ => .nan

/-- A block sum at its scale, rounded once to fp32 (R235). -/
def Elt.scaled (x : Elt) (scale : Nat) : Nat :=
  if scale = 0xFF then nan32
  else match x with
    | .nan => nan32
    | .inf neg => signBit neg + inf32
    | .fin n e => roundInt32 n (e + scale - 127) false

-- Log entry 113 (DEDUCED).
/-- S_b of a row and a column (R235). -/
def blockSum (fmt image row b c : Nat) : Nat :=
  ((List.range 32).foldl (fun (s : Elt) i =>
    let k := 32 * b + i
    s.add ((bfVal (bitsOf row (16 * k) 16)).mul (tileElem fmt image k c))) (.fin 0 0)).scaled (tileScale fmt image b c)

-- Log entry 113 (DEDUCED).
/-- What a row adds to one accumulator: S_0 to S_3 in order, each addition rounded once; and whether a NaN was produced. -/
def accumulate (fmt image row c acc : Nat) : Nat × Bool :=
  (List.range 4).foldl (fun a b =>
    let s := blockSum fmt image row b c
    let v := f32Add a.1 s
    (v, a.2 || f32IsNan s || f32IsNan v)) (acc, false)

-- Log entry 114 (DEDUCED).
/-- A row through a tile: the new accumulator row, and whether a NaN was produced. -/
def streamRow (t : Tile) (row old : Nat) : Nat × Bool :=
  let cols := (List.range 128).map fun c => (c, accumulate t.fmt t.image row c (bitsOf old (32 * c) 32))
  (packBits (cols.map fun x => (32 * x.1, 32, x.2.1)), cols.any fun x => x.2.2)

-- Log entry 109 (DEDUCED).
/-- A drained row (R238): bf16, or fp32 as it stands. -/
def drainRow (fp32 : Bool) (data : Nat) : Nat :=
  if fp32 then data else packBits ((List.range 128).map fun c => (16 * c, 16, bfRound (bitsOf data (32 * c) 32)))

/-! ### Requantisation (R363) -/

/-- Floor of the base-2 logarithm of a nonzero magnitude. -/
def magLog (m : Nat × Int) : Int := (m.1.log2 : Int) + m.2

/-- EMAX of an MX format. -/
def emax (fmt : Nat) : Int :=
  match fmt with
  | 0 => 8
  | 1 => 15
  | 2 => 4
  | 3 | 4 => 2
  | _ => 0

/-- The clamp of an exponent. -/
def clampExp (e : Int) : Int := max (-127) (min 127 e)

/-- Exponent bits, mantissa bits, bias and the largest finite magnitude's pattern of a float format. -/
def formatShape (fmt : Nat) : Nat × Nat × Int × Nat :=
  match fmt with
  | 0 => (4, 3, 7, 0x7E)
  | 1 => (5, 2, 15, 0x7B)
  | 2 => (3, 2, 3, 0x1F)
  | 3 => (2, 3, 1, 0x1F)
  | _ => (2, 1, 1, 0x7)

/-- A value in a float format, to nearest even, saturated to the largest finite magnitude. -/
def toMini (fmt : Nat) (v : Int × Int) : Nat :=
  let s := formatShape fmt
  let mb := s.2.1
  let emin : Int := 1 - s.2.2.1 - mb
  let r := roundMag (mb + 1) emin v.1.natAbs v.2 false
  let kq : Nat × Int := if r.1 = 2 ^ (mb + 1) then (2 ^ mb, r.2 + 1) else r
  let pat := if kq.1 < 2 ^ mb then kq.1 else (kq.2 - emin + 1).toNat * 2 ^ mb + (kq.1 - 2 ^ mb)
  (if v.1 < 0 then 2 ^ (s.1 + mb) else 0) + (if v.1 = 0 then 0 else min pat s.2.2.2)

/-- An integer element, saturated. -/
def toInt (bits : Nat) (lo hi : Int) (v : Int × Int) : Nat := toTwos bits (max lo (min hi (nearestDy v)))

/-- The element that a scaled value becomes. -/
def quantElem (fmt : Nat) (v : Int × Int) : Nat :=
  match fmt with
  | 5 => toInt 8 (-127) 127 (v.1, v.2 + 6)
  | 6 => toInt 4 (-8) 7 v
  | _ => toMini fmt v

/-- The shared exponent of a block whose largest magnitude is `m` and not 0. -/
def blockExp (fmt : Nat) (m : Nat × Int) : Int :=
  if fmt = 6 then
    -- the least e with m at most 7 * 2^e
    let e := magLog m - 2
    clampExp (if dyLt (7, e) ((m.1 : Int), m.2) then e + 1 else e)
  else clampExp (magLog m - emax fmt)

/-- The largest magnitude of a block of fp32 numbers. -/
def amax (ws : List Nat) : Nat := ws.foldl (fun a w => max a (f32Abs w)) 0

/-- A block of finite fp32 numbers in a format: its scale byte and its elements. -/
def quantBlock (fmt : Nat) (ws : List Nat) : Nat × List Nat :=
  if amax ws = 0 then (0, ws.map fun _ => 0)
  else
    let e := blockExp fmt (f32Mag (amax ws))
    ((e + 127).toNat, ws.map fun w => quantElem fmt ((f32Val w).1, (f32Val w).2 - e))

/-- Rows per block of a format. -/
def blockRows (fmt : Nat) : Nat := if fmt = 6 then 128 else 32

/-- The image of a tile whose weights are `w k c` (R234). -/
def tileImage (fmt : Nat) (w : Nat → Nat → Nat) : Nat :=
  let n := blockRows fmt
  packBits ((List.range (128 / n)).flatMap fun blk => (List.range 128).flatMap fun c =>
    let q := quantBlock fmt ((List.range n).map fun i => w (n * blk + i) c)
    (8 * (tileElemBytes fmt + 128 * blk + c), 8, q.1) ::
      ((List.range n).zip q.2).map fun x => (tileElemBits fmt * (128 * (n * blk + x.1) + c), tileElemBits fmt, x.2))

/-- A weight of a tile image as an fp32 number. -/
def tileWeight (fmt image k c : Nat) : Nat := (tileElem fmt image k c).scaled (tileScale fmt image (k / blockRows fmt) c)

-- Log entry 222 (DESIGN CHOICE).
/-- A tile image with a FOLD applied (R236): row k is multiplied by its scale, and the tile is quantised again. A tile with a weight that is not
finite then stays as it is. -/
def foldImage (fmt image : Nat) (scales : List Nat) : Nat :=
  let w (k c : Nat) : Nat := match scales[k]? with
    | some s => f32Mul (tileWeight fmt image k c) s
    | none => tileWeight fmt image k c
  if (List.range 128).all fun k => (List.range 128).all fun c => f32Finite (w k c) then tileImage fmt w else image

end Sys2Proof.Machine
end

