-- ==== Sys2Proof/Machine/ArrState.lean ====
section
/-! DEFINITION. Chapter 09, what JOBs need of the arrays: who holds them (R241), when one is IDLE (R239), and ABORT (R240). -/
namespace Sys2Proof.Machine

/-- The endpoint from which an operation is sent: its field and its unit's number (R40); firmware's from the field's lantern (0xFFF). -/
def MemOp.source (o : MemOp) : Nat × Nat :=
  match o.thread, o.array with
  | some t, _ => (t / 1152, t / 4 % 288)
  | none, some k => (k / 12, 0x140 + k % 12)
  | none, none => (o.field, 0xFFF)

-- Log entry 224 (DESIGN CHOICE).
/-- Holds an endpoint buffer space for one more response (R42)? -/
def Block.rspRoom (b : Block) (f unit : Nat) : Bool :=
  let mine := b.tc.ops.filter fun o => o.source == (f, unit)
  mine.isEmpty || decide (mine.length < Config.rspSpace (1024 * f + unit))

/-- Are all four units of an array empty? -/
def Block.unitsEmpty (b : Block) (f n : Nat) : Bool :=
  let x := b.array f n
  x.shift.isNone && x.flight.isEmpty && x.drain.isNone && !(b.tc.ops.any fun o => o.array == some (arrKey f n))

/-- Is an array IDLE (R239): no word being executed, and all four units empty? -/
def Block.arrIdle (b : Block) (f n : Nat) : Bool :=
  let x := b.array f n
  !x.running && !x.aborting && b.unitsEmpty f n

-- Log entry 116 (DESIGN CHOICE).
/-- Who holds an array: 0 nobody, 1 a JOB, 2 a resident kernel, whose plan gives it a standing grant (R241, R243). -/
def Block.arrHolder (b : Block) (f n : Nat) : Nat :=
  if (b.array f n).kind = 1 then 1 else if b.holds f (arrAsker n 2) ∨ b.waits f (arrAsker n 2) then 2 else 0

-- Log entry 116 (DESIGN CHOICE).
/-- The holder's camp. -/
def Block.arrCamp (b : Block) (f n : Nat) : Nat :=
  match b.arrHolder f n with
  | 1 => (b.array f n).camp
  | 2 =>
    match b.grantOf f (arrAsker n 2) with
    | some g => g.camp
    | none => (((b.desk f).queue.find? fun q => q.who == arrAsker n 2).map (·.camp)).getD 0
  | _ => 0

/-- The class of the holder's work (R71). -/
def Block.arrClass (b : Block) (f n : Nat) : Nat := if b.arrHolder f n = 2 then b.stepClass (b.arrCamp f n) else jobClass

/-- The class of the work behind an operation (R71). -/
def Block.opClass (b : Block) (o : MemOp) : Nat :=
  match o.array with
  | some k => if k < 1152 then b.arrClass (k / 12) (k % 12) else jobClass
  | none => match o.thread with
    | some t => b.idClass (sget (fun _ => ThreadSt.init) b.tc.threads t).job
    | none => b.stepClass o.camp

-- Log entry 47 (DEDUCED).
/-- A channel's queue has grown: when it is deep, its controller asks for burst mode at the class of its head's work (R123). -/
def Block.noteQueue (b : Block) (f n : Nat) : Block :=
  match b.chanQueue f n with
  | [] => b
  | o :: r => if r.length + 1 < b.queueDeep then b else b.askBurst f n (b.opClass o) o.camp

/-- The channels that an operation joins note their queues. -/
def Block.noteOp (b : Block) (o : MemOp) : Block :=
  ((o.addrs.filterMap fun a =>
    let p := (b.readAddr a).getD a
    if isDram p then some (physField p, dramChan p) else none).dedup).foldl (fun b c => b.noteQueue c.1 c.2) b

/-- A JOB's arrays: (field, array). -/
def Job.arrayList (j : Job) : List (Nat × Nat) :=
  ((List.range 96).filter (bitAt j.fields)).flatMap fun f => ((List.range 12).filter (bitAt j.arrays)).map fun n => (f, n)

/-- Are a JOB's arrays free of other holders (R241)? -/
def Block.arraysFree (b : Block) (j : Job) : Bool := j.arrayList.all fun fn => b.arrHolder fn.1 fn.2 == 0

/-- A JOB takes its arrays, which are cleared as they pass to it (R241). -/
def Block.takeArrays (b : Block) (j : Job) : Block :=
  j.arrayList.foldl (fun b fn => b.setArray fn.1 fn.2 { ArrSt.init with kind := 1, camp := j.camp, job := j.id }) b

-- Log entry 112 (DEDUCED).
/-- A JOB's arrays pass from it, with their grants (R199, R243); the resident kernels whose plan names one hold it from then on, cleared. -/
def Block.leaveArrays (b : Block) (j : Job) : Block :=
  j.arrayList.foldl (fun b fn =>
    let drop (b : Block) (e : Nat) : Block := (b.withdraw fn.1 (arrAsker fn.2 e)).release fn.1 (arrAsker fn.2 e)
    let b1 := (drop (drop b 0) 1).setArray fn.1 fn.2 { b.array fn.1 fn.2 with kind := 0, camp := 0, job := 0, shiftIdle := 0, streamIdle := 0 }
    if b1.arrHolder fn.1 fn.2 = 2 then b1.passArray fn.1 fn.2 (b1.arrCamp fn.1 fn.2) else b1) b

-- Log entry 112 (DEDUCED).
/-- Is every array of a JOB IDLE? -/
def Block.arraysIdle (b : Block) (j : Job) : Bool := j.arrayList.all fun fn => b.arrIdle fn.1 fn.2

/-- The STALL code of the status word (R248): the head's, else the lowest of the waiting accesses. -/
def ArrSt.stall (x : ArrSt) : Nat :=
  if x.headStall ≠ 0 then x.headStall else if bitAt x.late 2 then 2 else if bitAt x.late 3 then 3 else if bitAt x.late 4 then 4 else 0

/-- Note when a stall begins and ends. -/
def ArrSt.restall (x : ArrSt) (now : Nat) : ArrSt :=
  if x.stall = 0 then { x with stallAt := 0, stallRaised := false } else if x.stallAt = 0 then { x with stallAt := now + 1 } else x

-- Log entry 108 (DEDUCED).
/-- A row that has been read enters the array (R235, R238): its accumulator row is set to +0 at CLEAR, takes the sums, and is marked
by the poison of the tile or of the row. -/
def ArrSt.enter (x : ArrSt) (base : Nat) (clear : Bool) (o : MemOp) : ArrSt :=
  let r := base + o.tag - 1
  let old : AccRow := if clear then ⟨0, false⟩ else (sget (fun _ => none) x.acc r).getD ⟨0, false⟩
  let s := streamRow x.active o.result old.data
  { x with acc := sset (fun _ => none) x.acc r (some ⟨s.1, old.poison || o.resultPoison || decide (x.active.state = 3)⟩)
           nanSeen := x.nanSeen || s.2 }

-- Log entry 107 (DESIGN CHOICE).
/-- The row reads of an array that have been performed. -/
def MemOp.entered (o : MemOp) (k : Nat) : Bool := o.array == some k && o.performed && decide (1 ≤ o.tag) && decide (o.tag < 1024)

-- Log entry 107 (DESIGN CHOICE).
/-- Every row that has been read enters the array: rows of the youngest STREAM, for the stream unit works on one at a time. -/
def Block.absorb (b : Block) (f n : Nat) : Block :=
  let k := arrKey f n
  match (b.array f n).flight.getLast? with
  | none => b
  | some (base, _, clear) =>
    let x := (b.tc.ops.filter (·.entered k)).foldl (fun x o => x.enter base clear o) (b.array f n)
    (b.removeOps fun o => o.entered k).setArray f n x

-- Log entry 110 (DEDUCED).
/-- The operations of an array that have not been performed, and none of its tile fetches, survive an ABORT (R240). -/
def MemOp.abortKeeps (o : MemOp) (k : Nat) : Bool := o.array != some k || (o.performed && decide (1024 ≤ o.tag))

/-- The queued bank is cleared; its program counts as finished with the abort's last step (R240). -/
def ArrSt.unqueue (x : ArrSt) : ArrSt := { x with next := none, dropped := x.dropped ++ x.next.toList.map (·.2.1) }

-- Log entry 110 (DEDUCED).
/-- ABORT, up to the last rows on their way: the sequencer stops, the queued bank is cleared, requests still waiting are withdrawn,
a shift in progress is discarded, rows not entered and rows not written are dropped (R240, steps 1 to 5). -/
def Block.abortArray (b : Block) (f n : Nat) : Block :=
  if b.arrIdle f n then b
  else
    let b := b.absorb f n
    let x := b.array f n
    let b1 := (b.withdraw f (arrAsker n 0)).withdraw f (arrAsker n 1)
    let idle (since : Nat) (e : Nat) : Nat := if b.holds f (arrAsker n e) = true ∧ since = 0 then b.fab.time + 1 else since
    let y : ArrSt := { x.unqueue with
      running := false
      aborting := true
      shift := none
      shadow := if x.shift.isSome then ⟨2, 0, 0⟩ else x.shadow
      drain := none
      headStall := 0
      late := 0
      shiftIdle := idle x.shiftIdle 0
      streamIdle := idle x.streamIdle 1 }
    let b2 := b1.removeOps fun o => !o.abortKeeps (arrKey f n)
    ((b2.setArray f n (y.restall b.fab.time)).bump F.arrAbortsTotal).bump (F.arrAborts f)

/-- A camp reset aborts and clears every array held for the camp (R246); its requests and grants go with the camp's (R83). -/
def Block.arrayCampReset (b : Block) (c : Nat) : Block :=
  (List.range 96).foldl (fun b f => (List.range 12).foldl (fun b n =>
    if b.arrHolder f n ≠ 0 ∧ b.arrCamp f n = c then
      let b1 := b.removeOps fun o => o.array == some (arrKey f n)
      (b1.setArray f n ArrSt.init).bump (F.arrCampAborts f)
    else b) b) b

end Sys2Proof.Machine
end

