-- ==== Sys2Proof/Machine/Trans.lean ====
section
/-! DEFINITION. Square root, exp and ln in fixed point of 192 fractional bits (R201, R205, R304): far more bits than a result keeps,
so that rounding is decided by the exact value. -/
namespace Sys2Proof.Machine

/-! ### Square root -/

/-- The integer square root, bit by bit from bit `n`. -/
def isqrtFrom (x : Nat) : Nat → Nat → Nat
  | 0, r => if (r + 1) * (r + 1) ≤ x then r + 1 else r
  | n + 1, r => isqrtFrom x n (if (r + 2 ^ (n + 1)) * (r + 2 ^ (n + 1)) ≤ x then r + 2 ^ (n + 1) else r)

def isqrt (x : Nat) : Nat := isqrtFrom x (x.log2 / 2 + 1) 0

/-- The fp32 square root, rounded once. -/
def f32Sqrt (x : Nat) : Nat :=
  if f32IsNan x then nan32
  else if f32IsZero x then x
  else if f32Neg x then nan32
  else if f32IsInf x then x
  else
    let v := f32Mag x
    let odd : Nat := if v.2 % 2 = 0 then 0 else 1
    let m := v.1 * 2 ^ (80 + odd)
    let r := isqrt m
    roundF32 false r ((v.2 - 80 - odd) / 2) (decide (r * r ≠ m))

/-! ### Fixed point -/

/-- The fractional bits. -/
def fixP : Nat := 192

/-- ln 2 in fixed point. -/
def ln2Fix : Nat := 4350955369971217654477563090224794165364344896676135745069

/-- The terms of exp(r) for a fixed `r` below ln 2: term by term. -/
def expTerms (r : Nat) : Nat → Nat → Nat → Nat
  | 0, _, _ => 0
  | n + 1, i, t => t + expTerms r n (i + 1) (t * r / 2 ^ fixP / (i + 1))

/-- exp of a fixed number: `(s, k)` for `s 2^(k - 192)`, `s` between 1 and 2 in fixed point. -/
def expFix (x : Int) : Nat × Int :=
  let k := x.fdiv ln2Fix
  (expTerms (x - k * ln2Fix).toNat 60 0 (2 ^ fixP), k)

/-- A finite number `n 2^e` in fixed point. -/
def toFix (v : Int × Int) : Int :=
  if 0 ≤ v.2 + fixP then v.1 * 2 ^ (v.2 + fixP).toNat else v.1.fdiv (2 ^ (-(v.2 + fixP)).toNat)

/-- exp of an fp32 number, rounded once to nearest even (R304). -/
def f32Exp1 (x : Nat) : Nat :=
  if f32IsNan x then nan32
  else if f32IsInf x then (if f32Neg x then 0 else inf32)
  else if f32IsZero x then 0x3F800000
  else if dyLt (f32Val x) (-120, 0) then 0
  else if dyLt (100, 0) (f32Val x) then inf32
  else
    let r := expFix (toFix (f32Val x))
    roundF32 false r.1 (r.2 - fixP) true

/-- The terms of atanh(z) from z^(2i+1) on, with z2 the square of z. -/
def atanhTerms (z2 : Nat) : Nat → Nat → Nat → Nat
  | 0, _, _ => 0
  | n + 1, i, p => p / (2 * i + 1) + atanhTerms z2 n (i + 1) (p * z2 / 2 ^ fixP)

/-- ln of a positive `m 2^e` in fixed point. -/
def lnFix (m : Nat) (e : Int) : Int :=
  let k := m.log2
  -- a number from 1 to 2 in fixed point
  let y := if k ≤ fixP then m * 2 ^ (fixP - k) else m / 2 ^ (k - fixP)
  let z := (y - 2 ^ fixP) * 2 ^ fixP / (y + 2 ^ fixP)
  2 * (atanhTerms (z * z / 2 ^ fixP) 70 0 z : Int) + (e + k) * ln2Fix

/-- A fixed number rounded once to fp32, an inexact one. -/
def roundFix (x : Int) : Nat := if x = 0 then 0 else roundF32 (decide (x < 0)) x.natAbs (-192) true

/-- ln of an fp32 number, rounded once to nearest even (R304); of 0 minus infinity, of a negative number a NaN. -/
def f32Ln (x : Nat) : Nat :=
  if f32IsNan x then nan32
  else if f32IsZero x then 0xFF800000
  else if f32Neg x then nan32
  else if f32IsInf x then inf32
  else if x = 0x3F800000 then 0
  else roundFix (lnFix (f32Mag x).1 (f32Mag x).2)

/-! ### Functions whose last bit the spec leaves open (R205) -/

/-- The largest fp32 number not above a positive `m 2^e` with a nonzero tail. -/
def floorF32 (m : Nat) (e : Int) : Nat :=
  let q := max (-149) (e + (m.log2 + 1 : Nat) - 24)
  packF32 (if q ≤ e then m <<< (e - q).toNat else m >>> (q - e).toNat) q

/-- exp with an error of at most 1 ulp (R205): of the two fp32 numbers around the exact value, a free one. -/
def f32ExpUlp (x : Nat) : Nat :=
  if f32IsNan x || f32IsInf x || f32IsZero x then f32Exp1 x
  else if dyLt (f32Val x) (-120, 0) then (if Config.expUp x then 1 else 0)
  else if dyLt (100, 0) (f32Val x) then inf32
  else
    let r := expFix (toFix (f32Val x))
    let lo := floorF32 r.1 (r.2 - fixP)
    if Config.expUp x && decide (lo < inf32) then lo + 1 else lo

end Sys2Proof.Machine
end

