-- ==== Sys2Proof/Machine/Flags.lean ====
section
/-! DEFINITION. FPFLAGS (R194, R201): bit 0 INVALID, 1 OVERFLOW, 2 UNDERFLOW, 3 NAN_SEEN, computed once for every fp32 and bf16
operation. -/
namespace Sys2Proof.Machine

/-- A result and the flags that its computation raises. -/
structure Fp where
  val : Nat
  flags : Nat
deriving DecidableEq, Repr

/-- Are two exact numbers equal? -/
def dyEq (x y : Int × Int) : Bool := decide ((dyAdd x (-y.1, y.2)).1 = 0)

/-- A signaling NaN: bit 22 is 0. -/
def f32IsSnan (x : Nat) : Bool := f32IsNan x && !x.testBit 22

/-- The one NaN in place of any (R201). -/
def oneNan (r : Nat) : Nat := if f32IsNan r then nan32 else r

-- Log entry 62 (DEDUCED).
/-- The flags that NaN operands raise by themselves: NAN_SEEN, and INVALID for a signaling one. -/
def nanFlags (ins : List Nat) : Nat := (if ins.any f32IsSnan then 1 else 0) + (if ins.any f32IsNan then 8 else 0)

-- Log entry 62 (DEDUCED).
/-- The flags of an fp32 result: INVALID for a NaN that no input was and for a signaling input, OVERFLOW for an infinity from finite inputs that is no quotient
by zero, UNDERFLOW for an inexact result below the normal range, NAN_SEEN for a NaN input. -/
def fpFlags (ins : List Nat) (r : Nat) (byZero tiny : Bool) : Nat :=
  let nan := ins.any f32IsNan
  let inf := f32IsInf r && ins.all f32Finite && !byZero
  packBits [(0, 1, if (f32IsNan r && !nan) || ins.any f32IsSnan then 1 else 0), (1, 1, if inf then 1 else 0), (2, 1, if tiny then 1 else 0),
    (3, 1, if nan then 1 else 0)]

/-- Is a result below the normal range and not the exact value? -/
def isTiny (exact : Int × Int) (ins : List Nat) (r : Nat) : Bool :=
  ins.all f32Finite && decide (f32Exp r = 0) && !dyEq exact (f32Val r)

def fpAdd (x y : Nat) : Fp :=
  let r := f32Add x y
  ⟨r, fpFlags [x, y] r false (isTiny (dyAdd (f32Val x) (f32Val y)) [x, y] r)⟩

def fpSub (x y : Nat) : Fp :=
  let r := f32Sub x y
  ⟨r, fpFlags [x, y] r false (isTiny (dyAdd (f32Val x) (f32Val (f32Flip y))) [x, y] r)⟩

def fpMul (x y : Nat) : Fp :=
  let r := f32Mul x y
  ⟨r, fpFlags [x, y] r false (isTiny (dyMul (f32Val x) (f32Val y)) [x, y] r)⟩

def fpFma (x y z : Nat) : Fp :=
  let r := f32Fma x y z
  ⟨r, fpFlags [x, y, z] r false (isTiny (dyAdd (dyMul (f32Val x) (f32Val y)) (f32Val z)) [x, y, z] r)⟩

def fpDiv (x y : Nat) : Fp :=
  let r := f32Div x y
  let zero := f32IsZero y
  let tiny := !zero && [x, y].all f32Finite && decide (f32Exp r = 0) && !dyEq (dyMul (f32Val r) (f32Val y)) (f32Val x)
  ⟨r, fpFlags [x, y] r zero tiny⟩

def fpSqrt (x : Nat) : Fp := let r := f32Sqrt x; ⟨r, fpFlags [x] r false false⟩

/-- The larger or smaller of two numbers; a NaN gives a free value, and of zeros of different signs either may be given. -/
def fpMaxMin (big : Bool) (x y : Nat) : Fp :=
  let r := if f32IsNan x || f32IsNan y then oneNan (Config.maxMin big x y).toNat
    else if f32IsZero x && f32IsZero y && x != y then (if (Config.maxMin big x y).getLsbD 0 then x else y)
    else if f32Lt x y == big then y else x
  ⟨r, fpFlags [x, y] r false false⟩

/-- A function of one operand whose value the spec leaves open, but for a NaN; `pole` where an infinite value of it is no overflow. -/
def fpOpen (f : Nat → BitVec 32) (pole : Bool) (x : Nat) : Fp :=
  let r := if f32IsNan x then nan32 else oneNan (f x).toNat
  ⟨r, fpFlags [x] r pole (!pole && decide (f32Exp r = 0) && f32Finite x)⟩

/-- exp of at most 1 ulp error (R205). -/
def fpExp (x : Nat) : Fp := let r := f32ExpUlp x; ⟨r, fpFlags [x] r false (decide (f32Exp r = 0) && f32Finite x)⟩

/-- A number of a finite fp32 pattern truncated toward zero and saturated to `w` bits, a NaN to 0 (R201). -/
def fpToInt (w : Nat) (x : Nat) : Fp :=
  let top : Int := 2 ^ (w - 1)
  let v : Int := if f32IsNan x then 0 else if f32IsInf x then (if f32Neg x then -top else top - 1) else truncDy (f32Val x)
  let sat := max (-top) (min v (top - 1))
  let bad := f32IsNan x || f32IsInf x || decide (sat ≠ v)
  ⟨toTwos w sat, packBits [(0, 1, if bad then 1 else 0), (3, 1, if f32IsNan x then 1 else 0)]⟩

/-- A compare: its outcome and flags. -/
def fpCmp (f : Nat → Nat → Bool) (x y : Nat) : Bool × Nat := (f x y, nanFlags [x, y])

/-! ### bf16: operands widened, the result rounded once -/

-- Log entry 66 (DEDUCED).
def bfNan (x : Nat) : Bool := f32IsNan (bfWide x)

/-- The bf16 rounding of an fp32 result that bf16 operands gave. -/
def bfFrom (p : Fp) : Fp := ⟨bfRound p.val, p.flags⟩

/-- A result of bf16 operands rounded once, and its flags. -/
def bfResult (ins : List Nat) (exact : Int × Int) (r : Nat) : Fp :=
  let v := bfRound r
  ⟨v, fpFlags ins (bfWide v) false (isTiny exact ins (bfWide v))⟩

/-- bf16 multiply-add, rounded once (R205). -/
def bfFma (x y z : Nat) : Fp :=
  let a := bfWide x; let b := bfWide y; let c := bfWide z
  let r := f32Fma a b c
  if f32Finite a && f32Finite b && f32Finite c then
    let s := dyAdd (dyMul (f32Val a) (f32Val b)) (f32Val c)
    let v := if s.1 = 0 then bfRound r else bfOfDy (decide (s.1 < 0)) s.1.natAbs s.2
    ⟨v, fpFlags [a, b, c] (bfWide v) false (decide (f32Exp (bfWide v) = 0) && !dyEq s (f32Val (bfWide v)))⟩
  else ⟨bfRound r, fpFlags [a, b, c] r false false⟩

end Sys2Proof.Machine
end

