-- ==== Sys2Proof/Machine/Operands.lean ====
section
/-! DEFINITION. Instruction words of the thread cores (R206 to R208): their fields by format, which words are listed and legal, and
which registers a word reads and writes. -/
namespace Sys2Proof.Machine

/-! ### Fields (R206) -/

def wMajor (w : Nat) : Nat := bitsOf w 0 6
def wRd (w : Nat) : Nat := bitsOf w 6 5
def wRs1 (w : Nat) : Nat := bitsOf w 11 5
def wRs2 (w : Nat) : Nat := bitsOf w 16 5
def wFunc (w : Nat) : Nat := bitsOf w 21 7
def wSfunc (w : Nat) : Nat := bitsOf w 21 11
def wImm (w : Nat) : Nat := bitsOf w 16 16
def wImmS (w : Nat) : Int := ofTwos 16 (bitsOf w 16 16)
def wOff12 (w : Nat) : Int := ofTwos 12 (bitsOf w 20 12)
def wUns (w : Nat) : Bool := bitAt w 18
def wWidth (w : Nat) : Nat := bitsOf w 16 2
def wOff22 (w : Nat) : Int := ofTwos 22 (bitsOf w 10 22)
def wNeg (w : Nat) : Bool := bitAt w 9
def wPred (w : Nat) : Nat := bitsOf w 6 3
def wVfunc (w : Nat) : Nat := bitsOf w 26 6
def wVty (w : Nat) : Nat := bitsOf w 30 2
def wVop (w : Nat) : Nat := bitsOf w 26 4
def wPg (w : Nat) : Nat := bitsOf w 23 3
def wVrs (w : Nat) : Nat := bitsOf w 18 5
def wVs2 (w : Nat) : Nat := bitsOf w 14 4
def wVs1 (w : Nat) : Nat := bitsOf w 10 4
def wVd (w : Nat) : Nat := bitsOf w 6 4

/-! ### Listed and legal words (R207, R208) -/

/-- The major opcodes. -/
def majors : List Nat :=
  [0x01, 0x02, 0x03, 0x04, 0x05, 0x06, 0x07, 0x08, 0x09, 0x0A, 0x10, 0x11, 0x12, 0x13, 0x14, 0x15, 0x18, 0x19, 0x1C, 0x1D, 0x1E,
   0x20, 0x21, 0x22, 0x23, 0x24, 0x25, 0x30, 0x38]

/-- The SYS functions. -/
def sfuncs : List Nat := [0x001, 0x002, 0x010, 0x020, 0x021, 0x022, 0x023, 0x024, 0x030, 0x031, 0x040, 0x041, 0x042, 0x07F]

/-- Is the word of a listed major, and of a listed function under SYS? -/
def listed (w : Nat) : Bool := majors.contains (wMajor w) && (decide (wMajor w ≠ 0x38) || sfuncs.contains (wSfunc w))

/-- The reserved bits of REG. -/
def regOk (w : Nat) : Bool := decide (bitsOf w 28 4 = 0)

/-- A VOP or VOPS function (R208). -/
def vopOk (ty op : Nat) : Bool :=
  match ty with
  | 2 => decide (op ≤ 10) && decide (op ≠ 6) && decide (op ≠ 7)
  | 3 => decide (op ≤ 3)
  | _ => decide (op ≤ 10)

/-- PCHK's register fields (R223). -/
def pchkOk (w : Nat) : Bool :=
  match wRs2 w with
  | 0 => true
  | 1 => decide (wRs1 w < 16)
  | 2 => decide (wRs1 w < 8)
  | _ => false

/-- Does a listed word keep the reserved bits, functions and register fields of its row? -/
def legal (w : Nat) : Bool :=
  match wMajor w with
  | 0x01 => regOk w && decide (wFunc w ≤ 0x12)
  | 0x06 => decide (bitsOf w 22 2 < 3) && decide (bitsOf w 24 8 = 0)
  | 0x07 => decide (wRs1 w < 4)
  | 0x08 => regOk w && (decide (wFunc w ≤ 5) || [8, 9, 10].contains (wFunc w)) && decide (wRd w < 8)
  | 0x09 => regOk w && decide (wFunc w ≤ 0x0D)
  | 0x0A => regOk w && decide (wFunc w ≤ 6)
  | 0x10 | 0x11 => !bitAt w 19
  | 0x12 | 0x13 => !bitAt w 19 && decide (wRd w < 16) && (wWidth w == 1 || wWidth w == 2)
  | 0x14 | 0x15 => regOk w && decide (wRd w < 16) && (wFunc w == 1 || wFunc w == 2)
  | 0x18 => regOk w && decide (bitsOf (wFunc w) 0 4 ≤ 4) && decide (bitsOf (wFunc w) 4 3 ≤ 4)
  | 0x19 => regOk w && decide (wFunc w ≤ 2) && decide (wRd w = 0)
  | 0x1E => regOk w
  | 0x20 | 0x21 => vopOk (wVty w) (wVop w)
  | 0x22 => decide (wVty w ≤ 2) && [0, 4, 5].contains (wVop w) && decide (wVd w = 0) && decide (wVs2 w = 0) && decide (wPg w = 0)
  | 0x23 => decide (wVty w ≤ 2) && decide (wVop w ≤ 2)
  | 0x24 => decide (wVfunc w = 0) && decide (wVrs w % 2 = 0) && decide (wVrs w ≠ 0)
  | 0x25 => decide (wVfunc w ≤ 2)
  | 0x30 => regOk w && (wFunc w == 1 || wFunc w == 2)
  | 0x38 => decide (wSfunc w ≠ 0x042) || pchkOk w
  | _ => true

/-- The element width that a vector type needs: EW 0 for bf16, 1 for the others. -/
def ewFor (ty : Nat) : Nat := if ty = 1 then 0 else 1

/-- Does a vector word fit VL and EW (R203, R207, R210)? -/
def shapeFits (w vl ew : Nat) : Bool :=
  match wMajor w with
  | 0x12 | 0x13 => decide (wWidth w = ew + 1)
  | 0x14 | 0x15 => decide (wFunc w = ew + 1)
  | 0x20 | 0x21 | 0x22 | 0x23 => decide (ew = ewFor (wVty w))
  | 0x24 => decide (ew = 1) && decide (1 ≤ vl) && decide (vl ≤ 32)
  | 0x25 => decide (ew = ewFor (wVfunc w))
  | _ => true

/-! ### Registers read and written -/

/-- The registers that a word reads and writes. -/
structure Use where
  gr : List Nat
  gw : List Nat
  pr : List Nat
  pw : List Nat
  vr : List Nat
  vw : List Nat
deriving DecidableEq, Repr

def Use.none : Use := ⟨[], [], [], [], [], []⟩

/-- Does a vector operation take only v[VS1] (EXP, RSQRT, MOV, NEG, ABS, conversions)? -/
def vUnary (ty op : Nat) : Bool := decide (ty = 3) || decide (6 ≤ op)

/-- Is it the fused multiply-add? -/
def vFma (ty op : Nat) : Bool := decide (ty ≠ 3) && decide (op = 3)

/-- The registers of a SYS word. -/
def sysUses (w : Nat) : Use :=
  match wSfunc w with
  | 0x001 | 0x020 | 0x021 => { Use.none with gr := [wRs1 w, wRs2 w], gw := [wRd w] }
  | 0x022 | 0x023 | 0x024 => { Use.none with gr := [wRs1 w], gw := [wRd w] }
  | 0x030 => { Use.none with gw := [wRd w] }
  | 0x031 => { Use.none with gr := [wRs2 w] }
  | 0x042 => { Use.none with gr := if wRs2 w = 0 then [wRs1 w] else [], vr := if wRs2 w = 1 then [wRs1 w] else [], pw := [wRd w % 8] }
  | 0x07F => { Use.none with gr := List.range 32 }
  | _ => Use.none

/-- The registers of a word; a guarded vector destination keeps elements and so is read too. -/
def uses (w : Nat) : Use :=
  let keep := if vFma (wVty w) (wVop w) || decide (wPg w ≠ 0) then [wVd w] else []
  match wMajor w with
  | 0x01 => { Use.none with gr := [wRs1 w, wRs2 w], gw := [wRd w] }
  | 0x02 | 0x03 | 0x04 | 0x05 | 0x06 => { Use.none with gr := [wRs1 w], gw := [wRd w] }
  | 0x07 => { Use.none with gr := [wRd w], gw := [wRd w] }
  | 0x08 => { Use.none with gr := [wRs1 w, wRs2 w], pw := [wRd w % 8] }
  | 0x09 =>
    if wFunc w = 7 then { Use.none with gr := [wRs1 w, wRs2 w, wRd w], gw := [wRd w] }
    else if [0, 1, 2, 3, 5, 6].contains (wFunc w) then { Use.none with gr := [wRs1 w, wRs2 w], gw := [wRd w] }
    else { Use.none with gr := [wRs1 w], gw := [wRd w] }
  | 0x0A =>
    if wFunc w ≤ 3 then { Use.none with pr := [wRs1 w % 8, wRs2 w % 8], pw := [wRd w % 8] }
    else if wFunc w = 4 then { Use.none with pr := [wRs1 w % 8], pw := [wRd w % 8] }
    else if wFunc w = 5 then { Use.none with gr := [wRs1 w], pw := [wRd w % 8] }
    else { Use.none with pr := [wRs1 w % 8], gw := [wRd w] }
  | 0x20 =>
    { Use.none with vr := wVs1 w :: (if vUnary (wVty w) (wVop w) then [] else [wVs2 w]) ++ keep, pr := [wPg w], vw := [wVd w] }
  | 0x21 =>
    { Use.none with vr := wVs1 w :: keep, gr := if vUnary (wVty w) (wVop w) then [] else [wVrs w], pr := [wPg w], vw := [wVd w] }
  | 0x22 => { Use.none with vr := [wVs1 w], gw := [wVrs w] }
  | 0x23 => { Use.none with vr := [wVs1 w, wVs2 w], pr := if wPg w = 0 then [0] else [wPg w, wVd w % 8], pw := [wVd w % 8] }
  | 0x24 => { Use.none with vr := [wVs1 w], gr := [wVrs w], pr := [wPg w], vw := [wVd w], gw := [wVrs w, wVrs w + 1] }
  | 0x10 | 0x1E | 0x30 => { Use.none with gr := [wRs1 w], gw := [wRd w] }
  | 0x11 => { Use.none with gr := [wRs1 w, wRd w] }
  | 0x12 => { Use.none with gr := [wRs1 w], vw := [wRd w] }
  | 0x13 => { Use.none with gr := [wRs1 w], vr := [wRd w] }
  | 0x14 => { Use.none with gr := [wRs1 w, wRs2 w], vw := [wRd w] }
  | 0x15 => { Use.none with gr := [wRs1 w, wRs2 w], vr := [wRd w] }
  | 0x18 => { Use.none with gr := [wRs1 w, wRs2 w] ++ (if bitsOf (wFunc w) 0 4 = 0 then [wRd w] else []), gw := [wRd w] }
  | 0x19 => { Use.none with gr := [wRs1 w, wRs2 w] }
  | 0x1C => { Use.none with pr := [wPred w] }
  | 0x1D => { Use.none with gw := [31] }
  | 0x25 => { Use.none with vr := [wVs1 w], gr := [wVrs w] }
  | 0x38 => sysUses w
  | _ => Use.none

end Sys2Proof.Machine
end

