-- ==== Sys2Proof/Machine/Threads.lean ====
section
/-! DEFINITION. Chapter 08: threads and their registers (R194, R195), JOBs from descriptor to completion (R196 to R199), faults and
the watchdog (R225, R226), poison in a thread (R221, R222), operations in flight and fences (R214), and the step that fetches and
runs a thread's next instruction word. -/
namespace Sys2Proof.Machine

/-! ### Threads and registers (R194) -/

/-- A thread's key: field, core, thread. -/
def threadKey (f core thr : Nat) : Nat := (f * 288 + core) * 4 + thr
def keyField (t : Nat) : Nat := t / 4 / 288
def keyCore (t : Nat) : Nat := t / 4 % 288
def keyThr (t : Nat) : Nat := t % 4

def Block.thread (b : Block) (t : Nat) : ThreadSt := sget (fun _ => ThreadSt.init) b.tc.threads t

def Block.setThread (b : Block) (t : Nat) (x : ThreadSt) : Block :=
  { b with tc := { b.tc with threads := sset (fun _ => ThreadSt.init) b.tc.threads t x } }

def coreKey (f core : Nat) : Nat := f * 288 + core

def Block.core (b : Block) (f core : Nat) : CoreSt := sget (fun _ => CoreSt.init) b.tc.cores (coreKey f core)

def Block.setCore (b : Block) (f core : Nat) (x : CoreSt) : Block :=
  { b with tc := { b.tc with cores := sset (fun _ => CoreSt.init) b.tc.cores (coreKey f core) x } }

/-- g0 reads 0. -/
def ThreadSt.rg (th : ThreadSt) (r : Nat) : W64 := if r = 0 then 0 else sget (fun _ => 0) th.g r

/-- Writes to g0 are ignored. -/
def ThreadSt.wg (th : ThreadSt) (r : Nat) (v : W64) : ThreadSt := if r = 0 then th else { th with g := sset (fun _ => 0) th.g r v }

/-- p0 reads all ones. -/
def ThreadSt.rp (th : ThreadSt) (r : Nat) : W64 := if r = 0 then BitVec.allOnes 64 else sget (fun _ => 0) th.p r

/-- Writes to p0 are ignored. -/
def ThreadSt.wp (th : ThreadSt) (r : Nat) (v : W64) : ThreadSt := if r = 0 then th else { th with p := sset (fun _ => 0) th.p r v }

def ThreadSt.rv (th : ThreadSt) (r : Nat) : BitVec 1024 := sget (fun _ => 0) th.v r

def ThreadSt.wv (th : ThreadSt) (r : Nat) (v : BitVec 1024) : ThreadSt := { th with v := sset (fun _ => 0) th.v r v }

/-- A register's value as a number. -/
def ThreadSt.gn (th : ThreadSt) (r : Nat) : Nat := (th.rg r).toNat

/-- Is a general register poisoned? -/
def ThreadSt.gBad (th : ThreadSt) (r : Nat) : Bool := decide (r ≠ 0) && bitAt th.gp r
def ThreadSt.pBad (th : ThreadSt) (r : Nat) : Bool := decide (r ≠ 0) && bitAt th.pp r
def ThreadSt.vBad (th : ThreadSt) (r : Nat) : Bool := bitAt th.vp r

/-- Set or clear bits of a mask. -/
def setBits (m : Nat) (rs : List Nat) (on : Bool) : Nat := rs.foldl (fun m r => setBit m r on) m

/-- Poison reaches every register that a word writes when it read a poisoned one, and leaves them otherwise (R221). -/
def ThreadSt.mark (th0 th : ThreadSt) (u : Use) : ThreadSt :=
  let bad := u.gr.any th0.gBad || u.pr.any th0.pBad || u.vr.any th0.vBad
  { th with
    gp := setBits th.gp (u.gw.filter (· ≠ 0)) bad
    pp := setBits th.pp (u.pw.filter (· ≠ 0)) bad
    vp := setBits th.vp u.vw bad }

/-- Is VL wide (R202)? -/
def isWide (vl ew : Nat) : Bool := if ew = 1 then decide (16 < vl) else decide (32 < vl)

/-! ### JOBs -/

def Block.job? (b : Block) (id : Nat) : Option Job := b.tc.jobs.find? fun j => j.id == id

def Block.setJob (b : Block) (id : Nat) (h : Job → Job) : Block :=
  { b with tc := { b.tc with jobs := b.tc.jobs.map fun j => if j.id = id then h j else j } }

/-- The JOB of a descriptor. -/
def Block.jobOf (b : Block) (camp seq : Nat) : Option Job := b.tc.jobs.find? fun j => !j.kernel && j.camp == camp && j.seq == seq

def Job.fieldList (j : Job) : List Nat := (List.range 96).filter (bitAt j.fields)
def Job.coreList (j : Job) : List Nat := (List.range 288).filter (bitAt j.cores)

/-- The JOB's threads, field by field and core by core (R198). -/
def Job.threadKeys (j : Job) : List Nat :=
  j.fieldList.flatMap fun f => j.coreList.flatMap fun c => (List.range j.threads).map (threadKey f c)

/-- Does a JOB name a core? -/
def Job.names (j : Job) (f core : Nat) : Bool := bitAt j.fields f && bitAt j.cores core

/-! ### Faults (R225) -/

-- Log entry 220 (DEDUCED).
/-- A consumer of poison in a field ends (R154): counted and raised in the field of the word that the poison came from, or, where the word is
not known (0), in the consumer's. -/
def Block.consumedIn (b : Block) (f camp w : Nat) : Block :=
  let g := if w = 0 then f else physField w
  ((b.bump (F.poisonConsumed g)).bump F.poisonConsumedTotal).raise 0x0102 g camp
    (if w = 0 then integPayload 3 0 7 0 0 0 else integPayload (memOf w) 0 7 (unitOf w) 0 w)

/-- The payload of JOB_FAULT and REGFILE_PARITY (R229). -/
def jobPayload (code t pc addr : Nat) : Nat := packBits [(0, 4, code), (8, 2, keyThr t), (16, 9, keyCore t), (32, 18, pc), (64, 64, addr)]

/-- Put the first fault into the log, while it is empty (R230). -/
def Block.logFault (b : Block) (code t pc addr camp seq : Nat) : Block :=
  if b.fget F.faultInfoCode ≠ 0 then b
  else
    (((((((b.fset F.faultInfoCode code).fset F.faultInfoThread (keyThr t)).fset F.faultInfoCore (keyCore t)).fset F.faultInfoCamp camp).fset
      F.faultInfoField (keyField t)).fset F.faultPc pc).fset F.faultAddrLo (addr % 2 ^ 32)).fset F.faultAddrHi (addr / 2 ^ 32)
      |>.fset F.faultSeq seq

-- Log entry 210 (DEDUCED).
/-- Is a granule's object one with a SUBSTITUTE, which only resident kernels read (R104, R245)? -/
def Block.reserved (b : Block) (f g : Nat) : Bool := decide ((b.obj f (b.dirEntry f g).object).substitute ≠ 0)

-- Log entries 35 (DEDUCED), 210 (DEDUCED).
/-- The KIND of a refused address (R490): 1 a granule of another camp, 2 a write to a read-only one, 3 a physical window, 4 device
space, 6 an object that is reserved. -/
def Block.deniedKind (b : Block) (camp a : Nat) : Nat :=
  match place a with
  | .device _ => 4
  | .unified f g _ => if (b.dirEntry f g).camp ≠ camp then 1 else if b.reserved f g then 6 else 2
  | _ => 3

/-- The slots that a resident kernel works for whose sequences have not ended. -/
def Block.liveRows (b : Block) (j : Job) : List Nat :=
  j.rows.filter fun n => b.serve.slots.any fun s => s.slot == n && s.camp == j.camp && (s.state == 1 || s.state == 2) && s.ended == 0

/-- The rows that a resident kernel works for end: firmware completes their requests with a status (R154, R247). -/
def Block.endRows (b : Block) (j : Job) (status body : Nat) : Block :=
  (b.liveRows j).foldl (fun b n => b.setSlot n fun s => { s with ended := status + 1, endBody := body }) b

-- Log entry 116 (DESIGN CHOICE).
/-- A resident kernel faults: it stops, and its rows end DATA_LOST where poison or a parity error stopped it, else INTERNAL. -/
def Block.kernelFault (b : Block) (j : Job) (code : Nat) : Block :=
  if code = 5 ∨ code = 6 then b.endRows j 0x30 0 else b.tick.endRows j 0x34 (Config.internalReason b.free).toNat

/-- A thread faults: the first fault stops its JOB, is logged and raised; a later one is counted only. A JOB or kernel that ends by
poison is a consumer (R154, R222). -/
def Block.faultBy (b : Block) (unit kind t code pc addr : Nat) : Block :=
  let f := keyField t
  let b1 := b.bump (F.threadFaults f)
  match b1.job? (b1.thread t).job with
  | none => b1
  | some j =>
    if j.fault.isSome ∨ j.ended ≠ 0 then b1
    else
      let b2 := b1.setJob j.id fun j => { j with phase := 3, fault := some (code, keyThr t, keyCore t, f, pc, addr) }
      let b3 := if j.kernel then b2.kernelFault j code
        else ((b2.bump F.jobsFaulted).logFault code t pc addr j.camp j.seq).raise 0x0920 f j.camp (jobPayload code t pc addr)
      if code = 5 then (if j.kernel then b1.liveRows j else [0]).foldl (fun b _ => b.consumedIn f j.camp (b1.thread t).badAt) b3
      else if code = 4 then b3.protDenied j.camp unit kind j.seq addr
      else b3

/-- A thread's own access or word faults. -/
def Block.faultAt (b : Block) (t code pc addr : Nat) : Block :=
  b.faultBy (keyCore t) (b.deniedKind (((b.job? (b.thread t).job).map (·.camp)).getD 0) addr) t code pc addr

/-- The thread's present instruction faults. -/
def Block.fault (b : Block) (t code addr : Nat) : Block := b.faultAt t code (b.thread t).pc addr

/-- The completion status of a fault code. -/
def faultStatus (code : Nat) : Nat :=
  match code with
  | 4 => 0x25
  | 5 | 6 => 0x30
  | 7 => 0x34
  | _ => 0x21

/-- The body of a JOB ended by a fault (R418). -/
def faultBody (x : Nat × Nat × Nat × Nat × Nat × Nat) : Nat :=
  packBits [(0, 4, x.1), (8, 2, x.2.1), (16, 9, x.2.2.1), (32, 8, x.2.2.2.1), (40, 18, x.2.2.2.2.1), (64, 64, x.2.2.2.2.2)]

/-! ### Launch (R196 to R198) -/

-- Log entry 63 (DEDUCED).
/-- The first byte of a JOB descriptor that is wrong, if any. -/
def Block.jobBad (b : Block) (d : Desc) : Option Nat :=
  let fields := d.field 16 12
  let cores := d.field 28 36
  let arrays := d.bits 90 0 12
  let threads := d.bits 88 0 3
  let stack := if d.bits 89 0 6 = 0 then 8 else d.bits 89 0 6
  let len := d.field 72 4
  let named (f : Nat) : Bool := bitAt fields f
  if fields = 0 then some 16
  else if cores % 2 ^ 288 = 0 then some 28
  else if (List.range 96).any fun f => named f && decide (cores &&& (b.fieldSt f).shown (b.fieldSt f).cores ≠ cores) then some 28
  else if (List.range 96).any fun f => named f && decide (arrays &&& (b.fieldSt f).shown (b.fieldSt f).arrays ≠ arrays) then some 90
  else if threads = 0 ∨ 4 < threads then some 88
  else if 32 < stack then some 89
  else if len % 4 ≠ 0 ∨ 196608 < len then some 72
  else if len ≤ d.field 76 4 then some 76
  else if 262144 < len + threads * stack * 1024 then some 72
  else none

-- Log entry 63 (DEDUCED).
/-- JOB: a consumed JOB descriptor is checked. -/
def jobEff (camp seq : Nat) (b : Block) : Block :=
  b.withDesc camp seq 0x06 fun d b =>
    match b.jobBad d with
    | some off => b.refuse d 0x21 off
    | none =>
      let j : Job := ⟨b.tc.nextJob, camp, seq, d.field 16 12, d.field 28 36, d.bits 88 0 3, d.bits 90 0 12, d.field 64 8, d.field 72 4, d.field 76 4,
        d.field 80 8, if d.bits 89 0 6 = 0 then 8 else d.bits 89 0 6, if d.field 92 2 = 0 then b.fget F.tcConfigJobLimitMs else d.field 92 2, 0, 0, none, 0, 0,
        false, [], []⟩
      ({ b with tc := { b.tc with jobs := b.tc.jobs ++ [j], nextJob := b.tc.nextJob + 1 } } : Block).start d

/-- Is a core free of JOBs and kernels, and of operations of one that a camp reset stopped (R197, R228)? -/
def Block.coreFree (b : Block) (f core : Nat) : Bool :=
  !(b.tc.jobs.any fun j => decide (j.phase ≠ 0) && j.names f core) &&
  !(b.tc.ops.any fun o => match o.thread with | some t => decide (t / 4 = coreKey f core) | none => false)

/-- JOBs of one CONTROL ring start in ring order: does an earlier one still wait, to be launched or (`all`) to be started? -/
def Block.earlierJob (b : Block) (j : Job) (all : Bool) : Bool :=
  match b.desc? j.camp j.seq with
  | none => false
  | some d => b.tc.jobs.any fun k => !k.kernel && (decide (k.phase = 0) || (all && decide (k.phase = 1))) && decide (k.id < j.id) && match b.desc? k.camp k.seq with
    | some e => decide (e.fn = d.fn) && decide (e.ring = d.ring)
    | none => false

/-- The ready cores of a pod, at most 72 (R75). -/
def Block.podCores (b : Block) (f p : Nat) : Nat := ((List.range 72).filter fun i => bitAt (b.fieldSt f).cores (72 * p + i)).length

/-- The pods that a JOB wakes: (field, pod). -/
def Job.wakes (j : Job) : List (Nat × Nat) := j.fieldList.flatMap fun f => j.pods.map fun p => (f, p)

/-- Zero-fill a core's local memory (R197). -/
def MemPart.clearLocal (m : MemPart) (p : Nat) : MemPart :=
  let out (k : Nat) : Bool := decide (k < p) || decide (p + 0x40000 ≤ k)
  { m with bytes := m.bytes.filter fun kv => out kv.1, poison := m.poison.filter fun kv => out kv.1,
           bad := m.bad.filter fun kv => out kv.1 }

/-- A core's local memory is zero-filled; a mask armed in it is applied (R165, R197). -/
def Block.clearCore (b : Block) (f core : Nat) : Block :=
  let p := localAddr f core 0
  let b1 : Block := { b with mem := b.mem.clearLocal p }
  if b1.fget F.flipCtrlArm = 1 ∧ p ≤ b1.flipAddr ∧ b1.flipAddr < p + 0x40000 then b1.flipApply b1.flipAddr else b1

/-- The JOBs that run on the wafer (R197). -/
def Block.jobsRunning (b : Block) : Nat := (b.tc.jobs.filter fun k => !k.kernel && decide (k.phase ≠ 0)).length

/-- Ask for the wake grants that a JOB's or a kernel's pods lack (R75, R209). -/
def Block.askWakes (b : Block) (j : Job) : Block :=
  j.wakes.foldl (fun b fp =>
    if b.holds fp.1 (wakeAsker fp.2) ∨ b.waits fp.1 (wakeAsker fp.2) then b
    else b.request fp.1 (wakeAsker fp.2) (b.workClass j) j.camp (b.podCores fp.1 fp.2) false) b

/-- Are all its pods awake? -/
def Block.awake (b : Block) (j : Job) : Bool := j.wakes.all fun fp => b.covers fp.1 (wakeAsker fp.2) (b.podCores fp.1 fp.2)

/-- Are all the cores that it names free? -/
def Block.coresFree (b : Block) (j : Job) : Bool := j.fieldList.all fun f => j.coreList.all (b.coreFree f)

/-- JOB_LAUNCH: once its cores and arrays are free, fewer than 256 JOBs run and no JOB of its ring comes before it, a JOB asks for the
wake grants that its pods lack; with all of them its cores' local memories are zero-filled. -/
def jobLaunchEff (camp seq : Nat) (b : Block) : Block :=
  match b.jobOf camp seq with
  | none => b
  | some j =>
    if j.phase ≠ 0 ∨ b.coresFree j = false ∨ b.arraysFree j = false ∨ b.earlierJob j false = true ∨ 256 ≤ b.jobsRunning then b
    else
      let b1 := b.askWakes j
      if b1.awake j then
        let b2 := j.fieldList.foldl (fun b f => j.coreList.foldl (fun b c => b.clearCore f c) b) b1
        (b2.takeArrays j).setJob j.id fun j => { j with phase := 1 }
      else b1

/-- Cut a run of bytes at granule borders: (address, bytes). -/
def granuleRuns (a len : Nat) : Nat → List (Nat × Nat)
  | 0 => []
  | n + 1 => if len = 0 then [] else let k := min len (0x8000 - a % 0x8000); (a, k) :: granuleRuns (a + k) (len - k) n

/-- Why a camp may not read a run of addresses: 0 it may, 3 unmapped, 4 denied (R89). -/
def Block.readDenied (b : Block) (camp a n : Nat) : Nat :=
  let at_ (x : Nat) : Nat := match place x with
    | .unified f g _ => if b.dirSize ≤ g then 3 else if (b.dirEntry f g).state = 0 then 3 else if (b.dirEntry f g).camp ≠ camp ∨ b.reserved f g = true then 4 else 0
    | .unmapped => 3
    | _ => 4
  (granuleRuns a n 8).foldl (fun m r => max m (at_ r.1)) 0

/-- The bytes of a run of a code image, `none` for one with poison. A granule that no frame holds is read from its unit of the cellar; the
run waits while its object is on its way, and a unit that cannot be read ends the JOB (R105, R106). -/
def Block.codeRun (b : Block) (camp seq a n : Nat) : Block × Option (List (Option Byte)) :=
  match place a with
  | .unified f g off =>
    let b1 := b.touch f g
    let e := b1.dirEntry f g
    let wait (b : Block) : Block := b.waitFor f camp g false seq
    if e.poison then (b1, some (List.replicate n none))
    else if b1.mustWait f g then (wait b1, none)
    else match b1.readFrame f g with
      | some p =>
        let b2 := b1.check (p + off) n
        (b2, some ((List.range n).map fun i => if b2.poisonIn (p + off + i) 1 then none else some (b2.readByte (p + off + i))))
      | none =>
        match b1.unitFor (if e.state = 5 ∨ e.state = 6 then e.locB else e.locA) f e.object camp seq with
        | (b2, none) => (wait b2, none)
        | (b2, some none) => ((wait b2).readFail f g, none)
        | (b2, some (some v)) => (b2.waitServed f camp g false seq, some ((List.range n).map fun i => some (BitVec.ofNat 8 (bitsOf v (8 * (off + i)) 8))))
  | _ => (b, none)

/-- A whole code image, run by run. -/
def Block.codeImage (b : Block) (j : Job) : Block × Option (List (Option Byte)) :=
  (granuleRuns j.code j.codeLen 8).foldl (fun x r =>
    match x.2 with
    | none => x
    | some bs => let y := x.1.codeRun j.camp j.seq r.1 r.2; (y.1, y.2.map (bs ++ ·))) (b, some [])

/-- Copy a code image into a core's local memory, word by word. -/
def Block.copyCode (b : Block) (dst : Nat) : List (Option Byte) → Block
  | x0 :: x1 :: x2 :: x3 :: r =>
    let w := [x0, x1, x2, x3]
    Block.copyCode (if w.any Option.isNone then b.poisonBytes dst 4 else b.putBytes dst 4 (w.map (·.getD 0))) (dst + 4) r
  | _ => b

/-- A thread's registers at start (R198). -/
def Job.initial (j : Job) (t index : Nat) : ThreadSt :=
  let core := keyCore t
  let g : List (Nat × Nat) := [(1, index), (2, j.threadKeys.length), (3, j.arg),
    (4, packBits [(0, 8, keyField t), (8, 2, core / 72), (10, 9, core), (20, 2, keyThr t), (32, 4, j.camp)]),
    (5, cdiv j.codeLen 128 * 128), (30, 0x40000 - keyThr t * j.stackKib * 1024)]
  { ThreadSt.init with live := true, job := j.id, pc := j.entry % 2 ^ 18
                       g := g.foldl (fun m kv => sset (fun _ => 0) m kv.1 (BitVec.ofNat 64 kv.2)) [] }

/-- Start a JOB's threads in order. -/
def Block.startThreads (b : Block) (j : Job) : Nat → List Nat → Block
  | _, [] => b
  | i, t :: ts => Block.startThreads (b.setThread t (j.initial t i)) j (i + 1) ts

/-- The field whose DIR_DENIED counts a refused address (R89): the one that the address names, else the requester's own. -/
def deniedField (own a : Nat) : Nat :=
  match place a with
  | .unified f _ _ => f
  | .local_ .. | .sram .. | .dram .. => physField a
  | _ => own

/-- JOB_START: the code image is copied to local offset 0 of every core, and each thread starts at ENTRY. The start waits for the earlier JOBs
of its ring, and while a granule of the image is on its way; an image that the camp may not read ends the JOB. -/
def jobStartEff (camp seq : Nat) (b : Block) : Block :=
  match b.jobOf camp seq, b.desc? camp seq with
  | some j, some d =>
    let why := b.readDenied camp j.code j.codeLen
    if j.phase ≠ 1 ∨ b.earlierJob j true = true then b
    else if why ≠ 0 then
      let a := (((granuleRuns j.code j.codeLen 8).find? fun r => b.readDenied camp r.1 r.2 == why).map (·.1)).getD j.code
      let b1 := b.bump (F.dirDenied (deniedField (j.fieldList.headD 0) a))
      let b2 := b1.setJob j.id fun j => { j with phase := 3, ended := (if why = 3 then 0x21 else 0x25) + 1, body := 64 }
      if why = 4 then b2.protDenied camp 0x211 (b.deniedKind camp a) seq a else b2
    else match b.codeImage j with
      | (b1, none) => b1
      | (b1, some image) =>
        let b2 := j.fieldList.foldl (fun b f => j.coreList.foldl (fun b c => b.copyCode (localAddr f c 0) image) b) b1
        let b3 := (b2.setJob j.id fun j => { j with phase := 2, start := b.fab.time }).startThreads j 0 j.threadKeys
        (b3.bump F.jobsStarted).count F.jobWaitUs ((b.fab.time - d.at_) / 1000)
  | _, _ => b

/-! ### The end (R199, R225) -/

/-- Has a JOB operations in flight? -/
def Block.jobBusy (b : Block) (j : Job) : Bool :=
  b.tc.ops.any fun o => match o.thread with | some t => decide ((b.thread t).job = j.id) && j.names (keyField t) (keyCore t) | none => false

/-- Has every thread of a JOB ended? -/
def Block.jobEnded (b : Block) (j : Job) : Bool := j.threadKeys.all fun t => !(b.thread t).live

/-- Does another JOB or kernel work in a pod? -/
def Block.podBusy (b : Block) (j : Job) (f p : Nat) : Bool :=
  b.tc.jobs.any fun k => decide (k.id ≠ j.id) && decide (k.phase ≠ 0) && bitAt k.fields f && k.pods.contains p

/-- A core between JOBs: only the thread that issued last is left of what it holds. -/
def CoreSt.rest (x : CoreSt) : CoreSt := { CoreSt.init with last := x.last }

/-- A JOB's requests are withdrawn and its grants released (R74, R199). -/
def Block.jobRations (b : Block) (j : Job) : Block :=
  let b1 := j.fieldList.foldl (fun b f => j.coreList.foldl (fun b c =>
    let b' := (List.range 4).foldl (fun b i => (b.withdraw f (threadAsker c i)).release f (threadAsker c i)) b
    ((b'.withdrawAuto f (wideAsker c)).releaseAuto f (wideAsker c)).setCore f c (b.core f c).rest) b) b
  j.wakes.foldl (fun b fp => if b.podBusy j fp.1 fp.2 then b else (b.withdrawAuto fp.1 (wakeAsker fp.2)).releaseAuto fp.1 (wakeAsker fp.2)) b1

/-- A JOB is forgotten by a camp reset: its threads' slots are empty and its cores as at start; its grants go when the camp's engines have
drained (R83). -/
def Block.forgetJob (b : Block) (j : Job) : Block :=
  let b1 := j.fieldList.foldl (fun b f => j.coreList.foldl (fun b c => b.setCore f c (b.core f c).rest) b) b
  let b2 := j.threadKeys.foldl (fun b t => b.setThread t ThreadSt.init) b1
  { b2 with tc := { b2.tc with jobs := b2.tc.jobs.filter fun k => k.id != j.id } }

/-- A JOB leaves: its threads' slots are empty again. -/
def Block.dropJob (b : Block) (j : Job) : Block :=
  let b1 := j.threadKeys.foldl (fun b t => b.setThread t ThreadSt.init) ((b.jobRations j).leaveArrays j)
  { b1 with tc := { b1.tc with jobs := b1.tc.jobs.filter fun k => k.id != j.id } }

-- Log entry 112 (DEDUCED).
/-- JOB_COMPLETE: every thread has ended, or the JOB has been stopped, every operation is acknowledged, and every array the JOB holds is
IDLE: array programs started before a fault take effect (R241). -/
def jobCompleteEff (camp seq : Nat) (b : Block) : Block :=
  match b.jobOf camp seq with
  | none => b
  | some j =>
    if b.jobBusy j = true ∨ b.arraysIdle j = false ∨ ¬ (j.phase = 3 ∨ (j.phase = 2 ∧ b.jobEnded j = true)) then b
    else
      let b1 := b.dropJob j
      match j.fault with
      | some x => if j.ended = 0 then b1.completeSeq camp seq (faultStatus x.1) (faultBody x) else b1.completeSeq camp seq (j.ended - 1) j.body
      | none => if j.ended = 0 then b1.completeSeq camp seq 0 0 else b1.completeSeq camp seq (j.ended - 1) j.body

/-- WATCHDOG: a JOB that has run longer than its watchdog faults; its queued requests are removed (R226). -/
def watchdogEff (camp seq : Nat) (b : Block) : Block :=
  match b.jobOf camp seq with
  | none => b
  | some j =>
    let t := (j.threadKeys.find? fun t => (b.thread t).live).getD (j.threadKeys.headD 0)
    if j.phase = 2 ∧ j.limitMs ≠ 0 ∧ j.start + j.limitMs * 1000000 < b.fab.time then
      let b1 := (b.bump F.watchdogFired).fault t 7 0
      j.threadKeys.foldl (fun b t => (b.withdraw (keyField t) (threadAsker (keyCore t) (keyThr t))).withdrawAuto (keyField t) (wideAsker (keyCore t))) b1
    else b

/-- REGFILE_PARITY: a parity error in a live thread's registers (R224). -/
def regfileParityEff (t : Nat) (b : Block) : Block :=
  let f := keyField t
  let th := b.thread t
  if th.live then
    match b.job? th.job with
    | some j => (((b.bump (F.parityErrors f)).raise 0x0170 f j.camp (jobPayload 6 t th.pc 0))).fault t 6 0
    | none => b
  else b

/-! ### Resident kernels (R200, R295) -/

/-- A resident kernel as work of its camp at one field. -/
def kernelOf (id c f : Nat) (k : KernelWork) : Job :=
  ⟨id, c, 0, 2 ^ f, k.cores, k.threads, 0, 0, 4 * k.words.length, k.entry, k.arg, k.stackKib, 0, 0, 0, none, 0, 0, true, k.words, k.rows⟩

/-- Firmware loads the kernels of a step at a field; they start once their cores are free and their pods are awake. -/
def Block.addKernels (b : Block) (c f : Nat) : List KernelWork → Block
  | [] => b
  | k :: r => Block.addKernels { b with tc := { b.tc with jobs := b.tc.jobs ++ [kernelOf b.tc.nextJob c f k], nextJob := b.tc.nextJob + 1 } } c f r

/-- Is a kernel over: every thread has ended or a fault has stopped it, its operations are acknowledged and its array programs finished? -/
def Block.kernelOver (b : Block) (j : Job) : Bool :=
  (decide (j.phase = 3) || (decide (j.phase = 2) && b.jobEnded j)) && !b.jobBusy j && j.threadKeys.all fun t => (b.thread t).progs.isEmpty

-- Log entry 116 (DESIGN CHOICE).
/-- Start a kernel that waits: its program stands at local offset 0 of its cores, and its threads start as a JOB's do. -/
def Block.startKernel (b : Block) (j : Job) : Block :=
  if j.phase ≠ 0 ∨ b.coresFree j = false then b
  else
    let b1 := b.askWakes j
    if b1.awake j then
      let image := j.words.flatMap fun w => (List.range 4).map fun i => some (BitVec.ofNat 8 (bitsOf w (8 * i) 8))
      let b2 := j.fieldList.foldl (fun b f => j.coreList.foldl (fun b c => b.copyCode (localAddr f c 0) image) b) b1
      (b2.setJob j.id fun j => { j with phase := 2, start := b.fab.time }).startThreads j 0 j.threadKeys
    else b1

/-- Firmware lets go of the kernels that are over, and starts those that can start. -/
def Block.runKernels (b : Block) : Block :=
  let b1 := ((b.tc.jobs.filter (·.kernel)).filter b.kernelOver).foldl Block.dropJob b
  (b1.tc.jobs.filter (·.kernel)).foldl Block.startKernel b1

-- Log entry 116 (DESIGN CHOICE).
/-- Have a camp's kernels ended their step's work at a field, and the arrays held for them their programs (R52, R200)? -/
def Block.kernelsDone (b : Block) (c f : Nat) : Bool :=
  !(b.tc.jobs.any fun j => j.kernel && j.camp == c && bitAt j.fields f) &&
  (List.range 12).all fun n => !(decide (b.arrHolder f n = 2) && decide (b.arrCamp f n = c)) || b.arrIdle f n

-- Log entry 180 (DEDUCED).
/-- STEP_DONE: a field finishes its step, once its kernels have (R52, R200). -/
def stepDoneEff (c f : Nat) (unitsDone : Bool) (b : Block) : Block :=
  let b1 := b.runKernels
  b1.finishStep c f (unitsDone && b1.kernelsDone c f)

/-! ### Operations in flight (R214, R216) -/

/-- The kind bit of an operation in a FENCE mask: loads, stores and atomics, adds (R214). -/
def MemKind.fenceBit : MemKind → Nat
  | .read => 0
  | .write _ => 1
  | .atomic .. => 1
  | .add .. => 2

/-- Is a fence of a thread satisfied? -/
def Block.fenceDone (b : Block) (t mask : Nat) : Bool :=
  !(b.tc.ops.any fun o => o.thread == some t && bitAt mask o.kind.fenceBit) && (!bitAt mask 3 || (b.thread t).progs.isEmpty)

/-- A thread whose fence is satisfied goes on. -/
def Block.wakeFence (b : Block) (t : Nat) : Block :=
  match (b.thread t).wait with
  | .fence mask => if b.fenceDone t mask then b.setThread t { b.thread t with wait := .none } else b
  | _ => b

/-- A thread issues an operation; a channel's queue may grow deep (R123). -/
def Block.issue (b : Block) (t : Nat) (kind : MemKind) (addrs : List Nat) (width : Nat) (poison : Bool) (dst : LoadDst) : Block :=
  let camp := ((b.job? (b.thread t).job).map (·.camp)).getD 0
  let o : MemOp := ⟨b.tc.nextOp, some t, camp, sget (fun _ => 0) b.fab.epochs camp, kind, addrs, width, poison, dst, keyField t, false, 0, false, [], false, 0, none, 0,
    (b.thread t).pc, false, 0⟩
  let b1 : Block := { b with tc := { b.tc with ops := b.tc.ops ++ [o], nextOp := b.tc.nextOp + 1 } }
  b1.noteOp o

/-- Does an operation still owe a general register, or a vector register, its value? -/
def LoadDst.isG (d : LoadDst) (r : Nat) : Bool := match d with | .g x _ _ => x == r | _ => false
def LoadDst.isInput (d : LoadDst) : Bool := match d with | .input _ => true | _ => false
def LoadDst.isV (d : LoadDst) (r : Nat) : Bool := match d with | .v x _ _ => x == r | _ => false

/-- Does the thread wait for a load result that a word needs or would overwrite (R195)? -/
def Block.owed (b : Block) (t : Nat) (u : Use) : Bool :=
  b.tc.ops.any fun o => o.thread == some t &&
    ((u.gr ++ u.gw).any (fun r => r ≠ 0 && o.dst.isG r) || (u.vr ++ u.vw).any o.dst.isV)

/-- The 64 bits that a scalar load of some bytes writes. -/
def extend (v bytes : Nat) (signed : Bool) : W64 :=
  if signed then BitVec.ofInt 64 (ofTwos (8 * bytes) v) else BitVec.ofNat 64 (v % 2 ^ (8 * bytes))

/-- A result reaches its destination register (R221). -/
def ThreadSt.receive (th : ThreadSt) (o : MemOp) : ThreadSt :=
  let bad := o.resultPoison
  let at_ := if bad then o.badAt else th.badAt
  match o.dst with
  | .none => th
  | .input _ => th
  | .g r signed bytes =>
    if r = 0 then th
    else { th.wg r (if bad then 0 else extend o.result bytes signed) with gp := setBit th.gp r bad, badAt := at_ }
  | .v r _ _ => { th.wv r (if bad then 0 else BitVec.ofNat 1024 o.result) with vp := setBit th.vp r bad, badAt := at_ }

/-- An operation leaves, and its thread's fence may end. -/
def Block.opDone (b : Block) (o : MemOp) : Block :=
  let b1 := b.removeOps fun x => x.id == o.id
  match o.thread with
  | some t => b1.wakeFence t
  | none => b1

/-- A firmware operation of a step is acknowledged (R52). -/
def Block.firmDone (b : Block) (o : MemOp) : Block := if o.thread.isNone ∧ o.array.isNone then b.ackDrop o.camp o.field 1 else b

/-- Resident firmware writes bytes for a camp from a field; the step waits for the acknowledgement (R52, R292, R315). -/
def Block.firmWrite (b : Block) (f camp addr bytes val : Nat) : Block :=
  let o : MemOp := ⟨b.tc.nextOp, none, camp, sget (fun _ => 0) b.fab.epochs camp, .write val, [addr], bytes, false, .none, f, false, 0, false, [], false, 0, none, 0, 0, false, 0⟩
  (({ b with tc := { b.tc with ops := b.tc.ops ++ [o], nextOp := b.tc.nextOp + 1 } } : Block).noteOp o).ackAdd camp f 1

-- Log entry 103 (DESIGN CHOICE).
/-- A token's embedding row is gathered for a slot (R316): narrow reads in each field that holds a part of it, which the step waits for. -/
def Block.gather (b : Block) (m : Model) (slot token : Nat) : Block :=
  m.embeds.foldl (fun b e =>
    let f := e.addr / 2 ^ 40 % 2 ^ 8
    let addrs := (List.range (cdiv e.rowBytes 32)).map fun i => e.addr + token * e.rowBytes + 32 * i
    let o : MemOp := ⟨b.tc.nextOp, none, m.camp, sget (fun _ => 0) b.fab.epochs m.camp, .read, addrs, 32, false, .input slot, f, false, 0, false, [], false, 0, none, 0, 0, false, 0⟩
    (({ b with tc := { b.tc with ops := b.tc.ops ++ [o], nextOp := b.tc.nextOp + 1 } } : Block).noteOp o).ackAdd m.camp f 1) b

/-- A part of an embedding row lands in its slot's input buffer. -/
def Block.gathered (b : Block) (o : MemOp) : Block :=
  match o.dst with
  | .input slot => (if o.resultPoison then b.setSlot slot fun s => { s with badInput := true } else b).firmDone o
  | _ => b

/-- Was the operation issued before its camp was reset? Its response is then discarded. -/
def Block.stale (b : Block) (o : MemOp) : Bool := decide (o.epoch < sget (fun _ => 0) b.fab.epochs o.camp)

/-- Has the kind a result? -/
def MemKind.returns : MemKind → Bool
  | .read => true
  | .atomic .. => true
  | _ => false

/-- LOAD_RETURN: the result of a performed load or atomic returns to its thread. -/
def loadReturnEff (id : Nat) (b : Block) : Block :=
  match b.tc.ops.find? fun o => o.id == id with
  | none => b
  | some o =>
    if o.performed = true ∧ o.kind.returns = true then
      match o.thread with
      | some t => (if b.stale o then b else b.setThread t ((b.thread t).receive o)).opDone o
      | none => if o.array.isSome then b else (b.opDone o).gathered o
    else b

/-- WRITE_ACK: the acknowledgement of a performed store or add returns to its issuer. -/
def writeAckEff (id : Nat) (b : Block) : Block :=
  match b.tc.ops.find? fun o => o.id == id with
  | none => b
  | some o => if o.performed = true ∧ o.kind.returns = false then (b.opDone o).firmDone o else b

/-! ### Running a word (R195, R207) -/

-- Log entries 7 (DESIGN CHOICE), 61 (DEDUCED).
/-- Can the thread issue: live, waiting for nothing, of a running JOB or kernel of a camp that is not being reset? -/
def Block.canIssue (b : Block) (t : Nat) : Bool :=
  let th := b.thread t
  th.live && decide (th.wait = .none) && match b.job? th.job with
    | some j => decide (j.phase = 2) && !b.resetting j.camp
    | none => false

/-- The address of the thread's next word, in its core's local memory. -/
def Block.fetchAt (b : Block) (t : Nat) : Nat := localAddr (keyField t) (keyCore t) (b.thread t).pc

-- Log entry 69 (DESIGN CHOICE).
/-- The word at the thread's PC, as its fetch decodes it (R149). -/
def Block.fetch (b : Block) (t : Nat) : Nat := ofBytesLE (b.readBytes (b.fetchAt t) 4)

/-- Does the word at the PC hold poison? -/
def Block.fetchPoison (b : Block) (t : Nat) : Bool := b.mem.poisoned (b.fetchAt t)

/-- Does a word issue a REQ packet? -/
def asksMemory (w : Nat) : Bool := (0x10 ≤ wMajor w && wMajor w ≤ 0x19) || wMajor w == 0x25

/-- Is a thread ready: it can issue, waits for no load result that its next word needs (R195), and finds buffer space for the response
that the word asks for (R42)? -/
def Block.readyThread (b : Block) (t : Nat) : Bool :=
  let w := b.fetch t
  b.canIssue t && !b.owed t (uses w) && (!asksMemory w || b.rspRoom (keyField t) (keyCore t))

-- Log entry 69 (DESIGN CHOICE).
/-- A core's ready threads in rotation, starting after the thread that issued last (R195). -/
def Block.rotation (b : Block) (f core : Nat) : List Nat :=
  ((List.range 4).map fun i => threadKey f core (((b.core f core).last + 1 + i) % 4)).filter fun t => b.readyThread t && !b.unpowered f

-- Log entry 70 (DEDUCED).
/-- The thread that issues next: the first in rotation, but that those which have given up their slot are passed over once (R208). -/
def Block.issuer (b : Block) (f core : Nat) : Option Nat :=
  let ts := b.rotation f core
  match ts.find? fun t => !bitAt (b.core f core).yielded (keyThr t) with
  | some t => some t
  | none => ts.head?

-- Log entry 70 (DEDUCED).
/-- A thread issues: the threads passed over before it have given up their slot. -/
def Block.issued (b : Block) (t : Nat) : Block :=
  let f := keyField t
  let c := keyCore t
  let passed := ((b.rotation f c).takeWhile fun x => x != t) ++ [t]
  b.setCore f c { b.core f c with last := keyThr t, yielded := setBits (b.core f c).yielded (passed.map keyThr) false }

-- Log entry 69 (DESIGN CHOICE).
/-- Run the next word of the thread whose turn it is (R195), if the word is one of the row's: an unlisted word is ILLEGAL whatever the row, a
listed one of another row is not this command, and a word of the row that breaks its rules is ILLEGAL. The fetch decodes its codeword (R151,
R152). -/
def Block.runWord (b0 : Block) (t : Nat) (row : Nat → Bool) (k : Nat → ThreadSt → Block → Block) : Block :=
  if b0.issuer (keyField t) (keyCore t) ≠ some t then b0
  else
    let b := (b0.issued t).check (b0.fetchAt t) 4
    let w := b.fetch t
    let th := b.thread t
    if b.fetchPoison t then (b.setThread t { th with badAt := wordOf (b.fetchAt t) }).fault t 5 th.pc
    else if listed w = false then b.fault t 1 0
    else if row w = false then b0
    else if legal w = false ∨ shapeFits w th.vl th.ew = false ∨ th.pc % 4 ≠ 0 then b.fault t 1 0
    else k w th b

/-- The next instruction. -/
def ThreadSt.next (th : ThreadSt) : ThreadSt := { th with pc := (th.pc + 4) % 2 ^ 18 }

/-- A computing word: new register values, poison carried along, the next instruction. -/
def Block.compute (b : Block) (t w : Nat) (th new : ThreadSt) : Block := b.setThread t (th.mark new (uses w)).next

/-- A word of one major. -/
def ofMajor (m : Nat) (w : Nat) : Bool := wMajor w == m

/-- A SYS word of one function. -/
def ofSys (s : Nat) (w : Nat) : Bool := wMajor w == 0x38 && wSfunc w == s

end Sys2Proof.Machine
end

