-- ==== Sys2Proof/Machine/Isa.lean ====
section
/-! DEFINITION. The scalar, predicate, memory, branch and system words of the thread cores (R201, R206 to R209, R211 to R215, R220,
R222, R223), one meaning a row. -/
namespace Sys2Proof.Machine

/-! ### Integer arithmetic (R201, R208) -/

/-- The high 64 bits of a product of integers. -/
def highHalf (p : Int) : W64 := BitVec.ofInt 64 (p.fdiv (2 ^ 64))

-- Log entry 59 (DEDUCED).
/-- ALU FUNC (R208): shifts take six bits of the amount; a division by zero gives all ones and the dividend. -/
def aluOp (func : Nat) (a b : W64) : W64 :=
  match func with
  | 0x00 => a + b
  | 0x01 => a - b
  | 0x02 => a &&& b
  | 0x03 => a ||| b
  | 0x04 => a ^^^ b
  | 0x05 => a <<< (b.toNat % 64)
  | 0x06 => a >>> (b.toNat % 64)
  | 0x07 => a.sshiftRight (b.toNat % 64)
  | 0x08 => a * b
  | 0x09 => highHalf (a.toNat * b.toNat : Nat)
  | 0x0A => highHalf (a.toInt * b.toInt)
  | 0x0B => if b = 0 then BitVec.allOnes 64 else a / b
  | 0x0C => if b = 0 then BitVec.allOnes 64 else a.sdiv b
  | 0x0D => if b = 0 then a else a % b
  | 0x0E => if b = 0 then a else a.srem b
  | 0x0F => if a.slt b then a else b
  | 0x10 => if a.slt b then b else a
  | 0x11 => if a < b then a else b
  | 0x12 => if a < b then b else a
  | _ => 0

/-- ALU. -/
def aluEff (t : Nat) (b : Block) : Block :=
  b.runWord t (ofMajor 0x01) fun w th b => b.compute t w th (th.wg (wRd w) (aluOp (wFunc w) (th.rg (wRs1 w)) (th.rg (wRs2 w))))

/-- An operation with an immediate. -/
def Block.immOp (b : Block) (t major : Nat) (op : W64 → Nat → W64) : Block :=
  b.runWord t (ofMajor major) fun w th b => b.compute t w th (th.wg (wRd w) (op (th.rg (wRs1 w)) (wImm w)))

/-- ADDI: the immediate sign-extended. -/
def addiEff (t : Nat) (b : Block) : Block := b.immOp t 0x02 fun a i => a + BitVec.ofInt 64 (ofTwos 16 i)

/-- ANDI: the immediate zero-extended. -/
def andiEff (t : Nat) (b : Block) : Block := b.immOp t 0x03 fun a i => a &&& BitVec.ofNat 64 i

/-- ORI. -/
def oriEff (t : Nat) (b : Block) : Block := b.immOp t 0x04 fun a i => a ||| BitVec.ofNat 64 i

/-- XORI. -/
def xoriEff (t : Nat) (b : Block) : Block := b.immOp t 0x05 fun a i => a ^^^ BitVec.ofNat 64 i

/-- SHI: IMM16[7:6] selects the shift, IMM16[5:0] its amount. -/
def shiOp (a : W64) (i : Nat) : W64 :=
  match bitsOf i 6 2 with
  | 0 => a <<< (i % 64)
  | 1 => a >>> (i % 64)
  | _ => a.sshiftRight (i % 64)

def shiEff (t : Nat) (b : Block) : Block := b.immOp t 0x06 shiOp

/-- LIQ: IMM16 into quarter k of the register, the rest kept. -/
def liqOp (old : W64) (k imm : Nat) : W64 :=
  (old &&& ~~~(BitVec.ofNat 64 (0xFFFF <<< (16 * k)))) ||| BitVec.ofNat 64 (imm <<< (16 * k))

def liqEff (t : Nat) (b : Block) : Block :=
  b.runWord t (ofMajor 0x07) fun w th b => b.compute t w th (th.wg (wRd w) (liqOp (th.rg (wRd w)) (wRs1 w) (wImm w)))

/-! ### Compares and predicates (R208) -/

/-- CMP FUNC: the outcome and the flags. -/
def cmpOp (func : Nat) (a b : W64) : Bool × Nat :=
  match func with
  | 0 => (a == b, 0)
  | 1 => (a != b, 0)
  | 2 => (a.slt b, 0)
  | 3 => (decide (a < b), 0)
  | 4 => (!a.slt b, 0)
  | 5 => (!decide (a < b), 0)
  | 8 => fpCmp f32EqB (a.toNat % 2 ^ 32) (b.toNat % 2 ^ 32)
  | 9 => fpCmp f32Lt (a.toNat % 2 ^ 32) (b.toNat % 2 ^ 32)
  | _ => fpCmp f32Le (a.toNat % 2 ^ 32) (b.toNat % 2 ^ 32)

/-- A predicate of all ones or of zeros. -/
def predOf (c : Bool) : W64 := if c then BitVec.allOnes 64 else 0

-- Log entry 62 (DEDUCED).
/-- Raise sticky flags. -/
def ThreadSt.flag (th : ThreadSt) (n : Nat) : ThreadSt := { th with fpflags := th.fpflags ||| n }

/-- CMP. -/
def cmpEff (t : Nat) (b : Block) : Block :=
  b.runWord t (ofMajor 0x08) fun w th b =>
    let r := cmpOp (wFunc w) (th.rg (wRs1 w)) (th.rg (wRs2 w))
    b.compute t w th ((th.wp (wRd w % 8) (predOf r.1)).flag r.2)

/-- PLOG FUNC 0 to 3 on two predicates. -/
def plogOp (func : Nat) (x y : W64) : W64 :=
  match func with
  | 0 => x &&& y
  | 1 => x ||| y
  | 2 => x ^^^ y
  | _ => x &&& ~~~y

/-- PLOG. -/
def plogEff (t : Nat) (b : Block) : Block :=
  b.runWord t (ofMajor 0x0A) fun w th b =>
    b.compute t w th (match wFunc w with
      | 4 => th.wp (wRd w % 8) (~~~(th.rp (wRs1 w % 8)))
      | 5 => th.wp (wRd w % 8) (th.rg (wRs1 w))
      | 6 => th.wg (wRd w) (th.rp (wRs1 w % 8))
      | f => th.wp (wRd w % 8) (plogOp f (th.rp (wRs1 w % 8)) (th.rp (wRs2 w % 8))))

/-! ### Scalar floating point (R201, R208) -/

/-- FPU FUNC on the operands' low 32 bits (`c` is g[RD]); conversions from i64 read all 64. -/
def fpuOp (func : Nat) (a b c : W64) : Fp :=
  let x := a.toNat % 2 ^ 32
  let y := b.toNat % 2 ^ 32
  let z := c.toNat % 2 ^ 32
  match func with
  | 0x00 => fpAdd x y
  | 0x01 => fpSub x y
  | 0x02 => fpMul x y
  | 0x03 => fpDiv x y
  | 0x04 => fpSqrt x
  | 0x05 => fpMaxMin false x y
  | 0x06 => fpMaxMin true x y
  | 0x07 => fpFma x y z
  | 0x08 => ⟨f32OfInt a.toInt, 0⟩
  | 0x09 => fpToInt 64 x
  | 0x0A => bfResult [x] (f32Val x) x
  | 0x0B => ⟨if bfNan x then nan32 else bfWide x, fpFlags [bfWide x] 0 true false⟩
  | 0x0C => fpOpen Config.fexp false x
  | _ => fpOpen Config.flog true x

/-- FPU. -/
def fpuEff (t : Nat) (b : Block) : Block :=
  b.runWord t (ofMajor 0x09) fun w th b =>
    let r := fpuOp (wFunc w) (th.rg (wRs1 w)) (th.rg (wRs2 w)) (th.rg (wRd w))
    b.compute t w th ((th.wg (wRd w) (BitVec.ofNat 64 r.val)).flag r.flags)

/-! ### Loads and stores (R207, R220 to R222) -/

/-- A register plus a signed offset, as an address. -/
def addrOf (base : W64) (off : Int) : Nat := (base + BitVec.ofInt 64 off).toNat

/-- The JOB's code length, which no store may reach (R220). -/
def Block.codeLen (b : Block) (t : Nat) : Nat := ((b.job? (b.thread t).job).map (·.codeLen)).getD 0

/-- Does an address lie in the code image that the thread's JOB has in its cores' local memories: through the own window, or through a
physical one where bring-up opens it (R89, R220)? -/
def Block.inImage (b : Block) (t a : Nat) : Bool :=
  match b.job? (b.thread t).job with
  | none => false
  | some j =>
    match place a with
    | .ownCore off => decide (off < j.codeLen)
    | .local_ f core off => b.boot.bringup && decide (j.camp = 0) && j.names f core && decide (off < j.codeLen)
    | _ => false

/-- The first address of a vector access that is not aligned to its element, or that lies in another granule than the first (R220). -/
def vecBad (as : List Nat) (width : Nat) : Option Nat := as.find? fun a => decide (a % width ≠ 0) || decide (a / 0x8000 ≠ as.headD 0 / 0x8000)

/-- The elements of a vector register. -/
def vElem (v : BitVec 1024) (bytes i : Nat) : Nat := (v.extractLsb' (8 * bytes * i) (8 * bytes)).toNat

/-- The first n elements as a little-endian number. -/
def vLow (v : BitVec 1024) (bytes n : Nat) : Nat := v.toNat % 2 ^ (8 * bytes * n)

/-- Go to the next instruction. -/
def Block.advance (b : Block) (t : Nat) : Block := b.setThread t (b.thread t).next

/-- Issue a load, and go on. -/
def Block.loadFrom (b : Block) (t : Nat) (addrs : List Nat) (width : Nat) (dst : LoadDst) : Block :=
  (b.issue t .read addrs width false dst).advance t

/-- Issue a store, if it does not reach the code image; a poisoned value is consumed and poisons its target (R222). -/
def Block.storeTo (b : Block) (t : Nat) (addrs : List Nat) (width val : Nat) (poison : Bool) : Block :=
  match addrs.find? (b.inImage t) with
  | some a => b.fault t 8 a
  | none =>
    let b1 := b.issue t (.write val) addrs width poison .none
    if poison then b1.fault t 5 (addrs.headD 0) else b1.advance t

/-- LD. -/
def ldEff (t : Nat) (b : Block) : Block :=
  b.runWord t (ofMajor 0x10) fun w th b =>
    let a := addrOf (th.rg (wRs1 w)) (wOff12 w)
    let n := 2 ^ wWidth w
    if th.gBad (wRs1 w) then b.fault t 5 a
    else if a % n ≠ 0 then b.fault t 2 a
    else b.loadFrom t [a] n (.g (wRd w) (!wUns w) n)

/-- ST. -/
def stEff (t : Nat) (b : Block) : Block :=
  b.runWord t (ofMajor 0x11) fun w th b =>
    let a := addrOf (th.rg (wRs1 w)) (wOff12 w)
    let n := 2 ^ wWidth w
    if th.gBad (wRs1 w) then b.fault t 5 a
    else if a % n ≠ 0 then b.fault t 2 a
    else b.storeTo t [a] n (th.gn (wRd w) % 2 ^ (8 * n)) (th.gBad (wRd w))

-- Log entry 58 (DEDUCED).
/-- A vector load of VL elements at some addresses; none leaves the register zero. -/
def Block.vLoad (b : Block) (t r : Nat) (addrs : List Nat) (width : Nat) : Block :=
  if addrs = [] then (b.setThread t { (b.thread t).wv r 0 with vp := setBit (b.thread t).vp r false }).advance t
  else b.loadFrom t addrs width (.v r addrs.length width)

-- Log entry 58 (DEDUCED).
/-- A vector store of VL elements; none stores nothing. -/
def Block.vStore (b : Block) (t r : Nat) (addrs : List Nat) (width : Nat) : Block :=
  let th := b.thread t
  if addrs = [] then b.advance t else b.storeTo t addrs width (vLow (th.rv r) width addrs.length) (th.vBad r)

/-- The addresses of VL contiguous elements. -/
def contiguous (a width n : Nat) : List Nat := (List.range n).map fun i => a + width * i

-- Log entry 58 (DEDUCED).
/-- The addresses of VL elements with a stride. -/
def strided (a stride : W64) (n : Nat) : List Nat := (List.range n).map fun i => (a + stride * BitVec.ofNat 64 i).toNat

/-- VLD. -/
def vldEff (t : Nat) (b : Block) : Block :=
  b.runWord t (ofMajor 0x12) fun w th b =>
    let a := addrOf (th.rg (wRs1 w)) (wOff12 w)
    let n := 2 ^ wWidth w
    if th.gBad (wRs1 w) then b.fault t 5 a
    else match vecBad (contiguous a n th.vl) n with
      | some x => b.fault t 2 x
      | none => b.vLoad t (wRd w) (contiguous a n th.vl) n

/-- VST. -/
def vstEff (t : Nat) (b : Block) : Block :=
  b.runWord t (ofMajor 0x13) fun w th b =>
    let a := addrOf (th.rg (wRs1 w)) (wOff12 w)
    let n := 2 ^ wWidth w
    if th.gBad (wRs1 w) then b.fault t 5 a
    else match vecBad (contiguous a n th.vl) n with
      | some x => b.fault t 2 x
      | none => b.vStore t (wRd w) (contiguous a n th.vl) n

-- Log entry 58 (DEDUCED).
/-- VLDS. -/
def vldsEff (t : Nat) (b : Block) : Block :=
  b.runWord t (ofMajor 0x14) fun w th b =>
    let n := 2 ^ wFunc w
    let as := strided (th.rg (wRs1 w)) (th.rg (wRs2 w)) th.vl
    if th.gBad (wRs1 w) ∨ th.gBad (wRs2 w) then b.fault t 5 (th.gn (wRs1 w))
    else match vecBad as n with
      | some a => b.fault t 2 a
      | none => b.vLoad t (wRd w) as n

-- Log entry 58 (DEDUCED).
/-- VSTS. -/
def vstsEff (t : Nat) (b : Block) : Block :=
  b.runWord t (ofMajor 0x15) fun w th b =>
    let n := 2 ^ wFunc w
    let as := strided (th.rg (wRs1 w)) (th.rg (wRs2 w)) th.vl
    if th.gBad (wRs1 w) ∨ th.gBad (wRs2 w) then b.fault t 5 (th.gn (wRs1 w))
    else match vecBad as n with
      | some a => b.fault t 2 a
      | none => b.vStore t (wRd w) as n

/-! ### Atomics and memory-side adds (R212, R213) -/

/-- The bytes of an atomic's type: i32, u32 and fp32 take 4. -/
def atomBytes (ty : Nat) : Nat := if ty = 1 ∨ ty = 3 then 8 else 4

/-- Does R134 allow the combination? CAS and SWAP on integer types, FETCH_ADD on i32, i64 and fp32, MIN and MAX on integer types. -/
def atomOk (op ty : Nat) : Bool :=
  match op with
  | 2 => ty == 0 || ty == 1 || ty == 4
  | _ => decide (ty ≤ 3)

-- Log entry 41 (DEDUCED).
/-- ATOM: refused at the core where the combination or the target breaks R134; a poisoned operand is consumed. -/
def atomEff (t : Nat) (b : Block) : Block :=
  b.runWord t (ofMajor 0x18) fun w th b =>
    let op := bitsOf (wFunc w) 0 4
    let ty := bitsOf (wFunc w) 4 3
    let n := atomBytes ty
    let a := th.gn (wRs1 w)
    let bad := th.gBad (wRs2 w) || (decide (op = 0) && th.gBad (wRd w))
    if th.gBad (wRs1 w) then b.fault t 5 a
    else if atomOk op ty = false ∨ a < 0x40000 ∨ a % n ≠ 0 then (b.bump (F.atomicsRefused (keyField t))).fault t 9 a
    else
      let b1 := b.issue t (.atomic op ty (th.gn (wRd w) % 2 ^ (8 * n)) (th.gn (wRs2 w) % 2 ^ (8 * n))) [a] n bad (.g (wRd w) false n)
      if bad then b1.fault t 5 a else b1.advance t

/-- A memory-side add of elements: refused on the own local window, misaligned, or across a frame (R132). -/
def Block.addTo (b : Block) (t a width n ty val : Nat) (poison : Bool) : Block :=
  if a < 0x40000 ∨ a % width ≠ 0 ∨ width * n < 4 ∨ a / 0x8000 ≠ (a + width * n - 1) / 0x8000 then b.fault t 10 a
  else
    let b1 := b.issue t (.add ty val) (contiguous a width n) width poison .none
    if poison then b1.fault t 5 a else b1.advance t

-- Log entry 41 (DEDUCED).
/-- MADD. -/
def maddEff (t : Nat) (b : Block) : Block :=
  b.runWord t (ofMajor 0x19) fun w th b =>
    let n := if wFunc w = 1 then 8 else 4
    if th.gBad (wRs1 w) then b.fault t 5 (th.gn (wRs1 w))
    else b.addTo t (th.gn (wRs1 w)) n 1 (wFunc w) (th.gn (wRs2 w) % 2 ^ (8 * n)) (th.gBad (wRs2 w))

-- Log entry 41 (DEDUCED).
/-- VADDM: elements 0 to VL - 1; a bf16 add needs an even VL. -/
def vaddmEff (t : Nat) (b : Block) : Block :=
  b.runWord t (ofMajor 0x25) fun w th b =>
    let a := th.gn (wVrs w)
    let n := if wVfunc w = 1 then 2 else 4
    let ty := if wVfunc w = 0 then 2 else if wVfunc w = 1 then 3 else 0
    if th.gBad (wVrs w) then b.fault t 5 a
    else if wVfunc w = 1 ∧ th.vl % 2 = 1 then b.fault t 10 a
    else b.addTo t a n th.vl ty (vLow (th.rv (wVs1 w)) n th.vl) (th.vBad (wVs1 w))

/-! ### Branches (R207) -/

-- Log entry 60 (DEDUCED).
/-- Is a target inside the code image? -/
def Block.inCode (b : Block) (t : Nat) (target : Int) : Bool := decide (0 ≤ target) && decide (target < b.codeLen t)

-- Log entry 60 (DEDUCED).
/-- The target of a BR word. -/
def brTarget (pc w : Nat) : Int := (pc : Int) + 4 * wOff22 w

-- Log entry 60 (DEDUCED).
/-- BR: taken when bit 0 of p[PRED], inverted by NEG, is 1. -/
def brEff (t : Nat) (b : Block) : Block :=
  b.runWord t (ofMajor 0x1C) fun w th b =>
    let target := brTarget th.pc w
    if b.inCode t target = false then b.fault t 1 0
    else if th.pBad (wPred w) then b.fault t 5 0
    else if (th.rp (wPred w)).getLsbD 0 != wNeg w then b.setThread t { th with pc := target.toNat } else b.advance t

-- Log entry 60 (DEDUCED).
/-- CALL: g31 takes the return address. -/
def callEff (t : Nat) (b : Block) : Block :=
  b.runWord t (ofMajor 0x1D) fun w th b =>
    let target := brTarget th.pc w
    if b.inCode t target = false then b.fault t 1 0
    else b.setThread t { th.wg 31 (BitVec.ofNat 64 (th.pc + 4)) with pc := target.toNat, gp := setBit th.gp 31 false }

-- Log entry 60 (DEDUCED).
/-- JR: g[RD] takes the return address unless RD is 0. -/
def jrEff (t : Nat) (b : Block) : Block :=
  b.runWord t (ofMajor 0x1E) fun w th b =>
    let target := th.gn (wRs1 w)
    if th.gBad (wRs1 w) then b.fault t 5 0
    else if b.inCode t target = false ∨ target % 4 ≠ 0 then b.fault t 1 0
    else b.setThread t { th.wg (wRd w) (BitVec.ofNat 64 (th.pc + 4)) with pc := target, gp := setBit th.gp (wRd w) false }

/-! ### Rations from a thread (R209) -/

/-- RATION.REQ: the thread waits until the desk grants or refuses its request. -/
def rationReqEff (t : Nat) (b : Block) : Block :=
  b.runWord t (ofSys 0x001) fun w th b =>
    if th.gBad (wRs1 w) ∨ th.gBad (wRs2 w) then b.fault t 5 0
    else
      let camp := ((b.job? th.job).map (·.camp)).getD 0
      let cls := max (if ((b.job? th.job).map (·.kernel)).getD false then 0 else 1) (min 2 (th.gn (wRs2 w) % 4))
      let b1 := b.setThread t { th.next with wait := .ration (wRd w) }
      b1.request (keyField t) (threadAsker (keyCore t) (keyThr t)) cls camp (th.gn (wRs1 w)) false

-- Log entry 232 (DEDUCED).
/-- Move rations charged to wide mode from a thread's grant to its core's wide grant. -/
def Desk.moveCharged (d : Desk) (core thr n : Nat) (g : Grant) : Desk :=
  let gs := d.grants.map fun x => if x.who == threadAsker core thr then { x with amount := x.amount - n } else x
  if gs.any fun x => x.who == wideAsker core then { d with grants := gs.map fun x => if x.who == wideAsker core then { x with amount := x.amount + n } else x }
  else { d with grants := gs ++ [⟨wideAsker core, g.cls, g.camp, n, false, g.k⟩] }

-- Log entry 232 (DEDUCED).
/-- The same at the desk: a step of the wide grant's clock under way is given up; a wide grant that the core waits for meanwhile is there, and its threads go
on. -/
def Block.chargeWide (b : Block) (f core thr n : Nat) (g : Grant) : Block :=
  let b1 := b.removeReqs f fun q => q.clock && q.who == wideAsker core
  let b2 := b1.setDesk f ((b1.desk f).moveCharged core thr n g)
  if b2.waits f (wideAsker core) then
    ({ b2 with tc := b2.tc.granted f ⟨wideAsker core, g.cls, g.camp, 4, 0, 0, 0, 0, false, false, false⟩ b2.fab.time } : Block).withdraw f (wideAsker core)
  else b2

-- Log entry 232 (DEDUCED).
/-- RATION.REL: the thread's explicit grant is released; what is charged to wide mode moves to the core's wide grant. -/
def rationRelEff (t : Nat) (b : Block) : Block :=
  b.runWord t (ofSys 0x002) fun _ th b =>
    let f := keyField t
    let core := keyCore t
    let b1 := match b.grantOf f (threadAsker core (keyThr t)) with
      | some g =>
        let b' := if th.charged = 0 then b else b.chargeWide f core (keyThr t) th.charged g
        let c := b'.core f core
        (b'.setCore f core { c with charged := c.charged - th.charged }).release f (threadAsker core (keyThr t))
      | none => b
    b1.setThread t { (b1.thread t).next with charged := 0 }

-- Log entry 223 (DEDUCED).
/-- Is a core's wide mode powered: by its own grant, or by charged rations? -/
def Block.wideOn (b : Block) (f core : Nat) : Bool := b.holds f (wideAsker core) || decide (4 ≤ (b.core f core).charged)

/-- VL and EW are set, and the core's last wide use noted. -/
def Block.setVl (b : Block) (t rd vl ew : Nat) : Block :=
  let th := b.thread t
  let b1 := b.setThread t { (th.wg rd (BitVec.ofNat 64 vl)) with vl := vl, ew := ew, gp := setBit th.gp rd false }
  if isWide vl ew || isWide th.vl th.ew then b1.setCore (keyField t) (keyCore t) { b1.core (keyField t) (keyCore t) with lastWide := b.fab.time } else b1

-- Log entry 223 (DEDUCED).
/-- SETVL: a wide VL is charged to the thread's explicit grant where 4 rations of it are unspent; otherwise it needs the core's wide mode, already
powered or asked for (R209). -/
def setvlEff (t : Nat) (b : Block) : Block :=
  b.runWord t (ofMajor 0x30) fun w th b =>
    let f := keyField t
    let core := keyCore t
    let ew := if wFunc w = 1 then 0 else 1
    let vl := min (th.gn (wRs1 w)) (if ew = 1 then 32 else 64)
    let explicit := ((b.grantOf f (threadAsker core (keyThr t))).map (·.amount)).getD 0
    if th.gBad (wRs1 w) then b.fault t 5 0
    else if isWide vl ew = false then (b.advance t).setVl t (wRd w) vl ew
    else if 4 ≤ explicit - th.charged then
      let c := b.core f core
      (((b.setCore f core { c with charged := c.charged + 4 }).setThread t { th with charged := th.charged + 4 }).advance t).setVl t (wRd w) vl ew
    else if b.wideOn f core then (b.advance t).setVl t (wRd w) vl ew
    else
      let camp := ((b.job? th.job).map (·.camp)).getD 0
      let b1 := b.setThread t { th.next with wait := .wide (wRd w) vl ew }
      if b1.waits f (wideAsker core) then b1 else (b1.bump (F.wideRequests f)).request f (wideAsker core) (b.idClass th.job) camp 4 false

/-- WIDE_HOLD_EXPIRY: WIDE_HOLD_US without a wide VL in the core release its wide grant; charged rations are unspent again. -/
def wideHoldExpiryEff (f core : Nat) (b : Block) : Block :=
  let ts := (List.range 4).map (threadKey f core)
  let wide := ts.any fun t => (b.thread t).live && isWide (b.thread t).vl (b.thread t).ew
  let c := b.core f core
  if b.wideOn f core = true ∧ wide = false ∧ c.lastWide + b.fget F.tcConfigWideHoldUs * 1000 ≤ b.fab.time then
    let b1 := ts.foldl (fun b t => if (b.thread t).charged = 0 then b else b.setThread t { b.thread t with charged := 0 }) (b.setCore f core { c with charged := 0 })
    b1.releaseAuto f (wideAsker core)
  else b

/-! ### Fences, control registers, barriers (R214, R215) -/

/-- FENCE: the kind mask stands in the RS1 field. -/
def fenceEff (t : Nat) (b : Block) : Block :=
  b.runWord t (ofSys 0x010) fun w th b => (b.setThread t { th.next with wait := .fence (wRs1 w % 16) }).wakeFence t

/-- A control register (R215). -/
def Block.csr (b : Block) (t n : Nat) : Nat :=
  let th := b.thread t
  let f := keyField t
  let j := b.job? th.job
  let camp := (j.map (·.camp)).getD 0
  match n with
  | 0 => th.vl
  | 1 => th.ew
  | 2 => sourceTime b f % 2 ^ 64
  | 3 => packBits [(0, 8, f), (8, 2, keyCore t / 72), (10, 9, keyCore t), (20, 2, keyThr t), (32, 4, camp)]
  | 4 => (b.campField camp f).token
  | 5 => (j.map (·.seq)).getD 0
  | 6 =>
    let g := ((b.grantOf f (threadAsker (keyCore t) (keyThr t))).map (·.amount)).getD 0
    packBits [(0, 9, g - th.charged), (16, 1, if b.holds f (wideAsker (keyCore t)) then 1 else 0)]
  | 7 => th.fpflags
  | _ => 0

/-- CSRR. -/
def csrrEff (t : Nat) (b : Block) : Block :=
  b.runWord t (ofSys 0x030) fun w th b => b.compute t w th (th.wg (wRd w) (BitVec.ofNat 64 (b.csr t (wRs1 w))))

/-- CSRW: only FPFLAGS is writable. -/
def csrwEff (t : Nat) (b : Block) : Block :=
  b.runWord t (ofSys 0x031) fun w th b =>
    if th.gBad (wRs2 w) then b.fault t 5 0
    else if wRs1 w = 7 then b.setThread t { th.next with fpflags := th.gn (wRs2 w) % 16 } else b.advance t

/-- The threads of a core that stand at a barrier go on once every live one does. -/
def Block.openBarrier (b : Block) (f core : Nat) : Block :=
  let ts := ((List.range 4).map (threadKey f core)).filter fun t => (b.thread t).live
  if ts.all fun t => decide ((b.thread t).wait = .barrier) then ts.foldl (fun b t => b.setThread t { b.thread t with wait := .none }) b else b

/-- TBAR. -/
def tbarEff (t : Nat) (b : Block) : Block :=
  b.runWord t (ofSys 0x040) fun _ th b => (b.setThread t { th.next with wait := .barrier }).openBarrier (keyField t) (keyCore t)

-- Log entry 70 (DEDUCED).
/-- YIELD: the thread gives up its next issue slot. -/
def yieldEff (t : Nat) (b : Block) : Block :=
  b.runWord t (ofSys 0x041) fun _ _ b =>
    let f := keyField t
    let c := b.core f (keyCore t)
    (b.setCore f (keyCore t) { c with yielded := setBit c.yielded (keyThr t) true }).advance t

/-- PCHK: the predicate says whether the register was poisoned, and its poison bit is cleared (R223). -/
def pchkEff (t : Nat) (b : Block) : Block :=
  b.runWord t (ofSys 0x042) fun w th b =>
    let r := wRs1 w
    let bad := match wRs2 w with | 0 => th.gBad r | 1 => th.vBad r | _ => th.pBad r
    let th1 := match wRs2 w with
      | 0 => { th with gp := setBit th.gp r false }
      | 1 => { th with vp := setBit th.vp r false }
      | _ => { th with pp := setBit th.pp r false }
    let th2 := th1.wp (wRd w % 8) (predOf bad)
    (b.setThread t { th2.next with pp := if wRd w % 8 = 0 then th2.pp else setBit th2.pp (wRd w % 8) false }).count F.pchkCleared (if bad then 1 else 0)

-- Log entry 61 (DEDUCED).
/-- END: a poisoned register among g1 to g31 is consumed; otherwise the thread ends. -/
def endCmdEff (t : Nat) (b : Block) : Block :=
  b.runWord t (ofSys 0x07F) fun _ th b =>
    if (List.range 32).any th.gBad then b.fault t 5 0
    else
      let b1 := b.setThread t { th.next with live := false }
      let b2 := if isWide th.vl th.ew then b1.setCore (keyField t) (keyCore t) { b1.core (keyField t) (keyCore t) with lastWide := b.fab.time } else b1
      b2.openBarrier (keyField t) (keyCore t)

/-! ### Camp reset (R228) -/

/-- Every thread of a camp stops, without a completion; its JOBs and descriptors' work leave. -/
def Block.threadCampReset (b : Block) (c : Nat) : Block :=
  (b.tc.jobs.filter fun j => j.camp == c).foldl (fun b j =>
    let n := (j.threadKeys.filter fun t => (b.thread t).live).length
    (b.count F.campStopped n).forgetJob j) b

end Sys2Proof.Machine
end

