-- ==== Sys2Proof/Machine/Vector.lean ====
section
/-! DEFINITION. The vector words of the thread cores: element-wise operations (R203, R204, R208), reductions by the fixed tree
(R205), compares, and the online-softmax update (R210). -/
namespace Sys2Proof.Machine

/-! ### Elements -/

/-- The elements of a register at a width. -/
def elemsOf (ew : Nat) : Nat := if ew = 1 then 32 else 64
def elemBytes (ew : Nat) : Nat := if ew = 1 then 4 else 2

/-- A register from its elements. -/
def vPack (bytes : Nat) (xs : List Nat) : BitVec 1024 :=
  BitVec.ofNat 1024 (packBits (xs.mapIdx fun i x => (8 * bytes * i, 8 * bytes, x)))

-- Log entry 66 (DEDUCED).
/-- A sign change or magnitude; a NaN gives the one NaN. -/
def fpSign (f : Nat → Nat) (x : Nat) : Fp := ⟨if f32IsNan x then nan32 else f x, if f32IsNan x then 8 else 0⟩

/-- fp32 element operations (R208): a, b the operands, c the old destination. -/
def fpElem (op a b c : Nat) : Fp :=
  match op with
  | 0 => fpAdd a b
  | 1 => fpSub a b
  | 2 => fpMul a b
  | 3 => fpFma a b c
  | 4 => fpMaxMin true a b
  | 5 => fpMaxMin false a b
  | 6 => fpExp a
  | 7 => fpOpen Config.rsqrt true a
  | 8 => ⟨a, 0⟩
  | 9 => fpSign f32Flip a
  | _ => fpSign f32Abs a

/-- bf16 element operations. -/
def bfElem (op a b c : Nat) : Fp :=
  let x := bfWide a
  let y := bfWide b
  match op with
  | 0 => bfResult [x, y] (dyAdd (f32Val x) (f32Val y)) (f32Add x y)
  | 1 => bfResult [x, y] (dyAdd (f32Val x) (f32Val (f32Flip y))) (f32Sub x y)
  | 2 => bfResult [x, y] (dyMul (f32Val x) (f32Val y)) (f32Mul x y)
  | 3 => bfFma a b c
  | 8 => ⟨a, 0⟩
  | o => bfFrom (fpElem o x y (bfWide c))

/-- i32 element operations, wrapping. -/
def intElem (op a b c : Nat) : Nat :=
  let x := ofTwos 32 a
  let y := ofTwos 32 b
  toTwos 32 (match op with
    | 0 => x + y
    | 1 => x - y
    | 2 => x * y
    | 3 => x * y + ofTwos 32 c
    | 4 => max x y
    | 5 => min x y
    | 8 => x
    | 9 => -x
    | _ => |x|)

-- Log entry 66 (DEDUCED).
/-- An element operation by type. -/
def vElemOp (ty op a b c : Nat) : Fp :=
  match ty with
  | 0 => fpElem op a b c
  | 1 => bfElem op a b c
  | _ => ⟨intElem op a b c, 0⟩

-- Log entry 66 (DEDUCED).
/-- A conversion (R208, type 3). -/
def vConvert (op a : Nat) : Fp :=
  match op with
  | 0 => ⟨if bfNan a then nan32 else bfWide a, fpFlags [bfWide a] 0 true false⟩
  | 1 => bfResult [a] (f32Val a) a
  | 2 => fpToInt 32 a
  | _ => ⟨f32OfInt (ofTwos 32 a), 0⟩

-- Log entry 62 (DEDUCED).
/-- One vector result: elements below VL by `f` where the guard is 1 and unchanged where it is 0, zeros from VL upward; and the
flags of the elements computed. -/
def vMap (bytes vl : Nat) (guard : W64) (old : BitVec 1024) (f : Nat → Fp) : BitVec 1024 × Nat :=
  let xs := (List.range (128 / bytes)).map fun i =>
    if vl ≤ i then (⟨0, 0⟩ : Fp) else if guard.getLsbD i then f i else ⟨vElem old bytes i, 0⟩
  (vPack bytes (xs.map (·.val)), xs.foldl (fun m x => m ||| x.flags) 0)

/-- VOP and VOPS with the second operand's elements given. -/
def vResult (w vl ew : Nat) (guard : W64) (old a : BitVec 1024) (b : Nat → Nat) : BitVec 1024 × Nat :=
  let n := elemBytes ew
  if wVty w = 3 then
    match wVop w with
    | 0 => vMap 4 vl guard old fun i => vConvert 0 (vElem a 2 i)
    | 1 => vMap 2 vl guard old fun i => vConvert 1 (vElem a 4 i)
    | o => vMap 4 vl guard old fun i => vConvert o (vElem a 4 i)
  else vMap n vl guard old fun i => vElemOp (wVty w) (wVop w) (vElem a n i) (b i) (vElem old n i)

/-- VOP. -/
def vopEff (t : Nat) (b : Block) : Block :=
  b.runWord t (ofMajor 0x20) fun w th b =>
    let r := vResult w th.vl th.ew (th.rp (wPg w)) (th.rv (wVd w)) (th.rv (wVs1 w)) fun i => vElem (th.rv (wVs2 w)) (elemBytes th.ew) i
    b.compute t w th ((th.wv (wVd w) r.1).flag r.2)

/-- VOPS: g[RS] in every element of the second operand. -/
def vopsEff (t : Nat) (b : Block) : Block :=
  b.runWord t (ofMajor 0x21) fun w th b =>
    let r := vResult w th.vl th.ew (th.rp (wPg w)) (th.rv (wVd w)) (th.rv (wVs1 w)) fun _ => th.gn (wVrs w) % 2 ^ (8 * elemBytes th.ew)
    b.compute t w th ((th.wv (wVd w) r.1).flag r.2)

/-- The elements below VL, widened for bf16. -/
def vList (v : BitVec 1024) (ty vl ew : Nat) : List Nat :=
  (List.range vl).map fun i => if ty = 1 then bfWide (vElem v 2 i) else vElem v (elemBytes ew) i

/-- The sum of elements by the fixed tree of N positions; absent ones count as +0 (R205). -/
def treeSum (n : Nat) (xs : List Nat) : Nat := treeFold f32Add 0 6 (xs ++ List.replicate (n - xs.length) 0)

-- Log entry 62 (DEDUCED).
/-- A reduction's 64-bit result and flags (R208). -/
def vReduce (w vl ew : Nat) (v : BitVec 1024) : W64 × Nat :=
  let ty := wVty w
  let xs := vList v ty vl ew
  if ty = 2 then
    let lo := match wVop w with
      | 0 => toTwos 32 ((xs.map (ofTwos 32)).foldl (· + ·) 0)
      | o => match xs.map (ofTwos 32) with
        | [] => (Config.reduceEmpty (wVfunc w)).toNat
        | x :: r => toTwos 32 (r.foldl (if o = 4 then max else min) x)
    (BitVec.ofNat 64 ((Config.reduceHigh lo).toNat * 2 ^ 32 + lo), 0)
  else match wVop w with
    | 0 =>
      let r := treeSum (elemsOf ew) xs
      (BitVec.ofNat 64 r, fpFlags xs r false false)
    | o => match xs with
      | [] => (BitVec.ofNat 64 (Config.reduceEmpty (wVfunc w)).toNat, 0)
      | x :: r => (BitVec.ofNat 64 (oneNan (r.foldl (fun m y => (fpMaxMin (o == 4) m y).val) x)), nanFlags xs)

/-- VRED. -/
def vredEff (t : Nat) (b : Block) : Block :=
  b.runWord t (ofMajor 0x22) fun w th b =>
    let r := vReduce w th.vl th.ew (th.rv (wVs1 w))
    b.compute t w th ((th.wg (wVrs w) r.1).flag r.2)

-- Log entry 64 (DEDUCED).
/-- One element's compare: EQ, LT, LE. -/
def vCompare (ty op a b : Nat) : Bool :=
  if ty = 2 then
    match op with
    | 0 => a == b
    | 1 => decide (ofTwos 32 a < ofTwos 32 b)
    | _ => decide (ofTwos 32 a ≤ ofTwos 32 b)
  else
    match op with
    | 0 => f32EqB a b
    | 1 => f32Lt a b
    | _ => f32Le a b

-- Log entries 62 (DEDUCED), 64 (DEDUCED).
/-- VCMP: bit i of the predicate, unchanged where the guard is 0, 0 from VL upward. -/
def vcmpEff (t : Nat) (b : Block) : Block :=
  b.runWord t (ofMajor 0x23) fun w th b =>
    let ty := wVty w
    let xs := vList (th.rv (wVs1 w)) ty th.vl th.ew
    let ys := vList (th.rv (wVs2 w)) ty th.vl th.ew
    let guard := th.rp (wPg w)
    let old := th.rp (wVd w % 8)
    let bit (i : Nat) (xy : Nat × Nat) : Nat × Nat × Nat :=
      (i, 1, if guard.getLsbD i then (if vCompare ty (wVop w) xy.1 xy.2 then 1 else 0) else if old.getLsbD i then 1 else 0)
    b.compute t w th ((th.wp (wVd w % 8) (BitVec.ofNat 64 (packBits ((xs.zip ys).mapIdx bit)))).flag (if ty = 2 then 0 else nanFlags (xs ++ ys)))

/-! ### Online softmax (R210) -/

/-- What SMUP computes: the weights, m', l', alpha, and the flags. -/
structure Smup where
  ps : List Nat
  m : Nat
  l : Nat
  alpha : Nat
  flags : Nat
deriving DecidableEq, Repr

def negInf32 : Nat := 0xFF800000

/-- A NaN or plus infinity. -/
def badStat (x : Nat) : Bool := f32IsNan x || (f32IsInf x && !f32Neg x)

-- Log entry 65 (DEDUCED).
/-- SMUP over the scores, with the active positions, from the statistics m and l. -/
def smup (scores : List Nat) (active : List Bool) (m l : Nat) : Smup :=
  let live := ((scores.zip active).filter (·.2)).map (·.1)
  if live.any badStat || badStat m || badStat l then
    ⟨scores.map fun _ => nan32, nan32, nan32, nan32, 1⟩
  else
    let top := live.foldl (fun x y => (fpMaxMin true x y).val) negInf32
    let m' := (fpMaxMin true m top).val
    let e (x : Nat) : Nat := f32ExpUlp (f32Sub x m')
    let alpha := if m' = negInf32 then 0x3F800000 else e m
    let ps := (scores.zip active).map fun sa => if sa.2 = true ∧ m' ≠ negInf32 then e sa.1 else 0
    ⟨ps, m', f32Fma l alpha (treeSum 32 ps), alpha, 0⟩

-- Log entries 62 (DEDUCED), 65 (DEDUCED).
/-- SMUP. -/
def smupEff (t : Nat) (b : Block) : Block :=
  b.runWord t (ofMajor 0x24) fun w th b =>
    let rs := wVrs w
    let scores := (List.range th.vl).map (vElem (th.rv (wVs1 w)) 4)
    let active := (List.range th.vl).map fun i => (th.rp (wPg w)).getLsbD i
    let r := smup scores active (th.gn rs % 2 ^ 32) (th.gn rs / 2 ^ 32)
    let th1 := (th.wv (wVd w) (vPack 4 r.ps)).wg rs (BitVec.ofNat 64 (r.l * 2 ^ 32 + r.m))
    b.compute t w th ((th1.wg (rs + 1) (BitVec.ofNat 64 r.alpha)).flag r.flags)

end Sys2Proof.Machine
end

