-- ==== Sys2Proof/Machine/Arrays.lean ====
section
/-! DEFINITION. Chapter 09: array commands of threads (R211, R239), tile programs word by word (R237, R238), the units, errors
(R247), stalls (R249), and what an array draws (R243). -/
namespace Sys2Proof.Machine

/-! ### Status and the end of programs (R248) -/

/-- STATE. -/
def Block.arrState (b : Block) (f n : Nat) : Nat :=
  let x := b.array f n
  if x.err ≠ 0 then 3 else if b.arrIdle f n then 0 else if x.stall ≠ 0 then 2 else 1

-- Log entry 115 (DEDUCED).
/-- The status word (R248). -/
def Block.arrStatus (b : Block) (f n : Nat) : Nat :=
  let x := b.array f n
  packBits [(0, 2, b.arrState f n), (2, 1, x.bank), (3, 1, if x.next.isSome then 1 else 0), (4, 9, x.index), (13, 2, x.active.state),
    (16, 3, x.shadow.state), (20, 4, x.stall), (24, 4, x.err), (28, 1, if x.aborted then 1 else 0), (29, 1, if x.nanSeen then 1 else 0),
    (32, 32, x.words)]

/-- A thread sees a program of its finish, and its fence may end (R214). -/
def Block.seeDone (b : Block) (n t : Nat) : Block :=
  (b.setThread t { b.thread t with progs := dropFirst (· == n) (b.thread t).progs }).wakeFence t

/-- A program has finished or been aborted, and with it the queued ones that aborts have cleared (R240): their threads see it. -/
def Block.programDone (b : Block) (f n : Nat) : Block :=
  let x := b.array f n
  ((x.starter.toList.map (·.1)) ++ x.dropped).foldl (fun b t => b.seeDone n t) (b.setArray f n { x with starter := none, dropped := [] })

/-- The threads of the array's pod that wait for it get its status word (R239). -/
def Block.wakeWaiters (b : Block) (f n : Nat) : Block :=
  let v := b.arrStatus f n
  (List.range 288).foldl (fun b i =>
    let t := threadKey f (72 * (n / 3) + i / 4) (i % 4)
    match (b.thread t).wait with
    | .array m rd =>
      if m = n then b.setThread t { (b.thread t).wg rd (BitVec.ofNat 64 v) with wait := .none, gp := setBit (b.thread t).gp rd false } else b
    | _ => b) b

/-- After a change: note stalls, and once the array is IDLE end its program; a bank queued after the last word starts, or the waiters
wake. -/
def Block.settleArray (b : Block) (f n : Nat) : Block :=
  let b1 := b.setArray f n ((b.array f n).restall b.fab.time)
  if b1.arrIdle f n then
    let x := b1.array f n
    let b2 := (if x.starter.isSome ∧ x.nanSeen = true then b1.bump (F.nanPrograms f) else b1).programDone f n
    match x.next with
    | some (start, t, pc) =>
      let y := b2.array f n
      b2.setArray f n { y with running := true, bank := 1 - y.bank, index := start, next := none, err := 0, aborted := false, starter := some (t, pc) }
    | none => b2.wakeWaiters f n
  else b1

/-! ### Errors (R247) -/

-- Log entry 106 (DEDUCED).
/-- The fault that an error is for a JOB. -/
def errFault (err : Nat) : Nat := match err with | 2 => 3 | 3 => 4 | _ => 1

/-- An error of an array that resident kernels hold: firmware ends the rows of the kernel that started the program, TIER_FAIL (R106) or
INTERNAL (R247). -/
def Block.kernelArrError (b : Block) (t err body : Nat) : Block :=
  match b.job? (b.thread t).job with
  | some j => if err = 7 then b.endRows j 0x31 body else b.kernelFault j 1
  | none => b

-- Log entry 106 (DEDUCED).
/-- An error stops the program; a JOB faults at the thread and PC of the ARR.RUN, or ends TIER_FAIL. -/
def Block.arrErrorOf (b : Block) (f n err addr kind : Nat) : Block :=
  let x := b.array f n
  let b1 := ((b.setArray f n { x with running := false, next := none, err := err, headStall := 0 }).bump F.arrErrorsTotal).bump (F.arrayErrors f)
  let b2 := match x.starter with
    | some (t, pc) =>
      if x.kind ≠ 1 then b1.kernelArrError t err (failBody addr f)
      else if err = 7 then b1.setJob x.job fun j => if j.ended = 0 ∧ j.fault.isNone then { j with phase := 3, ended := 0x31 + 1, body := failBody addr f } else j
      else b1.faultBy (0x140 + n) kind t (errFault err) pc addr
    | none => b1
  b2.settleArray f n

-- Log entry 111 (DEDUCED).
def Block.arrError (b : Block) (f n err addr : Nat) : Block := b.arrErrorOf f n err addr (b.deniedKind (b.arrCamp f n) addr)

/-- A fetch from an object with a SUBSTITUTE is denied; the spec names no KIND for its PROT_DENIED: a free value. -/
def Block.arrBarred (b : Block) (f n addr : Nat) : Block := b.tick.arrErrorOf f n 3 addr (Config.deniedKind b.free).toNat

/-! ### Words (R237) -/

def wordOp (w : Nat) : Nat := bitsOf w 60 4

/-- Is a word one of the table's, with no reserved bit set? -/
def arrWordOk (w : Nat) : Bool :=
  match wordOp w with
  | 0 | 2 | 5 | 7 => bitsOf w 0 60 == 0
  | 1 => bitsOf w 57 3 != 7 && bitsOf w 33 24 == 0
  | 3 | 4 => !bitAt w 59 && bitsOf w 32 8 == 0
  | _ => false

def wRows (w : Nat) : Nat := bitsOf w 50 9 + 1
def wBase (w : Nat) : Nat := bitsOf w 41 9
def wFlag (w : Nat) : Bool := bitAt w 40

/-- The unified address of an offset of the holder's field part. -/
def holderAddr (f off : Nat) : Nat := unifiedBase + f * 2 ^ 40 + off

/-- The word at the head; past index 511 the sequencer acts as at END. -/
def ArrSt.head (x : ArrSt) : Nat :=
  if 512 ≤ x.index then 7 * 2 ^ 60 else (sget (fun _ => 0) x.banks (512 * x.bank + x.index)).toNat

/-- Act on the word at the head of a running program if it has the row's OP; a word that breaks the table stops the program. -/
def Block.headWord (b : Block) (f n op : Nat) (k : Nat → ArrSt → Block → Block) : Block :=
  let x := b.array f n
  if x.running = false then b
  else if arrWordOk x.head = false then b.arrError f n 1 0
  else if wordOp x.head ≠ op then b
  else k x.head x b

-- Log entry 115 (DEDUCED).
/-- The word is issued: the sequencer moves on. -/
def ArrSt.issued (x : ArrSt) : ArrSt := { x with index := x.index + 1, words := (x.words + 1) % 2 ^ 32, headStall := 0 }

-- Log entry 108 (DEDUCED).
/-- The word waits at the head with a STALL code. -/
def Block.waitHead (b : Block) (f n stall : Nat) : Block := (b.setArray f n { b.array f n with headStall := stall }).settleArray f n

/-- Does a unit hold its grant, or the array a standing one (R243)? -/
def Block.arrGrant (b : Block) (f n engine : Nat) : Bool :=
  b.covers f (arrAsker n engine) (if engine = 0 then 8 else 28) || b.covers f (arrAsker n 2) 36

/-- A word without its grant: the unit asks for it, and the word waits with STALL 1. -/
def Block.askGrant (b : Block) (f n engine amount : Nat) : Block :=
  let b1 := if b.waits f (arrAsker n engine) then b else b.request f (arrAsker n engine) (b.arrClass f n) (b.arrCamp f n) amount false
  b1.waitHead f n 1

/-- An access of an array joins the operations in flight (R245). -/
def Block.arrIssue (b : Block) (f n tag : Nat) (kind : MemKind) (addrs : List Nat) (width : Nat) (poison : Bool) : Block :=
  let camp := b.arrCamp f n
  let o : MemOp := ⟨b.tc.nextOp, none, camp, sget (fun _ => 0) b.fab.epochs camp, kind, addrs, width, poison, .none, f, false, 0, false, [], false, 0,
    some (arrKey f n), tag, 0, false, 0⟩
  let b1 : Block := { b with tc := { b.tc with ops := b.tc.ops ++ [o], nextOp := b.tc.nextOp + 1 } }
  b1.noteOp o

-- Log entry 106 (DEDUCED).
/-- May a JOB's array not fetch from a granule, because its object has a SUBSTITUTE (R104, R245)? -/
def Block.fetchBarred (b : Block) (f n a len : Nat) : Bool :=
  b.arrHolder f n == 1 && (granuleRuns a len 8).any fun r =>
    match place r.1 with
    | .unified g i _ => decide ((b.obj g (b.dirEntry g i).object).substitute ≠ 0) && decide ((b.dirEntry g i).state ≠ 0)
    | _ => false

-- Log entry 107 (DESIGN CHOICE).
/-- LOAD_TILE. -/
def loadTileEff (f n : Nat) (b : Block) : Block :=
  b.headWord f n 1 fun w x b =>
    let fmt := bitsOf w 57 3
    let a := holderAddr f (128 * bitsOf w 0 33)
    let b := b.setArray f n { x with shiftIdle := 0 }
    let x := b.array f n
    if x.shift.isSome ∨ ¬ (x.shadow.state = 0 ∨ x.shadow.state = 2 ∨ x.shadow.state = 3) ∨ b.rspRoom f (0x140 + n) = false then b.waitHead f n 0
    else if b.arrGrant f n 0 = false then b.askGrant f n 0 8
    else if b.fetchBarred f n a (imageBytes fmt) then b.arrBarred f n a
    else
      let b1 := b.setArray f n { x.issued with shift := some (fmt, a), shadow := ⟨4, fmt, 0⟩ }
      ((granuleRuns a (imageBytes fmt) 8).foldl (fun b r => b.arrIssue f n 0 .read [r.1] r.2 false) b1).settleArray f n

/-- SWAP. -/
def swapEff (f n : Nat) (b : Block) : Block :=
  b.headWord f n 2 fun _ _ b =>
    let b := b.absorb f n
    let x := b.array f n
    if x.shift.isSome ∨ (b.tc.ops.any fun o => o.array == some (arrKey f n) && decide (1 ≤ o.tag) && decide (o.tag < 1024)) then b.waitHead f n 0
    else if x.shadow.state = 1 ∨ x.shadow.state = 3 then (b.setArray f n { x.issued with active := x.shadow, shadow := Tile.empty }).settleArray f n
    else b.arrError f n 6 0

/-- Do two runs of rows meet? -/
def rowsMeet (a n c m : Nat) : Bool := decide (a < c + m) && decide (c < a + n)

-- Log entries 107 (DESIGN CHOICE), 108 (DEDUCED), 114 (DEDUCED).
/-- STREAM: a DRAIN has read its rows as it was issued, so an earlier one never holds a STREAM up (R238). -/
def streamEff (f n : Nat) (b : Block) : Block :=
  b.headWord f n 3 fun w x b =>
    let rows := wRows w
    let base := wBase w
    let a := holderAddr f (256 * bitsOf w 0 32)
    let b := (b.setArray f n { x with streamIdle := 0 }).absorb f n
    let x := b.array f n
    let entering := b.tc.ops.any fun o => o.array == some (arrKey f n) && decide (1 ≤ o.tag) && decide (o.tag < 1024)
    if entering = true ∨ b.rspRoom f (0x140 + n) = false then b.waitHead f n 0
    else if b.arrGrant f n 1 = false then b.askGrant f n 1 28
    else if ¬ (x.active.state = 1 ∨ x.active.state = 3) then b.arrError f n 6 0
    else if 512 < base + rows then b.arrError f n 4 0
    else if wFlag w = false ∧ (List.range rows).any (fun r => (sget (fun _ => none) x.acc (base + r)).isNone) = true then b.arrError f n 5 0
    else if b.fetchBarred f n a (256 * rows) then b.arrBarred f n a
    else
      let b1 := b.setArray f n { x.issued with flight := x.flight ++ [(base, rows, wFlag w)] }
      ((List.range rows).foldl (fun b r => b.arrIssue f n (1 + r) .read [a + 256 * r] 256 false) b1).settleArray f n

-- Log entries 107 (DESIGN CHOICE), 109 (DEDUCED).
/-- DRAIN: its rows are read as it is issued, and their writes go out. -/
def drainEff (f n : Nat) (b : Block) : Block :=
  b.headWord f n 4 fun w x b =>
    let rows := wRows w
    let base := wBase w
    let a := holderAddr f (256 * bitsOf w 0 32)
    let row (r : Nat) : Option AccRow := sget (fun _ => none) x.acc (base + r)
    if x.drain.isSome ∨ x.flight.any (fun s => rowsMeet base rows s.1 s.2.1) = true ∨ b.rspRoom f (0x140 + n) = false then b.waitHead f n 0
    else if 512 < base + rows then b.arrError f n 4 0
    else if (List.range rows).any (fun r => (row r).isNone) then b.arrError f n 5 0
    else
      let idle := if b.holds f (arrAsker n 1) then b.fab.time + 1 else 0
      let b1 := b.setArray f n { x.issued with drain := some (base, rows), streamIdle := idle }
      ((List.range rows).foldl (fun b r =>
        let v := (row r).getD ⟨0, false⟩
        let at_ := if wFlag w then [a + 512 * r, a + 512 * r + 256] else [a + 256 * r]
        b.arrIssue f n (1024 + r) (.write (drainRow (wFlag w) v.data)) at_ 256 v.poison) b1).settleArray f n

-- Log entry 111 (DEDUCED).
/-- The queued bank becomes active at its start index; the program before it has finished. -/
def Block.switchBank (b : Block) (f n : Nat) : Block :=
  match (b.array f n).next with
  | some (start, t, pc) =>
    let b1 := (if (b.array f n).nanSeen then b.bump (F.nanPrograms f) else b).programDone f n
    let x := b1.array f n
    (b1.setArray f n { x.issued with bank := 1 - x.bank, index := start, next := none, starter := some (t, pc) }).settleArray f n
  | none => b

/-- CHAIN. -/
def chainEff (f n : Nat) (b : Block) : Block :=
  b.headWord f n 5 fun _ x b =>
    if x.next.isNone then b.waitHead f n 5
    else if x.shift.isSome then b.waitHead f n 6
    else b.switchBank f n

-- Log entry 111 (DEDUCED).
/-- END: with a bank queued, as CHAIN; otherwise the sequencer stops. Past index 511 no word is issued. -/
def arrayEndEff (f n : Nat) (b : Block) : Block :=
  b.headWord f n 7 fun _ x b =>
    if x.next.isSome then (if x.shift.isSome then b.waitHead f n 6 else b.switchBank f n)
    else
      let y := if 512 ≤ x.index then { x with headStall := 0 } else { x with words := (x.words + 1) % 2 ^ 32, headStall := 0 }
      let idle := if b.holds f (arrAsker n 1) = true ∧ x.streamIdle = 0 then b.fab.time + 1 else x.streamIdle
      (b.setArray f n { y with running := false, streamIdle := idle }).settleArray f n

/-- NOP. -/
def arrayNopEff (f n : Nat) (b : Block) : Block := b.headWord f n 0 fun _ x b => (b.setArray f n x.issued).settleArray f n

/-! ### The units -/

/-- SHIFT_COMPLETE: the whole image has arrived; the shadow is VALID, or POISONED where the fetch returned poison. -/
def shiftCompleteEff (f n : Nat) (b : Block) : Block :=
  let x := b.array f n
  let mine (o : MemOp) : Bool := o.array == some (arrKey f n) && o.tag == 0
  let ops := b.tc.ops.filter mine
  match x.shift with
  | none => b
  | some (fmt, a) =>
    if ops.any (fun o => !o.performed) then b
    else
      let img := ops.foldr (fun o r => o.result % 2 ^ (8 * o.width) + 2 ^ (8 * o.width) * r) 0
      let bad := ops.any (·.resultPoison)
      let idle := if b.holds f (arrAsker n 0) then b.fab.time + 1 else 0
      let b1 := (b.removeOps mine).setArray f n
        { x with shift := none, shadow := ⟨if bad then 3 else 1, fmt, img⟩, shiftIdle := idle }
      let b2 := b1.bump (F.tilesLoaded f)
      let b3 := if bad then ((b2.bump F.tilesPoisonedTotal).bump (F.tilesPoisoned f)).raise 0x0180 f (b.arrCamp f n)
        (packBits [(0, 8, n), (8, 8, fmt), (64, 64, a)]) else b2
      b3.settleArray f n

/-- STREAM_DONE: the rows of the oldest STREAM have all left the array. -/
def streamDoneEff (f n : Nat) (b : Block) : Block :=
  let b := b.absorb f n
  let x := b.array f n
  let entering := b.tc.ops.any fun o => o.array == some (arrKey f n) && decide (1 ≤ o.tag) && decide (o.tag < 1024)
  if x.flight.isEmpty = true ∨ (x.flight.length = 1 ∧ entering = true) then b
  else (b.setArray f n { x with flight := x.flight.drop 1 }).settleArray f n

/-- DRAIN_DONE: every row of the DRAIN is written and acknowledged. -/
def drainDoneEff (f n : Nat) (b : Block) : Block :=
  let x := b.array f n
  if x.drain.isNone ∨ (b.tc.ops.any fun o => o.array == some (arrKey f n) && decide (1024 ≤ o.tag)) then b
  else (b.setArray f n { x with drain := none }).settleArray f n

/-- ABORT_COMPLETE: rows inside the array have left and issued writes are acknowledged: every accumulator row is not VALID, and the
array is IDLE with ABORTED. -/
def abortCompleteEff (f n : Nat) (b : Block) : Block :=
  let x := b.array f n
  if x.aborting = false ∨ (b.tc.ops.any fun o => o.array == some (arrKey f n)) then b
  else (b.setArray f n { x with aborting := false, aborted := true, acc := [], flight := [] }).settleArray f n

/-- The address that a stalled unit waits for: the first access of the stall's unit that is not performed. -/
def Block.stallAddr (b : Block) (f n stall : Nat) : Nat :=
  let mine (o : MemOp) : Bool := o.array == some (arrKey f n) && !o.performed &&
    match stall with
    | 2 => o.tag == 0
    | 3 => decide (1 ≤ o.tag) && decide (o.tag < 1024)
    | _ => decide (1024 ≤ o.tag)
  if stall < 2 ∨ 4 < stall then 0 else ((b.tc.ops.find? mine).map fun o => o.addrs.headD 0).getD 0

/-- ARRAY_STALL: STATE STALLED longer than STALL_EVENT_US, once per stall (R249). -/
def arrayStallEff (f n : Nat) (b : Block) : Block :=
  let x := b.array f n
  let us := (b.fab.time - (x.stallAt - 1)) / 1000
  if b.arrState f n = 2 ∧ x.stallAt ≠ 0 ∧ x.stallRaised = false ∧ max 1 (b.fget F.arrConfigStallEventUs) < us then
    (b.setArray f n { x with stallRaised := true }).raise 0x0930 f (b.arrCamp f n)
      (packBits [(0, 8, n), (8, 8, x.stall), (16, 16, x.index), (32, 32, us), (64, 64, b.stallAddr f n x.stall)])
  else b

/-- A unit's grant has idled for HOLD_US without its word at the head: it is released. -/
def Block.holdOver (b : Block) (f n engine op since : Nat) : Block :=
  let x := b.array f n
  if since ≠ 0 ∧ since - 1 + b.fget F.arrConfigHoldUs * 1000 ≤ b.fab.time ∧ ¬ (x.running = true ∧ wordOp x.head = op) then
    b.release f (arrAsker n engine)
  else b

/-- ARRAY_HOLD_EXPIRY. -/
def arrayHoldExpiryEff (f n : Nat) (b : Block) : Block :=
  let b1 := b.holdOver f n 0 1 (b.array f n).shiftIdle
  let b2 := b1.holdOver f n 1 3 (b1.array f n).streamIdle
  let x := b2.array f n
  b2.setArray f n { x with shiftIdle := if b2.holds f (arrAsker n 0) then x.shiftIdle else 0
                           streamIdle := if b2.holds f (arrAsker n 1) then x.streamIdle else 0 }

/-- One µs of stall at every array (R251). -/
def Block.tickArrays (b : Block) : List (Nat × ArrSt) → Block
  | [] => b
  | (k, x) :: r =>
    let f := k / 12
    let b1 := if bitAt x.late 2 then b.bump (F.shiftStallUs f) else b
    let b2 := if bitAt x.late 3 || bitAt x.late 4 then b1.bump (F.actStallUs f) else b1
    Block.tickArrays (if x.headStall = 1 then b2.bump (F.rationStallUs f) else b2) r

/-! ### Commands of threads (R211, R239) -/

/-- May a thread command an array: one of its JOB's mask, or one that its camp's resident kernels hold (R241)? -/
def Block.mayCommand (b : Block) (th : ThreadSt) (f n : Nat) : Bool :=
  match b.job? th.job with
  | some j => if j.kernel then decide (b.arrHolder f n = 2) && decide (b.arrCamp f n = j.camp) else bitAt j.arrays n
  | none => false

/-- An ARR word: a poisoned operand is consumed; SEL names an array of the thread's pod, which the thread may command and which must be ready. -/
def Block.arrCommand (b : Block) (t sfunc : Nat) (second : Bool) (k : Nat → Nat → Nat → ThreadSt → Block → Block) : Block :=
  b.runWord t (ofSys sfunc) fun w th b =>
    let f := keyField t
    let sel := th.gn (wRs1 w)
    let n := 3 * (keyCore t / 72) + sel % 4
    let answer (b : Block) (v : Nat) : Block :=
      b.setThread t { ((b.thread t).wg (wRd w) (BitVec.ofNat 64 v)).next with gp := setBit (b.thread t).gp (wRd w) false }
    if th.gBad (wRs1 w) ∨ (second = true ∧ th.gBad (wRs2 w) = true) then b.fault t 5 0
    else if sel % 4 = 3 then answer b 4
    else if b.mayCommand th f n = false then answer b 2
    else if bitAt ((b.fieldSt f).shown (b.fieldSt f).arrays) n = false then answer b 3
    else k w n sel th b

/-- An ARR word answers with a status or a word. -/
def Block.arrAnswer (b : Block) (t w v : Nat) : Block :=
  b.setThread t { ((b.thread t).wg (wRd w) (BitVec.ofNat 64 v)).next with gp := setBit (b.thread t).gp (wRd w) false }

/-- BANK_BUSY: nothing is done, and it is counted (R244). -/
def Block.bankBusy (b : Block) (t w : Nat) : Block := (b.arrAnswer t w 1).bump (F.bankBusy (keyField t))

/-- ARR.PUT. -/
def arrPutEff (t : Nat) (b : Block) : Block :=
  b.arrCommand t 0x020 true fun w n sel th b =>
    let f := keyField t
    let x := b.array f n
    let bank := bitsOf sel 2 1
    if b.arrIdle f n = false ∧ bank = x.bank then b.bankBusy t w
    else (b.setArray f n { x with banks := sset (fun _ => 0) x.banks (512 * bank + bitsOf sel 3 9) (th.rg (wRs2 w)) }).arrAnswer t w 0

-- Log entry 111 (DEDUCED).
/-- ARR.RUN. -/
def arrRunEff (t : Nat) (b : Block) : Block :=
  b.arrCommand t 0x021 true fun w n sel th b =>
    let f := keyField t
    let x := b.array f n
    let bank := bitsOf sel 2 1
    let start := th.gn (wRs2 w) % 512
    let mine (b : Block) : Block := (b.setThread t { b.thread t with progs := (b.thread t).progs ++ [n] }).arrAnswer t w 0
    if b.arrIdle f n then
      mine (b.setArray f n { x with running := true, bank := bank, index := start, next := none, words := 0, err := 0, aborted := false,
                                    nanSeen := false, starter := some (t, th.pc), headStall := 0 })
    else if bank = x.bank ∨ x.next.isSome = true then b.bankBusy t w
    else mine (b.setArray f n { x with next := some (start, t, th.pc) })

/-- ARR.ABORT. -/
def arrAbortEff (t : Nat) (b : Block) : Block :=
  b.arrCommand t 0x022 false fun w n _ _ b =>
    let f := keyField t
    (if (b.array f n).aborting then b.setArray f n (b.array f n).unqueue else b.abortArray f n).arrAnswer t w 0

/-- ARR.STAT. -/
def arrStatEff (t : Nat) (b : Block) : Block :=
  b.arrCommand t 0x023 false fun w n _ _ b => b.arrAnswer t w (b.arrStatus (keyField t) n)

/-- ARR.WAIT. -/
def arrWaitEff (t : Nat) (b : Block) : Block :=
  b.arrCommand t 0x024 false fun w n _ th b =>
    if b.arrIdle (keyField t) n then b.arrAnswer t w (b.arrStatus (keyField t) n)
    else b.setThread t { th.next with wait := .array n (wRd w) }

end Sys2Proof.Machine
end

