-- ==== Sys2Proof/Machine/Trees.lean ====
section
/-! DEFINITION. Merge trees of fixed order (R287, R308): ranks 2i and 2i + 1 of a level combine, the lower one first, and a rank without
a partner passes up. -/
namespace Sys2Proof.Machine

/-- How many ranks a level has over `n` leaves. -/
def treeCount (n lvl : Nat) : Nat := cdiv n (2 ^ lvl)

/-- A node of a tree. -/
def findNode {α : Type} (ns : List (TreeNode α)) (src lvl idx : Nat) : Option (TreeNode α) :=
  ns.find? fun x => x.src == src && x.lvl == lvl && x.idx == idx

/-- The nodes without two. -/
def dropNodes {α : Type} (ns : List (TreeNode α)) (src lvl i j : Nat) : List (TreeNode α) :=
  ns.filter fun x => !(x.src == src && x.lvl == lvl && (x.idx == i || x.idx == j))

/-- Merge pair `i` of a level where both stand at their merge node, or pass a lone rank up. Answers the nodes and the merges made. A node
with an even index stands at its merge node already. -/
def mergePair {α : Type} (comb : α → α → α) (n src lvl : Nat) (x : List (TreeNode α) × Nat) (i : Nat) : List (TreeNode α) × Nat :=
  let up (v : α) : TreeNode α := ⟨src, lvl + 1, i, decide (i % 2 = 0), v⟩
  match findNode x.1 src lvl (2 * i) with
  | none => x
  | some a =>
    if treeCount n lvl ≤ 2 * i + 1 then (dropNodes x.1 src lvl (2 * i) (2 * i) ++ [up a.val], x.2)
    else match findNode x.1 src lvl (2 * i + 1) with
      | some c => if a.arrived && c.arrived then (dropNodes x.1 src lvl (2 * i) (2 * i + 1) ++ [up (comb a.val c.val)], x.2 + 1) else x
      | none => x

/-- Merge all that can merge, level by level; 7 levels serve 96 ranks. -/
def treeMerge {α : Type} (comb : α → α → α) (n src : Nat) (ns : List (TreeNode α)) : List (TreeNode α) × Nat :=
  (List.range 7).foldl (fun x lvl =>
    if treeCount n lvl ≤ 1 then x
    else (List.range (cdiv (treeCount n lvl) 2)).foldl (mergePair comb n src lvl) x) (ns, 0)

/-- The root's record, once the tree is merged. -/
def treeRoot {α : Type} (n src : Nat) (ns : List (TreeNode α)) : Option α :=
  (ns.find? fun x => x.src == src && decide (treeCount n x.lvl = 1)).map (·.val)

/-- A node's record reaches its merge node. -/
def treeArrive {α : Type} (ns : List (TreeNode α)) (src lvl idx : Nat) : List (TreeNode α) :=
  ns.map fun x => if x.src == src && x.lvl == lvl && x.idx == idx then { x with arrived := true } else x

/-- The records of many members in order, as one tree (every record at hand). -/
def treeOf {α : Type} (comb : α → α → α) (vs : List α) : Option α :=
  let ns : List (TreeNode α) := (List.range vs.length).filterMap fun i => vs[i]?.map fun v => ⟨0, 0, i, true, v⟩
  let all : List (TreeNode α) := (List.range 7).foldl (fun (l : List (TreeNode α)) lvl =>
    if treeCount vs.length lvl ≤ 1 then l
    else ((List.range (cdiv (treeCount vs.length lvl) 2)).foldl (mergePair comb vs.length 0 lvl) (l, 0)).1.map fun x => { x with arrived := true }) ns
  treeRoot vs.length 0 all

end Sys2Proof.Machine
end

