-- ==== Sys2Proof/Machine/Attention.lean ====
section
/-! DEFINITION. Chapter 11: keys and values written (R263, R265, R293), scores (R282), halves (R283), chunks (R285), combines (R286,
R287), the root (R288), ring passes (R291), statistics (R292), voids (R294), and what starts a field's step work (R52, R104). -/
namespace Sys2Proof.Machine

/-! ### Numbers -/

/-- Element k of a bf16 vector. -/
def bfAt (v k : Nat) : Nat := bfWide (bitsOf v (16 * k) 16)

/-- The score of a query against a key (R282): 32 lanes of fused multiply-adds, the fixed tree, the scale. -/
def attScore (d scale q key : Nat) : Nat :=
  let lane (i : Nat) : Nat := (List.range (cdiv (d - i) 32)).foldl (fun s n => f32Fma (bfAt q (i + 32 * n)) (bfAt key (i + 32 * n)) s) 0
  f32Mul scale (treeFold f32Add 0 6 ((List.range 32).map lane))

/-- An fp32 one. -/
def one32 : Nat := 0x3F800000

/-- The statistics and output before any position (R283). -/
def headStart (d : Nat) : AttHead := ⟨negInf32, 0, List.replicate d 0⟩

/-- One half of a block (R283): SMUP over its active positions, O scaled by alpha, then each active position's value added in ascending
order. A half without an active position is not run. -/
def headHalf (h : AttHead) (d scale q : Nat) (rows : List (Bool × Nat × Nat)) : AttHead :=
  if rows.any (·.1) = false then h
  else
    let r := smup (rows.map fun x => attScore d scale q x.2.1) (rows.map (·.1)) h.m h.l
    let o := h.o.map fun x => f32Mul x r.alpha
    let add (o : List Nat) (x : (Bool × Nat × Nat) × Nat) : List Nat :=
      if x.1.1 then (List.range d).map fun k => f32Fma x.2 (bfAt x.1.2.2 k) (o.getD k 0) else o
    ⟨r.m, r.l, (rows.zip r.ps).foldl add o⟩

-- Log entry 93 (DEDUCED).
/-- Two partials of a head combine (R286). -/
def headMerge (x y : AttHead) : AttHead :=
  let m := if f32IsNan x.m || f32IsNan y.m then nan32 else (fpMaxMin true x.m y.m).val
  if m = negInf32 then ⟨negInf32, 0, x.o.map fun _ => 0⟩
  else
    let a := f32ExpUlp (f32Sub x.m m)
    let c := f32ExpUlp (f32Sub y.m m)
    let mix (p q : Nat) : Nat := f32Fma p a (f32Mul q c)
    ⟨m, mix x.l y.l, (x.o.zip y.o).map fun z => mix z.1 z.2⟩

-- Log entry 93 (DEDUCED).
/-- Two records combine: every head, the flags gathered. -/
def attMerge (x y : AttVal) : AttVal :=
  ⟨(x.heads.zip y.heads).map fun z => headMerge z.1 z.2, x.void || y.void, x.holed || y.holed, x.empty && y.empty⟩

/-- A record before any position. -/
def attStart (g d : Nat) : AttVal := ⟨List.replicate g (headStart d), false, false, true⟩

-- Log entry 93 (DEDUCED).
/-- The exact quotient O / l rounded once to bf16 (R288). -/
def bfQuot (x l : Nat) : Nat :=
  if f32IsNan x || f32IsNan l then 0x7FC0
  else if f32IsInf x || f32IsInf l || f32IsZero x then bfRound (f32Div x l)
  else
    let a := f32Mag x
    let c := f32Mag l
    let num := a.1 * 2 ^ 64
    let r := roundMag 8 (-133) (num / c.1) (a.2 - 64 - c.2) (decide (num % c.1 ≠ 0))
    (signBit (f32Neg x != f32Neg l) + packF32 (r.1 * 2 ^ 16) (r.2 - 16)) / 2 ^ 16

/-- The LSE of a head (R292). -/
def headLse (h : AttHead) : Nat :=
  if f32IsNan h.l || f32IsNan h.m then nan32 else if f32IsZero h.l then negInf32 else f32Add h.m (f32Ln h.l)

/-! ### Where positions lie (R263, R265) -/

-- Log entry 95 (DEDUCED).
/-- The first position that a sequence's trays hold in its present step. -/
def Slot.trayBase (s : Slot) (m : Model) : Nat :=
  let n := if s.state = 2 then s.t else s.t + s.todo
  n - n % max 1 m.depth

-- Log entry 95 (DEDUCED).
/-- Is a position held in the tray of its pair? -/
def Block.inTray (b : Block) (m : Model) (s : Slot) (pair j : Nat) : Bool :=
  decide (s.trayBase m ≤ j) && match b.trayOf s.slot pair with
    | some x => decide (x.1 = m.pageField pair (j / 256))
    | none => false

/-- The physical addresses of the key and the value of a tray position. -/
def Block.trayPlaces (b : Block) (m : Model) (slot pair j : Nat) : Nat × Nat :=
  let x := (b.trayOf slot pair).getD (0, 0)
  let q := j % max 1 m.depth
  (b.trayAddr x.1 (x.2 + 2 * m.dim * q), b.trayAddr x.1 (x.2 + 2 * m.dim * m.depth + 2 * m.dim * q))

/-- The physical addresses of the key and the value of a page position (R253). -/
def pagePlaces (m : Model) (f fr o : Nat) : Nat × Nat :=
  (frameAddr f 2 fr + 2 * m.dim * o, frameAddr f 2 fr + 512 * m.dim + 2 * m.dim * o)

/-- A page first holds a position: VALID becomes 1 (R258). -/
def Block.validPage (b : Block) (f slot pair page : Nat) : Block :=
  let v := b.pte slot pair page
  if bitAt v 31 then b
  else
    let b1 := b.setPte slot pair page (v ||| pteValid)
    match b1.pageAt f (pteFrame v) with
    | some x => b1.setPage f (pteFrame v) (some { x with kind := 2 })
    | none => b1

-- Log entry 92 (DESIGN CHOICE).
/-- The key and value of a position are written: into the tray, or into its page, which a sealed page never takes (R263, R265, R339). -/
def Block.writeKv (b : Block) (m : Model) (s : Slot) (pair pos key val : Nat) : Block :=
  let f := m.pageField pair (pos / 256)
  let put (b : Block) (at_ : Nat × Nat) : Block :=
    (b.landFor m.camp at_.1 (bytesLE (2 * m.dim) key) []).landFor m.camp at_.2 (bytesLE (2 * m.dim) val) []
  if b.inTray m s pair pos then put b (b.trayPlaces m s.slot pair pos)
  else
    let v := b.pte s.slot pair (pos / 256)
    match (if pteStands v then b.pageAt f (pteFrame v) else none) with
    | some x => if x.sealed then b else put (b.validPage f s.slot pair (pos / 256)) (pagePlaces m f (pteFrame v) (pos % 256))
    | none => b

/-! ### One page (R283, R284, R294) -/

-- Log entry 95 (DEDUCED).
/-- Which of a page's 256 positions a query at `p` attends (R283), as a bit mask. A tray position is active. -/
def Block.activeMask (b : Block) (m : Model) (s : Slot) (pair page p : Nat) : Nat :=
  let v := b.pte s.slot pair page
  let holes := match (if pteStands v then b.pageAt (m.pageField pair page) (pteFrame v) else none) with
    | some x => x.holes
    | none => 0
  packBits ((List.range 256).map fun o =>
    let j := 256 * page + o
    (o, 1, if p < j then 0 else if b.inTray m s pair j then 1 else if bitAt v 31 && !bitAt holes (o / 16) then 1 else 0))

/-- The data of a page as the block buffers hold it: (key, value) of each position that the mask marks, and whether poison came with
it; blocks without an active position are not fetched. -/
def Block.fetchPage (b : Block) (m : Model) (s : Slot) (pair page mask : Nat) : Block × Bool × List (Nat × Nat) :=
  let f := m.pageField pair page
  let fr := pteFrame (b.pte s.slot pair page)
  let n := 2 * m.dim
  let places (o : Nat) : Nat × Nat :=
    if b.inTray m s pair (256 * page + o) then b.trayPlaces m s.slot pair (256 * page + o) else pagePlaces m f fr o
  let want (o : Nat) : Bool := decide (bitsOf mask (o / 64 * 64) 64 ≠ 0) &&
    (bitAt mask o || (!b.inTray m s pair (256 * page + o) && bitAt (b.pte s.slot pair page) 31))
  let os := (List.range 256).filter want
  -- a block's keys and its values are each one run of its page (R253, R284)
  let b0 := ((List.range 4).filter fun k => os.any fun o => decide (o / 64 = k) && !b.inTray m s pair (256 * page + o)).foldl (fun b k =>
    (b.chargeBulk m.camp true (pagePlaces m f fr (64 * k)).1 (64 * n)).chargeBulk m.camp true (pagePlaces m f fr (64 * k)).2 (64 * n)) b
  let b1 := os.foldl (fun b o => (b.check (places o).1 n).check (places o).2 n) b0
  let bad := os.any fun o => b1.poisonIn (places o).1 n || b1.poisonIn (places o).2 n
  (b1, bad, (List.range 256).map fun o =>
    if bitAt mask o then (ofBytesLE (b1.readBytes (places o).1 n), ofBytesLE (b1.readBytes (places o).2 n)) else (0, 0))

-- Log entry 94 (DEDUCED).
/-- A page runs through a record: four blocks of two halves for every head (R283). -/
def attPage (x : AttVal) (d scale : Nat) (queries : List Nat) (mask : Nat) (kv : List (Nat × Nat)) : AttVal :=
  let half (h : Nat) : List (Bool × Nat × Nat) := (List.range 32).map fun i => (bitAt mask (32 * h + i), kv.getD (32 * h + i) (0, 0))
  { x with
    heads := (x.heads.zip queries).map fun hq => (List.range 8).foldl (fun a h => headHalf a d scale hq.2 (half h)) hq.1
    empty := x.empty && decide (mask = 0) }

-- Log entry 94 (DEDUCED).
/-- Blocks of a page with an active position. -/
def blocksIn (mask : Nat) : Nat := ((List.range 4).filter fun k => bitsOf mask (64 * k) 64 ≠ 0).length

/-- The mass that a page's blocks receive (R273), while score eviction is on for the camp. -/
def Block.addMass (b : Block) (m : Model) (f fr scale : Nat) (queries : List Nat) (mask : Nat) (kv : List (Nat × Nat)) : Block :=
  if bitAt (b.inForceFor m.camp F.evictConfigCampMask) m.camp = false then b
  else
    let old := sget (fun _ => 0) b.page.mass (pageKey f fr)
    let scores (n : Nat) : List (List Nat) := queries.map fun q =>
      ((List.range 16).filter fun i => bitAt mask (16 * n + i)).map fun i => attScore m.dim scale q (kv.getD (16 * n + i) (0, 0)).1
    let new := packBits ((List.range 16).map fun n =>
      (32 * n, 32, if bitsOf mask (16 * n) 16 = 0 then bitsOf old (32 * n) 32 else (Config.massSum (bitsOf old (32 * n) 32) (scores n) (b.free + n)).toNat))
    { b with page := { b.page with mass := sset (fun _ => 0) b.page.mass (pageKey f fr) new }, free := b.free + 16 }

/-- What a walk of a field through its pages of a sequence and pair has gathered: the chunk in hand, its pages, the running level-1
result, how many combines. -/
structure Level1 where
  blk : Block
  chunk : AttVal
  pages : Nat
  acc : Option AttVal
  combines : Nat

/-- A finished chunk joins the left fold (R287, level 1). -/
def Level1.close (x : Level1) (g d : Nat) : Level1 :=
  if x.pages = 0 then x
  else match x.acc with
    | none => { x with acc := some x.chunk, chunk := attStart g d, pages := 0 }
    | some a => { x with acc := some (attMerge a x.chunk), chunk := attStart g d, pages := 0, combines := x.combines + 1 }

-- Log entry 94 (DEDUCED).
/-- One page joins the chunk; four pages are a chunk (R285). -/
def Level1.step (m : Model) (s : Slot) (pair p scale : Nat) (queries : List Nat) (x : Level1) (page : Nat) : Level1 :=
  let b := x.blk
  let v := b.pte s.slot pair page
  let first := 256 * page
  let mask := b.activeMask m s pair page p
  let inRange := min 256 (p + 1 - first)
  let skipped := inRange - popCount mask 256
  let r := b.fetchPage m s pair page mask
  if bitAt v 29 ∨ r.2.1 = true then
    let b1 := if bitAt v 29 then b.voidSlot s m pair page 0 else r.1.voidSlot s m pair page 1
    { x with blk := b1, chunk := { x.chunk with void := true } }
  else
    let b1 := (r.1.count F.attBlocks (blocksIn mask)).count F.attSkipped skipped
    let b2 := if pteStands v ∧ mask ≠ 0 then b1.addMass m (m.pageField pair page) (pteFrame v) scale queries mask r.2.2 else b1
    let c := { (attPage x.chunk m.dim scale queries mask r.2.2) with holed := x.chunk.holed || decide (skipped ≠ 0) }
    let y : Level1 := { x with blk := b2, chunk := c, pages := x.pages + 1 }
    if y.pages = 4 then y.close m.group m.dim else y

/-! ### Items (R285 to R288) -/

/-- The team of a pair, its first field, and a field's rank in it. -/
def Model.teamOf (m : Model) (pair : Nat) : Nat := m.pairRank pair % m.teams
def Model.teamRoot (m : Model) (pair : Nat) : Nat := m.teamOf pair * m.team

def Block.item? (b : Block) (c slot pair pos : Nat) : Option AttItem :=
  b.att.items.find? fun x => x.camp == c && x.slot == slot && x.pair == pair && x.pos == pos

def Block.setItem (b : Block) (x : AttItem) : Block :=
  { b with att := { b.att with items := b.att.items.map fun y =>
      if y.camp == x.camp && y.slot == x.slot && y.pair == x.pair && y.pos == x.pos then x else y } }

def Block.dropItem (b : Block) (x : AttItem) : Block :=
  { b with att := { b.att with items := b.att.items.filter fun y =>
      !(y.camp == x.camp && y.slot == x.slot && y.pair == x.pair && y.pos == x.pos) } }

-- Log entry 96 (DEDUCED).
/-- The batch index of a sequence (R285): its place among the camp's running slots. -/
def Block.batchIndex (b : Block) (c slot : Nat) : Nat :=
  ((b.campSlotList c).filter fun s => (s.state == 1 || s.state == 2) && decide (s.slot < slot)).length

/-- The statistics record of a position and pair (R292). -/
def statsBits (g pos pair index : Nat) (v : AttVal) : Nat :=
  packBits ([(0, 32, pos), (32, 16, pair), (48, 5, g), (56, 1, v.holed.toNat), (57, 1, v.void.toNat), (64, 32, index)] ++
    (List.range g).map fun i => (128 + 32 * i, 32, ((v.heads[i]?).map headLse).getD negInf32))

-- Log entry 96 (DEDUCED).
/-- A record's place among its field's: by layer, then sequence, then position, then pair. -/
def statsPlace (m : Model) (r : Request) (f pair fork pos : Nat) : Nat :=
  let mine (layer : Nat) : List Nat := m.pairList.filter fun p => decide (p / m.kvHeads = layer) && decide (m.teamRoot p = f)
  let layer := pair / m.kvHeads
  let before := sumOf ((List.range layer).map fun l => r.queries * (mine l).length)
  before + (pos + fork * (r.maxNew - 1)) * (mine layer).length + ((mine layer).filter (· < pair)).length

-- Log entry 96 (DEDUCED).
/-- The statistics record is written where its request asks for one; of a POSITION model, by member rank 0 alone. -/
def Block.writeStats (b : Block) (m : Model) (s : Slot) (r : Request) (x : AttItem) (v : AttVal) : Block :=
  let f := m.teamRoot x.pair
  match place r.statsObj with
  | .unified _ g off =>
    if r.statsOn = false ∨ (m.layout = 1 ∧ m.rank ≠ 0) then b
    else
      let n := statsBytes m.group
      (b.firmWrite f x.camp (granuleAddr f g + off + n * statsPlace m r f x.pair s.fork x.pos) n
        (statsBits m.group x.pos x.pair (b.batchIndex x.camp x.slot) v)).bump F.statsRecords
  | _ => b

/-- The root normalises the rows and delivers them (R288): zeros for a void sequence and for a row with l = 0. -/
def Block.finishItem (b : Block) (m : Model) (x : AttItem) (v : AttVal) : Block :=
  let f := m.teamRoot x.pair
  let row (h : AttHead) : Nat := if v.void ∨ f32IsZero h.l then 0 else packBits ((List.range m.dim).map fun k => (16 * k, 16, bfQuot (h.o.getD k 0) h.l))
  let nans := if v.void then 0 else (v.heads.filter fun h => f32IsNan h.l).length
  let none_ := if v.void then 0 else (v.heads.filter fun h => f32IsZero h.l).length
  let step := (b.stepSt x.camp).token
  let b1 := ((b.count F.attEmptyRows none_).count F.attNanRows nans).send (.attRow x.camp x.slot x.pair x.pos (v.heads.map row))
  let b2 := if nans ≠ 0 ∧ b.att.nanSeen.contains (x.camp, step) = false then
      ({ b1 with att := { b1.att with nanSeen := (b1.att.nanSeen.filter fun y => y.1 != x.camp) ++ [(x.camp, step)] } } : Block).raise 0x0531 f x.camp
        (packBits [(0, 32, x.slot), (32, 16, x.pair), (64, 32, step)])
    else b1
  let b3 := match b2.slot? x.slot with
    | some s => match b2.request? s.camp s.seq with
      | some r => b2.writeStats m s r x v
      | none => b2
    | none => b2
  (b3.dropItem x).ackDrop x.camp f 1

/-- Merge what can merge in an item; at the root, go on to level 3 or finish (R287, R290). -/
def Block.pushItem (b : Block) (m : Model) (x : AttItem) (src : Nat) : Block :=
  let r := treeMerge attMerge m.team src x.nodes
  let b1 := b.count F.attCombines r.2
  match treeRoot m.team src r.1 with
  | none => b1.setItem { x with nodes := r.1 }
  | some v =>
    let y : AttItem := { x with nodes := r.1.filter fun n => n.src != src, wafers := x.wafers.filter (fun w => w.1 != src) ++ [(src, v)] }
    if m.layout ≠ 1 ∨ m.sliceW ≤ 1 then b1.finishItem m y v
    else if x.many = false then (b1.setItem y).postResident m (m.teamRoot x.pair) 1 (.att x.slot x.pair x.pos)
    else
      let all := (List.range m.sliceW).filterMap fun w => (y.wafers.find? fun z => z.1 == w).map (·.2)
      if all.length = m.sliceW then
        match treeOf attMerge all with
        | some v => (b1.count F.attCombines (m.sliceW - 1)).finishItem m y v
        | none => b1
      else b1.setItem y

/-- A field's result of an item joins the tree: it stands at its own node, and an odd rank travels as a COLL packet. -/
def Block.addResult (b : Block) (m : Model) (x : AttItem) (src f : Nat) (v : AttVal) : Block :=
  let rank := f - m.teamRoot x.pair
  b.pushItem m { x with nodes := x.nodes ++ [⟨src, 0, rank, decide (rank % 2 = 0), v⟩] } src

/-- Has a field rows of a source wafer in range of a query position? -/
def Model.rowsFrom (m : Model) (pair f src pos : Nat) : List Nat :=
  (List.range (pos / 256 + 1)).filter fun i => (decide (m.layout ≠ 1) || decide (i % max 1 m.sliceW = src)) && decide (m.pageField pair i = f)

/-- A new item: fields of the team without the camp's work, and fields without a page of a source, give EMPTY partials. -/
def Block.openItem (b : Block) (m : Model) (c : Nat) (s : Slot) (w : KvWork) : AttItem :=
  let many := decide (m.layout = 1) && decide (1 < m.sliceW) && decide (s.state ≠ 2)
  let root := m.teamRoot w.pair
  let empty (src rank : Nat) : TreeNode AttVal := ⟨src, 0, rank, true, attStart m.group m.dim⟩
  let own := if m.layout = 1 then m.rank else 0
  let away := ((List.range m.team).filter fun i => !(b.campField c (root + i)).member).map (empty own)
  let others := if many then (List.range m.sliceW).filter (· ≠ own) else []
  let ring := others.flatMap fun src => ((List.range m.team).filter fun i => (m.rowsFrom w.pair (root + i) src w.pos).isEmpty).map (empty src)
  ⟨c, s.slot, w.pair, w.pos, w.scale, w.queries, many, [], away ++ ring, [], []⟩

-- Log entry 94 (DEDUCED).
/-- A field processes one item: its pages of the pair in range, in ascending order, chunk by chunk; a void sequence is not attended. -/
def Block.attend (b : Block) (m : Model) (c f : Nat) (s : Slot) (w : KvWork) : Block :=
  let own := if m.layout = 1 then m.rank else 0
  let x := (b.item? c s.slot w.pair w.pos).getD (b.openItem m c s w)
  if x.fields.contains f then b
  else
    let b0 := if (b.item? c s.slot w.pair w.pos).isSome then b else { b with att := { b.att with items := b.att.items ++ [x] } }
    let b1 := if f = m.teamRoot w.pair then b0.ackAdd c f 1 else b0
    let y : AttItem := { x with fields := x.fields ++ [f] }
    if b1.isVoid ((b1.slot? s.slot).getD s) then b1.addResult m y own f { attStart m.group m.dim with void := true }
    else
      let start : Level1 := ⟨b1, attStart m.group m.dim, 0, none, 0⟩
      let r := ((m.rowsFrom w.pair f own w.pos).foldl (Level1.step m s w.pair w.pos w.scale w.queries) start).close m.group m.dim
      let v := r.acc.getD (attStart m.group m.dim)
      let v1 := if (r.blk.slot? s.slot).elim false (·.void) then { v with void := true } else v
      (r.blk.count F.attCombines r.combines).addResult m y own f v1

/-- A poisoned query row ends the sequence DATA_LOST (R154, R294). -/
def Block.queryLost (b : Block) (f : Nat) (s : Slot) : Block :=
  if s.ended ≠ 0 then b else (b.setSlot s.slot fun x => { x with ended := 0x30 + 1 }).consumedIn f s.camp 0

/-! ### A field's step work -/

/-- May a step of the slot query a position: one that it writes, or rewrites in a recompute? -/
def Slot.queries (s : Slot) (pos : Nat) : Bool := s.runs && decide (pos < s.after) && (decide (s.t ≤ pos) || decide (0 < s.redoQuota))

-- Log entry 92 (DESIGN CHOICE).
/-- One unit of work at a field: the key and value written where the field holds them, then attention. -/
def Block.doWork (b : Block) (c f : Nat) (w : KvWork) : Block :=
  match b.slot? w.slot, b.slotModel w.slot with
  | some s, some m =>
    if s.camp ≠ c ∨ m.pairHere w.pair = false ∨ s.queries w.pos = false ∨ m.teamOf w.pair ≠ f / m.team then b
    else if w.poison ∨ s.badInput = true then b.queryLost f s
    else
      let b1 := if m.rowHere (w.pos / 256) ∧ m.pageField w.pair (w.pos / 256) = f then b.writeKv m s w.pair w.pos w.key w.value else b
      b1.attend m c f ((b1.slot? w.slot).getD s) w
  | _, _ => b

-- Log entry 97 (DEDUCED).
/-- The waves of a layer after the first (R296): the longest runs of sequences whose records fit the combine area. -/
def wavesOver (room : Nat) : Nat → List Nat → Nat
  | _, [] => 0
  | used, x :: r => if used + x ≤ room ∨ used = 0 then wavesOver room (used + x) r else 1 + wavesOver room x r

-- Log entry 97 (DEDUCED).
/-- Count the waves of a field's work. -/
def Block.countWaves (b : Block) (f : Nat) (work : List KvWork) : Block :=
  let layerOf (w : KvWork) : Nat := ((b.slotModel w.slot).map fun m => w.pair / max 1 m.kvHeads).getD 0
  let layers := (work.map layerOf).dedup
  let waves := layers.map fun l =>
    let mine := work.filter fun w => decide (layerOf w = l)
    let slots := sortBy (fun x y => decide (x < y)) (mine.map (·.slot)).dedup
    let need := slots.map fun s => match b.slotModel s with
      | some m => 2 * (16 + m.group * (8 + 4 * m.dim)) * (((mine.filter fun w => w.slot == s && !(m.rowsFrom w.pair f (if m.layout = 1 then m.rank else 0) w.pos).isEmpty).map (·.pair)).dedup.length)
      | none => 0
    let room := (slots.head?.bind b.slotModel).elim 0 fun m => m.combineKib * 1024
    wavesOver room 0 need
  b.count F.attWaves (sumOf waves)

/-- The pieces that a field sends to the next wafer in pass 0 of a ring pass (R291). -/
def Block.sendPieces (b : Block) (c f : Nat) (work : List KvWork) : Block :=
  let pieces := (work.flatMap fun w => match b.slot? w.slot, b.slotModel w.slot with
    | some s, some m =>
      if s.camp = c ∧ m.layout = 1 ∧ 1 < m.sliceW ∧ s.state ≠ 2 then
        (m.rowsFrom w.pair f m.rank w.pos).map fun i => (w.slot, w.pair / max 1 m.kvHeads, i, m.rank)
      else []
    | _, _ => []).dedup
  let layers := (pieces.map fun x => (x.1, x.2.1)).dedup
  let b1 := layers.foldl (fun b x => match b.slotModel x.1 with
    | some m => if (b.partFor c (some f) (.ring x.1 x.2)).isSome then b else b.postResident m f 5 (.ring x.1 x.2)
    | none => b) b
  pieces.foldl (fun b x => b.send (.ringPiece f x.1 x.2.1 x.2.2.1 x.2.2.2)) b1

-- Log entries 92 (DESIGN CHOICE), 191 (DESIGN CHOICE).
/-- STEP_TOKEN_RECEIVE: a field that holds the camp's work receives the token last issued and does that step's work: it announces the
experts that its kernels use, writes keys and values, attends, and starts the kernels that firmware has loaded for the step. -/
def stepTokenReceiveEff (c f : Nat) (work : StepWork) (experts : List Announcement) (b : Block) : Block :=
  let x := b.campField c f
  let s := b.stepSt c
  if s.inStep = true ∧ x.member = true ∧ x.token ≠ s.token then
    let b1 := b.setCampField c f { x with token := s.token }
    let b2 := experts.foldl (fun b a => b.announce c s.token a.layer a.expert a.object a.peers) b1
    let order := sortBy (fun (x y : KvWork) => decide (x.pos < y.pos)) work.rows
    let b3 := ((order.foldl (fun b w => b.doWork c f w) b2).countWaves f work.rows).sendPieces c f work.rows
    (b3.addKernels c f work.kernels).runKernels
  else b

/-- PARTIAL_ARRIVE: a partial reaches its combine node. -/
def partialArriveEff (c slot pair pos src lvl idx : Nat) (b : Block) : Block :=
  match b.item? c slot pair pos, b.slotModel slot with
  | some x, some m => b.pushItem m { x with nodes := treeArrive x.nodes src lvl idx } src
  | _, _ => b

/-! ### Ring passes (R291) -/

/-- A page of another wafer's row joins an item's fold of its source at a field; behind the last row in range the level-1 result
joins the source's tree. -/
def Block.ringFold (b : Block) (m : Model) (f row src : Nat) (pg : RingPage) (x : AttItem) : Block :=
  let rows := m.rowsFrom x.pair f src x.pos
  if x.pair ≠ pg.pair ∨ x.many = false ∨ rows.contains row = false then b
  else
    let d := m.dim
    let mask := pg.active &&& (if x.pos / 256 = row then 2 ^ (x.pos % 256 + 1) - 1 else 2 ^ 256 - 1)
    let kv := (List.range 256).map fun o => (bitsOf pg.data (8 * 2 * d * o) (16 * d), bitsOf pg.data (8 * (512 * d + 2 * d * o)) (16 * d))
    let z := (x.folds.find? fun z => z.src == src && z.field == f).getD ⟨src, f, 0, attStart m.group d, none⟩
    let c1 := { (attPage z.chunk d x.scale x.queries mask kv) with holed := z.chunk.holed || pg.holed }
    let last := decide (rows.getLast? = some row)
    let joined : AttVal := match z.acc with | none => c1 | some a => attMerge a c1
    let close := decide (z.pages = 3) || last
    let z1 : AttFold := if close then ⟨src, f, 0, attStart m.group d, some joined⟩ else { z with pages := z.pages + 1, chunk := c1 }
    let n := if close = true ∧ z.acc.isSome = true then 1 else 0
    let rest := x.folds.filter fun z => !(z.src == src && z.field == f)
    let b1 := (b.count F.attBlocks (blocksIn mask)).count F.attCombines n
    if last then b1.addResult m { x with folds := rest } src f joined else b1.setItem { x with folds := rest ++ [z1] }

/-- RING_PIECE: a row of one layer of a source wafer arrives at a field, is folded into every waiting query row, and goes on to the next
wafer unless that is its source. -/
def ringPieceEff (c f slot layer row src : Nat) (pages : List RingPage) (b : Block) : Block :=
  match b.slotModel slot with
  | none => b
  | some m =>
    if m.camp ≠ c ∨ m.layout ≠ 1 ∨ m.sliceW ≤ 1 ∨ src = m.rank ∨ m.sliceW ≤ src then b
    else
      let b1 := pages.foldl (fun b pg =>
        if pg.pair / max 1 m.kvHeads ≠ layer then b
        else (b.att.items.filter fun x => x.camp == c && x.slot == slot).foldl (fun b x => b.ringFold m f row src pg x) b) (b.bump F.ringPieces)
      if (m.rank + 1) % m.sliceW = src then b1 else b1.send (.ringPiece f slot layer row src)

/-! ### Level 3, aborts, resets -/

/-- A finished all-reduce brings the other members' records of a row (R290): they combine in member order. -/
def Block.attCollective (b : Block) (c slot pair pos : Nat) (parts : List AttVal) : Block :=
  match b.item? c slot pair pos, b.slotModel slot with
  | some x, some m =>
    match x.wafers.find? fun w => w.1 == m.rank with
    | some w =>
      let all := parts.take m.rank ++ [w.2] ++ parts.drop m.rank
      match treeOf attMerge all with
      | some v => (b.count F.attCombines (all.length - 1)).finishItem m x v
      | none => b
    | none => b
  | _, _ => b

/-- The items of a camp leave: a COLL_ABORT drops them, and a camp reset discards and counts them (R297). -/
def Block.dropItems (b : Block) (c : Nat) : Block :=
  let mine := b.att.items.filter fun x => x.camp == c
  mine.foldl (fun b x => match b.slotModel x.slot with
    | some m => if x.fields.contains (m.teamRoot x.pair) then (b.dropItem x).ackDrop c (m.teamRoot x.pair) 1 else b.dropItem x
    | none => b.dropItem x) b

def Block.attCampReset (b : Block) (c : Nat) : Block :=
  let n := sumOf ((b.att.items.filter fun x => x.camp == c).map fun x => x.nodes.length + x.folds.length + x.wafers.length)
  let writes := (b.tc.ops.filter fun o => o.thread.isNone && o.array.isNone && o.camp == c && !o.performed).length
  let b1 : Block := { b with
    tc := { b.tc with ops := b.tc.ops.filter fun o => !(o.thread.isNone && o.array.isNone && o.camp == c && !o.performed) }
    att := { items := b.att.items.filter fun x => x.camp != c, nanSeen := b.att.nanSeen.filter fun y => y.1 != c } }
  b1.count F.attCampDiscards (n + writes)

end Sys2Proof.Machine
end

