-- ==== Sys2Proof/Machine/Sampling.lean ====
section
/-! DEFINITION. Chapter 12: shards and row buffers (R301, R302), the order of values (R303), scaled logits and Philox (R304, R305), the
passes (R306, R307), merging (R308), survivors, choice and log-probability (R309 to R313), results (R314 to R316). -/
namespace Sys2Proof.Machine

/-! ### The order (R303) -/

/-- Does one (value, index) rank before another: greater value first, NaN last, the lower index between equals? -/
def ranks (x y : Nat × Nat) : Bool :=
  match f32IsNan x.1, f32IsNan y.1 with
  | true, true => decide (x.2 < y.2)
  | true, false => false
  | false, true => true
  | false, false => f32Lt y.1 x.1 || (f32EqB x.1 y.1 && decide (x.2 < y.2))

/-- An entry: value, index, raw logit. -/
abbrev Entry := Nat × Nat × Nat

-- Log entry 102 (DEDUCED).
def entryRanks (x y : Entry) : Bool := ranks (x.1, x.2.1) (y.1, y.2.1)

-- Log entry 100 (DEDUCED).
/-- The first of two entries. -/
def firstOf (x y : Entry) : Entry := if entryRanks y x then y else x

/-- What stands where no entry has been met: a NaN behind every index. -/
def noEntry : Entry := (nan32, 2 ^ 20, nan32)

/-- Put an entry into a list of at most k in the order; NaN never enters. -/
def enterList (k : Nat) (l : List Entry) (x : Entry) : List Entry := if f32IsNan x.1 then l else (insertBy entryRanks x l).take k

/-! ### Randomness (R304, R305) -/

/-- One round of Philox4x32. -/
def philoxRound (c : Nat × Nat × Nat × Nat) (k : Nat × Nat) : Nat × Nat × Nat × Nat :=
  let p0 := 0xD2511F53 * c.1
  let p1 := 0xCD9E8D57 * c.2.2.1
  ((p1 / 2 ^ 32) ^^^ c.2.1 ^^^ k.1, p1 % 2 ^ 32, (p0 / 2 ^ 32) ^^^ c.2.2.2 ^^^ k.2, p0 % 2 ^ 32)

/-- The keys of round i. -/
def philoxKey (seed i : Nat) : Nat × Nat :=
  ((seed % 2 ^ 32 + i * 0x9E3779B9) % 2 ^ 32, (seed / 2 ^ 32 % 2 ^ 32 + i * 0xBB67AE85) % 2 ^ 32)

/-- The first output word of Philox4x32-10 for a seed, an index and a position. -/
def philox (seed index pos : Nat) : Nat :=
  ((List.range 10).foldl (fun c i => philoxRound c (philoxKey seed i)) (index % 2 ^ 32, pos % 2 ^ 32, 0, 0)).1

/-- The Gumbel value of a word: -ln(-ln u) of u = (x0 + 1/2) 2^-32, rounded once. -/
def gumbel (x0 : Nat) : Nat :=
  let inner := -(lnFix (2 * x0 + 1) (-33))
  roundFix (-(lnFix inner.toNat (-192)))

/-- The key of an entry: y + g, rounded once. -/
def drawKey (seed pos index y : Nat) : Nat := f32Add y (gumbel (philox seed index pos))

/-! ### What applies to a row (R300, R313) -/

/-- A row's parameters: for a SCORE in LP_MODE 0 none but ALTS is used. -/
structure SampUse where
  temp : Nat
  topK : Nat
  topP : Nat
  minP : Nat
  probMin : Nat
  alts : Nat
  mode : Bool
  k : Nat
  seed : Nat
  forced : Option Nat

def Request.use (r : Request) (fork pos : Nat) : SampUse :=
  let raw := decide (r.kind = 2) && !r.lpMode
  { temp := if raw then 0 else r.temp
    topK := if raw then 0 else r.topK
    topP := if raw then 0x3F800000 else r.topP
    minP := if raw then 0 else r.minP
    probMin := if raw then 0 else r.probMin
    alts := r.alts
    mode := r.lpMode
    k := r.listLen
    seed := r.forkSeed fork
    forced := if r.kind = 2 then some (r.tokens.getD pos 0) else none }

def SampUse.listFilter (u : SampUse) : Bool := decide (0 < u.topK) || decide (u.topP < 0x3F800000)
def SampUse.minOn (u : SampUse) : Bool := !f32IsZero u.minP
def SampUse.probOn (u : SampUse) : Bool := !f32IsZero u.probMin
-- Log entry 100 (DEDUCED).
def SampUse.greedy (u : SampUse) : Bool := f32IsZero u.temp

/-- The scaled logit (R304). -/
def SampUse.scale (u : SampUse) (l : Nat) : Nat := if u.greedy then l else f32Div l u.temp

/-! ### Pass 1 (R306) -/

def Pass1Start : Pass1 := ⟨nan32, nan32, noEntry, noEntry, 0, [], none⟩

/-- One entry of a shard. -/
def pass1Step (u : SampUse) (pos : Nat) (x : Pass1) (v l : Nat) : Pass1 :=
  let y := u.scale l
  let key := if u.greedy ∨ u.forced.isSome = true then y else drawKey u.seed pos v y
  { yMax := (firstOf (x.yMax, 0, 0) (y, 0, 0)).1
    lMax := (firstOf (x.lMax, 0, 0) (l, 0, 0)).1
    top := firstOf x.top (y, v, l)
    best := firstOf x.best (key, v, l)
    nans := if f32IsNan l then x.nans + 1 else x.nans
    list := enterList u.k x.list (y, v, l)
    forced := if u.forced = some v then some l else x.forced }

/-- A shard's pass-1 record, entries in ascending order. -/
def pass1Over (u : SampUse) (pos : Nat) : Pass1 → Nat → List Nat → Pass1
  | x, _, [] => x
  | x, v, l :: r => pass1Over u pos (pass1Step u pos x v l) (v + 1) r

/-- Two records merge (R308). -/
def pass1Merge (k : Nat) (x y : Pass1) : Pass1 where
  yMax := (firstOf (x.yMax, 0, 0) (y.yMax, 0, 0)).1
  lMax := (firstOf (x.lMax, 0, 0) (y.lMax, 0, 0)).1
  top := firstOf x.top y.top
  best := firstOf x.best y.best
  nans := satTo 32 (x.nans + y.nans)
  list := y.list.foldl (enterList k) x.list
  forced := match x.forced with | some l => some l | none => y.forced

/-! ### Passes 2 and 3 (R307) -/

/-- An fp32 number from 0 to 1 as a multiple of 2^-149. -/
def exactTerm (x : Nat) : Nat := if f32Finite x then (f32Mag x).1 * 2 ^ ((f32Mag x).2 + 149).toNat else 0

/-- The term exp(a - m), held exactly. -/
def sumTerm (a m : Nat) : Nat := exactTerm (f32Exp1 (f32Sub a m))

/-- An accumulator rounded to fp32. -/
def roundSum (s : Nat) : Nat := roundF32 false s (-149) false

/-- A maximum plus the logarithm of a sum. -/
def logSum (m s : Nat) : Nat := f32Add m (f32Ln (roundSum s))

/-- Is y at or above a probability threshold behind a base: y >= base + ln p? -/
def aboveLn (y base p : Nat) : Bool := f32Le (f32Add base (f32Ln p)) y

/-- Does an entry survive the threshold filters (R309 steps 2 and 3)? The first entry of the order always does. -/
def SampUse.passes (u : SampUse) (m1 : Pass1) (lseY : Nat) (prob : Bool) (y v : Nat) : Bool :=
  decide (v = m1.top.2.1) || ((!u.minOn || aboveLn y m1.yMax u.minP) && (!(prob && u.probOn) || aboveLn y lseY u.probMin))

-- Log entry 102 (DEDUCED).
/-- A shard's pass-2 record; with `prob` its pass-3 record, under PROB_MIN as well. -/
def pass2Over (u : SampUse) (pos : Nat) (m1 : Pass1) (lseY : Nat) (prob : Bool) : Pass2 → Nat → List Nat → Pass2
  | x, _, [] => x
  | x, v, l :: r =>
    let y := u.scale l
    let live := !f32IsNan y && !u.listFilter && (u.minOn || prob) && u.passes m1 lseY prob y v
    let x1 : Pass2 := if f32IsNan l then x else { x with sY := x.sY + sumTerm y m1.yMax, sL := x.sL + sumTerm l m1.lMax }
    let x2 : Pass2 := if live then
        { x1 with
          sSurv := x1.sSurv + sumTerm y m1.yMax
          best := firstOf x1.best ((if u.greedy ∨ u.forced.isSome = true then y else drawKey u.seed pos v y), v, l)
          survivors := x1.survivors + 1 }
      else x1
    pass2Over u pos m1 lseY prob x2 (v + 1) r

def pass2Start : Pass2 := ⟨0, 0, 0, noEntry, 0⟩

/-- Exact addition (R308). -/
def pass2Merge (x y : Pass2) : Pass2 := ⟨x.sY + y.sY, x.sL + y.sL, x.sSurv + y.sSurv, firstOf x.best y.best, x.survivors + y.survivors⟩

/-! ### Survivors, choice, log-probability (R309 to R312) -/

/-- Cut candidates behind the first running sum that reaches TOP_P: the kept ones, and whether one reached it. -/
def cutTopP (topP lseY : Nat) : Nat → List Entry → List Entry × Bool
  | _, [] => ([], false)
  | c, e :: r =>
    let c1 := f32Add c (f32Exp1 (f32Sub e.1 lseY))
    if f32Le topP c1 then ([e], true)
    else
      let x := cutTopP topP lseY c1 r
      (e :: x.1, x.2)

/-- What the root makes of a row. -/
structure Outcome1 where
  token : Nat
  logit : Nat
  logprob : Nat
  lse : Nat
  survivors : Nat
  topPShort : Bool
  nonfinite : Bool
  noToken : Bool
  alts : List (Nat × Nat)

-- Log entry 101 (DEDUCED).
/-- Is the row NONFINITE (R312)? -/
def rowNonfinite (m1 : Pass1) : Bool := f32IsNan m1.yMax || f32IsInf m1.yMax

-- Log entry 102 (DEDUCED).
/-- The candidates of a list filter, and TOPP_SHORT. -/
def SampUse.candidates (u : SampUse) (m1 : Pass1) (lseY : Nat) : List Entry × Bool :=
  let c := m1.list.take (if u.topK = 0 then 64 else min u.topK 64)
  if u.topP < 0x3F800000 then
    let x := cutTopP u.topP lseY 0 c
    (x.1, !x.2)
  else (c, false)

-- Log entry 100 (DEDUCED).
/-- The outcome of a row from its merged records, of `size` entries. -/
def SampUse.outcome (u : SampUse) (pos size : Nat) (m1 : Pass1) (m2 : Pass2) : Outcome1 :=
  let lseY := logSum m1.yMax m2.sY
  let lseL := logSum m1.lMax m2.sL
  if rowNonfinite m1 then
    let none_ := f32IsNan m1.yMax
    let tok := match u.forced with
      | some v => (v, m1.forced.getD nan32)
      | none => if none_ then (0, nan32) else (m1.top.2.1, m1.top.2.2)
    ⟨tok.1, tok.2, nan32, lseL, if none_ ∧ u.forced.isNone = true then 0 else 1, false, true, none_ && u.forced.isNone,
      (m1.list.take u.alts).map fun e => (e.2.1, nan32)⟩
  else
    let cand := u.candidates m1 lseY
    let kept := cand.1.filter fun e => u.passes m1 lseY true e.1 e.2.1
    let threshold := u.minOn || u.probOn
    let sum := if u.listFilter then sumOf (kept.map fun e => sumTerm e.1 m1.yMax) else if threshold then m2.sSurv else m2.sY
    let lseSurv := logSum m1.yMax sum
    let count := if u.listFilter then kept.length else if threshold then m2.survivors else size - m1.nans
    let chosen : Entry :=
      if u.greedy then m1.top
      else if u.listFilter then
        kept.foldl (fun (x : Entry) (e : Entry) => firstOf x (drawKey u.seed pos e.2.1 e.1, e.2.1, e.2.2)) noEntry
      else if threshold then m2.best else m1.best
    let tok := match u.forced with | some v => (v, m1.forced.getD nan32) | none => (chosen.2.1, chosen.2.2)
    let lp := if u.mode = false then f32Sub tok.2 lseL else if u.greedy then 0 else f32Sub (u.scale tok.2) lseSurv
    let survives (e : Entry) : Bool :=
      if u.listFilter then kept.any fun x => x.2.1 == e.2.1 else if threshold then u.passes m1 lseY true e.1 e.2.1 else true
    let altLp (e : Entry) : Nat :=
      if u.mode = false then f32Sub e.2.2 lseL
      else if u.greedy then (if e.2.1 = m1.top.2.1 then 0 else negInf32)
      else if survives e then f32Sub e.1 lseSurv else negInf32
    ⟨tok.1, tok.2, lp, lseL, count, u.listFilter && cand.2, false, false, (m1.list.take u.alts).map fun e => (e.2.1, altLp e)⟩

/-! ### Rows in the units -/

/-- Shard rank r of V entries over S shards: its first index and the next shard's (R301). -/
def shardFrom (v s r : Nat) : Nat := r * v / s

-- Log entry 99 (DEDUCED).
/-- The wafers that a model's LM head lies on. -/
def Model.headWafers (m : Model) : Nat := max 1 m.sliceW
-- Log entry 99 (DEDUCED).
def Model.shards (m : Model) : Nat := 96 * m.headWafers

-- Log entry 99 (DEDUCED).
/-- The first index of a field's shard, and its entries. -/
def Model.shardOf (m : Model) (f : Nat) : Nat × Nat :=
  let r := 96 * (m.rank % m.headWafers) + f
  (shardFrom m.vocab m.shards r, shardFrom m.vocab m.shards (r + 1) - shardFrom m.vocab m.shards r)

-- Log entry 99 (DEDUCED).
/-- The root of a row with batch index i, as member wafer and field (R308). -/
def Model.rowRoot (m : Model) (i : Nat) : Nat × Nat := (i % m.shards / 96, i % m.shards % 96)

/-- Is this wafer the row's root? -/
def Model.rootHere (m : Model) (i : Nat) : Bool := decide ((m.rowRoot i).1 = m.rank % m.headWafers)

def samplingUnit : Asker := ⟨0x212, 0xFF, 0⟩

def Block.row? (b : Block) (c slot pos : Nat) : Option SampRow := b.samp.rows.find? fun x => x.camp == c && x.slot == slot && x.pos == pos

def Block.setRow (b : Block) (x : SampRow) : Block :=
  { b with samp := { b.samp with rows := b.samp.rows.map fun y => if y.camp == x.camp && y.slot == x.slot && y.pos == x.pos then x else y } }

def Block.dropRow (b : Block) (x : SampRow) : Block :=
  { b with samp := { b.samp with rows := b.samp.rows.filter fun y => !(y.camp == x.camp && y.slot == x.slot && y.pos == x.pos) } }

/-- The bytes of a field's row buffer, and those in use (R302). -/
def Block.rowBuffer (b : Block) : Nat := 0x100000 + b.trayTaken
def Block.rowBytes (b : Block) (f : Nat) : Nat :=
  sumOf (b.samp.rows.map fun x => sumOf ((x.shards.filter fun s => s.1 == f).map fun s => 4 * s.2.length))

/-- A field with an empty buffer gives up its unit's grant, unless it stands (R319). -/
def Block.restUnit (b : Block) (f : Nat) : Block :=
  if b.rowBytes f ≠ 0 then b
  else match b.grantOf f samplingUnit with
    | some g => if g.standing then b else b.release f samplingUnit
    | none => b

-- Log entry 105 (DEDUCED).
/-- The rows of a step in batch order (R308). -/
def Block.batchRows (b : Block) (c : Nat) : List (Nat × Nat) :=
  sortBy (fun (x y : Nat × Nat) => decide (x.1 < y.1) || (decide (x.1 = y.1) && decide (x.2 < y.2))) (b.stepRows c)

/-- A row's request, model and parameters. -/
def Block.rowUse (b : Block) (slot pos : Nat) : Option (Model × Request × SampUse) :=
  match b.slot? slot, b.slotModel slot with
  | some s, some m => (b.request? s.camp s.seq).map fun r => (m, r, r.use s.fork pos)
  | _, _ => none

/-- The rank of a field in a row's tree, its root relabelled 0. -/
def Model.treeRank (m : Model) (index f : Nat) : Nat := (f + 96 - (m.rowRoot index).2) % 96

/-- A merged pass-1 record of the whole row: pass 2 begins. -/
def Block.beginPass2 (b : Block) (x : SampRow) (m1 : Pass1) : Block :=
  b.setRow { x with m1 := some m1, pass := 2, ran := [], nodes1 := [], nodes2 := [] }

/-- Merge what can merge of a row's pass-1 records. -/
def Block.pushPass1 (b : Block) (m : Model) (u : SampUse) (x : SampRow) : Block :=
  let r := treeMerge (pass1Merge u.k) 96 1 x.nodes1
  match treeRoot 96 1 r.1 with
  | some v => if m.headWafers = 1 then b.beginPass2 { x with nodes1 := r.1 } v else if x.here1.isSome then b
    else (b.setRow { x with nodes1 := r.1, here1 := some v }).postResident m (m.rowRoot x.index).2 1 (.pass1 x.slot x.pos)
  | none => b.setRow { x with nodes1 := r.1 }

-- Log entry 105 (DEDUCED).
/-- A unit reads a queued shard row: its pass-1 record (R306), and NaN entries counted. -/
def Block.readShard (b : Block) (f : Nat) (x : SampRow) : Block :=
  match b.rowUse x.slot x.pos, x.shards.find? fun s => s.1 == f with
  | some (m, _, u), some s =>
    let rec1 := pass1Over u x.pos Pass1Start (m.shardOf f).1 s.2
    let rank := m.treeRank x.index f
    let y := { x with queued := x.queued.filter (· != f), nodes1 := x.nodes1 ++ [⟨1, 0, rank, decide (rank % 2 = 0), rec1⟩] }
    ((b.bump (F.suRows f)).count F.nanEntries rec1.nans).pushPass1 m u y
  | _, _ => b

-- Log entry 105 (DEDUCED).
/-- A unit with its grant reads what is queued, in arrival order; without it, it asks (R319). -/
def Block.runUnit (b : Block) (f c : Nat) : Block :=
  let mine := b.samp.rows.filter fun x => x.queued.contains f
  if mine.isEmpty then b
  else if b.covers f samplingUnit 6 then
    mine.foldl (fun b x => match b.row? x.camp x.slot x.pos with | some y => b.readShard f y | none => b) b
  else if b.waits f samplingUnit || b.holds f samplingUnit then b else b.request f samplingUnit (b.stepClass c) c 6 false

/-- Units whose grants a tick has delivered. -/
def Block.runUnits (b : Block) : Block :=
  (List.range 96).foldl (fun b f =>
    if b.covers f samplingUnit 6 then b.runUnit f 0
    else b.count (F.suRationWaitUs f) (if b.samp.rows.any fun x => x.queued.contains f then 1 else 0)) b

-- Log entry 97 (DEDUCED).
/-- A shard enters a wave of its field and step (R302). -/
def Block.countWave (b : Block) (c f bytes : Nat) : Block :=
  let step := (b.stepSt c).token
  let old := (b.samp.waves.find? fun w => w.1 == c && w.2.1 == f && w.2.2.1 == step).elim 0 (·.2.2.2)
  let rest := b.samp.waves.filter fun w => !(w.1 == c && w.2.1 == f)
  let new := if b.rowBuffer < old + bytes then bytes else old + bytes
  ({ b with samp := { b.samp with waves := rest ++ [(c, f, step, new)] } } : Block).count (F.suWaves f) (if b.rowBuffer < old + bytes then 1 else 0)

-- Log entry 105 (DEDUCED).
/-- A row that holds poison is consumed: its request ends DATA_LOST and its records carry no result (R320). -/
def Block.rowLost (b : Block) (f c slot pos : Nat) : Block :=
  match b.slot? slot with
  | some s =>
    let b1 := if s.ended = 0 then (b.setSlot slot fun x => { x with ended := 0x30 + 1 }).consumedIn f c 0 else b
    match b1.row? c slot pos with
    | some x => (x.shards.map (·.1)).foldl (fun b f => b.restUnit f) (b1.dropRow x)
    | none => b1
  | none => b

-- Log entries 92 (DESIGN CHOICE), 104 (DEDUCED).
/-- SAMPLE_ROW: the LM-head kernel drains a shard row into the unit, once it fits, and the unit reads it in pass 1. -/
def sampleRowEff (c f slot pos : Nat) (logits : List Nat) (poison : Bool) (b : Block) : Block :=
  match b.rowUse slot pos with
  | none => b
  | some (m, _, _) =>
    match (b.batchRows c).findIdx? fun x => x == (slot, pos) with
    | none => b
    | some i =>
      let x := (b.row? c slot pos).getD ⟨c, slot, pos, i, 1, [], [], [], [], [], none, none, none, none⟩
      if logits.length ≠ (m.shardOf f).2 ∨ b.inStep c = false ∨ (b.result? c slot pos).isSome = true then b
      else if x.shards.any fun s => s.1 == f then b.runUnit f c
      else if poison then b.rowLost f c slot pos
      else if b.rowBuffer < b.rowBytes f + 4 * logits.length then b
      else
        let y := { x with shards := x.shards ++ [(f, logits)], queued := x.queued ++ [f] }
        let b1 := if (b.row? c slot pos).isSome then b.setRow y else { b with samp := { b.samp with rows := b.samp.rows ++ [y] } }
        (b1.countWave c f (4 * logits.length)).runUnit f c

/-! ### The end of a row (R314 to R316) -/

-- Log entry 101 (DEDUCED).
/-- The alternatives record (R315). -/
def altsBits (pos alts : Nat) (es : List (Nat × Nat)) (draw : Nat) : Nat :=
  packBits ([(0, 24, pos), (32, 7, alts)] ++ (List.range alts).map fun j =>
    (64 + 64 * j, 64, match es[j]? with | some e => e.1 + 2 ^ 32 * e.2 | none => (Config.altMissing (draw + j)).toNat))

-- Log entry 88 (DEDUCED).
/-- The alternatives record is written into the root's own field part. -/
def Block.writeAlts (b : Block) (r : Request) (s : Slot) (x : SampRow) (root : Nat) (es : List (Nat × Nat)) : Block :=
  match place r.altsObj with
  | .unified _ g off =>
    if r.alts = 0 then b
    else
      let n := altsBytes r.alts
      let at_ := granuleAddr root g + off + n * (s.fork * r.maxNew + (x.pos - r.promptLen))
      ({ b with free := b.free + r.alts } : Block).firmWrite root x.camp at_ n (altsBits x.pos r.alts es b.free)
  | _ => b

/-- Raise an event of a row once per camp and step. -/
def once (l : List (Nat × Nat)) (c step : Nat) : List (Nat × Nat) := (l.filter fun y => y.1 != c) ++ [(c, step)]

-- Log entry 104 (DEDUCED).
/-- The root finishes a row: its result record, its flags, its counts and events. Members that are no root take over the result. -/
def Block.finishRow (b : Block) (m : Model) (r : Request) (s : Slot) (u : SampUse) (x : SampRow) (m1 : Pass1) (m2 : Pass2) : Block :=
  let root := (m.rowRoot x.index).2
  let o := u.outcome x.pos m.vocab m1 m2
  let embed := r.embed && decide (r.kind ≠ 2) && !o.noToken
  let fast := decide (u.k ≤ 8)
  let flags := packBits [(0, 1, u.forced.isSome.toNat), (1, 1, (u.greedy && u.forced.isNone).toNat), (2, 1, o.topPShort.toNat),
    (3, 1, (decide (m1.nans ≠ 0)).toNat), (4, 1, o.nonfinite.toNat), (5, 1, o.noToken.toNat), (6, 1, embed.toNat), (7, 1, u.mode.toNat), (8, 1, fast.toNat)]
  let res : StepResult := ⟨x.camp, x.slot, x.pos, o.token, o.logit, o.logprob, o.lse, o.survivors, flags, min 65535 m1.nans, x.index, if o.noToken then 0x34 else 0⟩
  let b1 := (x.shards.map (·.1)).foldl (fun b f => b.restUnit f)
    (({ b with serve := { b.serve with results := b.serve.results ++ [res] } } : Block).dropRow x)
  if m.rootHere x.index = false then b1
  else
    let step := (b.stepSt x.camp).token
    let pay := packBits [(0, 20, x.slot), (32, 24, x.pos), (64, 32, m1.nans), (96, 32, step)]
    let on (c : Bool) : Nat := if c then 1 else 0
    let b2 := ((((((((b1.bump (F.suRoots root)).bump (if u.forced.isSome then F.rowsForced else F.rowsSampled)).count F.fastRows (on fast)).count
      F.toppShortRows (on o.topPShort)).count F.nanRows (on (decide (m1.nans ≠ 0)))).count F.nonfiniteRows (on (o.nonfinite && !o.noToken))).count
      F.noTokenRows (on o.noToken)).count F.embedGathers (on embed)).writeAlts r s x root o.alts
    let b2 := if embed then b2.gather m s.slot o.token else b2
    let b3 := b2.raiseIf o.noToken 0x0540 root x.camp pay
    let b4 := if m1.nans ≠ 0 ∧ b3.samp.nanSeen.contains (x.camp, step) = false then
      ({ b3 with samp := { b3.samp with nanSeen := once b3.samp.nanSeen x.camp step } } : Block).raise 0x0541 root x.camp pay else b3
    if (o.nonfinite && !o.noToken) = true ∧ b4.samp.oddSeen.contains (x.camp, step) = false then
      ({ b4 with samp := { b4.samp with oddSeen := once b4.samp.oddSeen x.camp step } } : Block).raise 0x0542 root x.camp pay else b4

/-- A merged record of pass 2 or 3 of the whole row: pass 3 follows where PROB_MIN acts on the whole row (R307), else the row ends. -/
def Block.endPass (b : Block) (m : Model) (r : Request) (s : Slot) (u : SampUse) (x : SampRow) (v : Pass2) : Block :=
  match x.m1 with
  | none => b
  | some m1 =>
    if x.pass = 2 ∧ u.probOn = true ∧ u.listFilter = false ∧ rowNonfinite m1 = false then
      (b.setRow { x with m2 := some v, pass := 3, ran := [], nodes2 := [], here2 := none }).count F.thirdPasses (if m.rootHere x.index then 1 else 0)
    else
      let sums := (x.m2.getD v)
      b.finishRow m r s u x m1 { v with sY := sums.sY, sL := sums.sL }

/-- Merge what can merge of a row's records of the present pass. -/
def Block.pushPass2 (b : Block) (m : Model) (r : Request) (s : Slot) (u : SampUse) (x : SampRow) : Block :=
  let t := treeMerge pass2Merge 96 x.pass x.nodes2
  match treeRoot 96 x.pass t.1 with
  | some v => if m.headWafers = 1 then b.endPass m r s u { x with nodes2 := t.1 } v else if x.here2.isSome then b
    else (b.setRow { x with nodes2 := t.1, here2 := some v }).postResident m (m.rowRoot x.index).2 1 (.pass2 x.slot x.pos)
  | none => b.setRow { x with nodes2 := t.1 }

/-- PASS2_START: a unit runs the row's pass 2, or pass 3, over its shard. -/
def pass2StartEff (c slot pos f : Nat) (b : Block) : Block :=
  match b.row? c slot pos, b.rowUse slot pos, b.slot? slot with
  | some x, some (m, r, u), some s =>
    match x.m1, x.shards.find? fun s => s.1 == f with
    | some m1, some sh =>
      if x.pass < 2 ∨ x.ran.contains f = true ∨ b.covers f samplingUnit 6 = false then b
      else
        let lseY := match x.m2 with | some v => logSum m1.yMax v.sY | none => 0
        let v := pass2Over u pos m1 lseY (decide (x.pass = 3)) pass2Start (m.shardOf f).1 sh.2
        let rank := m.treeRank x.index f
        b.pushPass2 m r s u { x with ran := x.ran ++ [f], nodes2 := x.nodes2 ++ [⟨x.pass, 0, rank, decide (rank % 2 = 0), v⟩] }
    | _, _ => b
  | _, _, _ => b

-- Log entry 104 (DEDUCED).
/-- MERGE_RECORD: a record of a pass reaches its merge node. -/
def mergeRecordEff (c slot pos pass lvl idx : Nat) (b : Block) : Block :=
  match b.row? c slot pos, b.rowUse slot pos, b.slot? slot with
  | some x, some (m, r, u), some s =>
    if pass = 1 ∧ x.pass = 1 then b.pushPass1 m u { x with nodes1 := treeArrive x.nodes1 1 lvl idx }
    else if pass = x.pass ∧ 2 ≤ pass then b.pushPass2 m r s u { x with nodes2 := treeArrive x.nodes2 pass lvl idx }
    else b
  | _, _, _ => b

/-- A finished collective brings the other wafers' pass-1 records (R308). -/
def Block.sampCollective1 (b : Block) (c slot pos : Nat) (others : List Pass1) : Block :=
  match b.row? c slot pos, b.rowUse slot pos with
  | some x, some (_, _, u) =>
    match x.here1 with
    | some v => if x.pass = 1 then b.beginPass2 x (others.foldl (pass1Merge u.k) v) else b
    | none => b
  | _, _ => b

/-- A finished collective brings the other wafers' records of pass 2 or 3. -/
def Block.sampCollective2 (b : Block) (c slot pos : Nat) (others : List Pass2) : Block :=
  match b.row? c slot pos, b.rowUse slot pos, b.slot? slot with
  | some x, some (m, r, u), some s =>
    match x.here2 with
    | some v => if 2 ≤ x.pass then b.endPass m r s u x (others.foldl pass2Merge v) else b
    | none => b
  | _, _, _ => b

/-- GENERATOR_TEST: a write of RNG_KEY, RNG_POS or RNG_IDX; RNG_OUT and RNG_GUMBEL read what the words give (R323). -/
def generatorTestEff (fn off value : Nat) (b : Block) : Block :=
  if ¬ (0xB00008 ≤ off ∧ off ≤ 0xB00014 ∧ off % 4 = 0) then b
  else b.barWrite fn off fun b =>
    if off = 0xB00008 then b.stageLow fn off (BitVec.ofNat 32 value)
    else if off = 0xB0000C then b.applyHigh fn 0xB00008 (BitVec.ofNat 32 value)
    else b.writeWord off (BitVec.ofNat 32 value)

/-- RNG_OUT and RNG_GUMBEL. -/
def Block.rngOut (b : Block) : Nat :=
  philox (b.fget F.rngKeyLo + 2 ^ 32 * b.fget F.rngKeyHi) (b.fget F.rngIdxIndex) (b.fget F.rngPosPosition)
def Block.rngGumbel (b : Block) : Nat := gumbel b.rngOut

/-- The rows of a camp leave; a camp reset counts them in each field that holds a shard (R321). -/
def Block.dropRows (b : Block) (c : Nat) : Block :=
  let mine := b.samp.rows.filter fun x => x.camp == c
  let fs := (mine.flatMap fun x => x.shards.map (·.1)).dedup
  fs.foldl (fun b f => b.restUnit f) { b with samp := { b.samp with rows := b.samp.rows.filter fun x => x.camp != c } }

def Block.sampCampReset (b : Block) (c : Nat) : Block :=
  let mine := b.samp.rows.filter fun x => x.camp == c
  let b1 := mine.foldl (fun b x => (x.shards.map (·.1)).foldl (fun b f => b.bump (F.suCampDiscards f)) b) b
  let b2 := b1.dropRows c
  { b2 with samp := { b2.samp with
      waves := b2.samp.waves.filter fun w => w.1 != c
      nanSeen := b2.samp.nanSeen.filter fun y => y.1 != c
      oddSeen := b2.samp.oddSeen.filter fun y => y.1 != c } }

end Sys2Proof.Machine
end

