-- ==== Sys2Proof/Machine/Access.lean ====
section
/-! DEFINITION. Memory operations at their service points (R216, R217): the rights to an address (R89), what a granule answers (R91,
R98, R99, R105 to R107), the channels and their regulators (R118, R125, R128), the shared caches (R130), memory-side adds and atomics
(R132, R134, R142), and the switch of a move (R98, R99, R218). -/
namespace Sys2Proof.Machine

/-! ### Where an operation is served -/

/-- The bytes of an operation as runs that stay in one granule: (address, bytes). -/
def runsOf (width : Nat) : List Nat → List (Nat × Nat)
  | [] => []
  | a :: r =>
    match runsOf width r with
    | (c, k) :: rest => if c = a + width ∧ a / 0x8000 = c / 0x8000 then (a, width + k) :: rest else (a, width) :: (c, k) :: rest
    | [] => [(a, width)]

def MemOp.runs (o : MemOp) : List (Nat × Nat) := runsOf o.width o.addrs

/-- What stands behind a run of an operation. -/
inductive Site where
  /-- refused: 3 unmapped, 4 denied -/
  | denied (code : Nat)
  /-- a physical address -/
  | at_ (p : Nat)
  /-- a unit of the cellar -/
  | cellar (f g u off : Nat)
  /-- a granule whose data is lost and poisoned (R107) -/
  | void (f g : Nat)
  /-- a home that is lost, with a clean source: it is or will be reloaded (R106) -/
  | reload (f g : Nat)
  /-- a home that is lost, without one -/
  | lost (f g : Nat)
  /-- the granule's directory entry is lost, or its object is not there yet (R117, R105) -/
  | wait (f g : Nat)
  /-- a write to a moving granule (R99) -/
  | hold (f g : Nat)
deriving DecidableEq, Repr

/-- Is it an operation of resident firmware? -/
def MemOp.firm (o : MemOp) : Bool := o.thread.isNone && o.array.isNone

def MemKind.isRead : MemKind → Bool
  | .read => true
  | _ => false

/-- Where a home at a tier and place answers a granule's operation. -/
def Block.homeSite (b : Block) (f g off tier loc : Nat) (e : DirEntry) : Site :=
  let o := b.obj f e.object
  if e.poison then .void f g
  else if tier = 3 then
    if o.host ≠ 0 ∧ (sget (fun _ => false) b.cellar.lost loc || b.unitDark loc) = true then .reload f g else .cellar f g loc off
  else if tier = 2 ∧ e.writable = false ∧ b.darkAt (frameAddr f 2 loc) = true then (if (o.clean g).isSome then .reload f g else .lost f g)
  else .at_ (frameAddr f tier loc + off)

/-- Is a home of the granule being put back from a clean source? -/
def Block.reloading (b : Block) (f g : Nat) : Bool :=
  !(b.dirEntry f g).writable && b.tier.moves.any fun m => m.field == f && m.granule == g && m.final != 4

-- Log entry 233 (DEDUCED).
/-- Does an operation serve resident kernels: firmware's, or a resident array's? -/
def Block.resident (b : Block) (o : MemOp) : Bool :=
  match o.array with
  | some k => decide (k < 1152) && b.arrHolder (k / 12) (k % 12) == 2
  | none => match o.thread with
    | some t => ((b.job? (b.thread t).job).map (·.kernel)).getD false
    | none => true

-- Log entry 210 (DEDUCED).
/-- Where a granule answers. -/
def Block.granuleSite (b : Block) (o : MemOp) (f g off : Nat) : Site :=
  let e := b.dirEntry f g
  if b.dirSize ≤ g ∨ e.state = 0 then .denied 3
  else if e.camp ≠ o.camp ∨ (o.kind.isRead = false ∧ e.writable = false) ∨ (b.reserved f g = true ∧ b.resident o = false) then .denied 4
  else if (b.integ.acts.any fun a => a.kind == 1 && a.field == f && a.item == g) = true ∨ (o.firm = false ∧ b.mustWait f g = true) then .wait f g
  else if b.reloading f g then .reload f g
  else if e.state = 5 ∨ e.state = 6 then
    if o.kind.isRead then b.homeSite f g off e.tierB e.locB e else .hold f g
  else b.homeSite f g off e.tierA e.locA e

-- Log entry 233 (DEDUCED).
/-- Where an address of an operation is served (R87, R89). -/
def Block.siteOf (b : Block) (o : MemOp) (a : Nat) : Site :=
  let window := if b.resident o = true ∨ (o.camp = 0 ∧ b.boot.bringup = true) then Site.at_ a else .denied 4
  match place a with
  | .ownCore off => match o.thread with
    | some t => .at_ (localAddr (keyField t) (keyCore t) off)
    | none => .denied 4
  | .local_ .. => window
  | .sram .. => window
  | .dram .. => window
  | .unified f g off => b.granuleSite o f g off
  | .device _ => .denied 4
  | .unmapped => .denied 3

/-- The sites of an operation's runs, with their bytes. -/
def Block.sites (b : Block) (o : MemOp) : List (Site × Nat) := o.runs.map fun r => (b.siteOf o r.1, r.2)

/-! ### Order (R217, R218) -/

-- Log entry 67 (DEDUCED).
/-- Do two operations share a byte? -/
def MemOp.meets (o x : MemOp) : Bool := o.runs.any fun r => x.runs.any fun s => decide (r.1 < s.1 + s.2) && decide (s.1 < r.1 + r.2)

-- Log entry 67 (DEDUCED).
/-- Do two operations share a granule? -/
def MemOp.sameGranule (o x : MemOp) : Bool := o.runs.any fun r => x.runs.any fun s => r.1 / 0x8000 == s.1 / 0x8000

/-- Does it address its core's local memory through its own window? -/
def MemOp.localOp (o : MemOp) : Bool := o.addrs.any fun a => decide (a < 0x40000)

-- Log entry 67 (DEDUCED).
/-- Must an operation wait for an earlier one: of its thread to the same location, of its core to local memory, or a write of its thread
that is held for the same granule? -/
def MemOp.behind (o x : MemOp) : Bool :=
  decide (x.id < o.id) && !x.performed && match o.thread, x.thread with
    | some t, some s =>
      (decide (t = s) && (o.meets x || (decide (x.fed = 9) && o.sameGranule x))) || (decide (t / 4 = s / 4) && o.localOp && x.localOp)
    | _, _ => false

/-! ### Channels and their regulators (R118, R125, R128) -/

-- Log entry 25 (DEDUCED).
/-- Is an access of the operation looked up as a thread core's (R130)? -/
def Block.coreCached (b : Block) (o : MemOp) (p : Nat) : Bool :=
  isDram p && o.array.isNone && b.podCached (physField p) (dramChan p / 8)

/-- What a segment of an operation costs its channel: nothing on a hit; a filled line a burst. -/
def Block.slots (b : Block) (o : MemOp) (p n : Nat) : Nat × Nat :=
  if isDram p = false ∨ b.darkAt p = true then (0, 0)
  else
    let hit := (b.mem.line p).isSome
    let cached := b.coreCached o p
    match o.kind with
    | .read => if hit then (0, 0) else if cached then (1, 0) else carried true p n
    | .write _ => if cached then (if hit ∨ n = 128 then (0, 0) else (1, 0)) else carried false p n
    | .add .. => if hit then (0, 0) else carried false p n
    | .atomic .. => if hit then (0, 0) else (1, 0)

/-- The segments of an operation that reach DRAM. -/
def dramSegs (ss : List (Site × Nat)) : List (Nat × Nat) :=
  ss.flatMap fun s => match s.1 with
    | .at_ p => if isDram p then segs p s.2 else []
    | _ => []

/-- The channels that an operation needs: (field, channel, bursts, narrow slots), each once. -/
def Block.needs (b : Block) (o : MemOp) (ss : List (Site × Nat)) : List (Nat × Nat × Nat × Nat) :=
  let xs := (dramSegs ss).map fun s => (physField s.1, dramChan s.1, b.slots o s.1 s.2)
  (((xs.filter fun x => x.2.2 ≠ (0, 0)).map fun x => (x.1, x.2.1)).dedup).map fun c =>
    let mine := xs.filter fun x => x.1 == c.1 && x.2.1 == c.2
    (c.1, c.2, sumOf (mine.map (·.2.2.1)), sumOf (mine.map (·.2.2.2)))

/-- The controllers that an operation needs: (field, pod), each once. -/
def ctlsOf (ns : List (Nat × Nat × Nat × Nat)) : List (Nat × Nat) := (ns.map fun n => (n.1, n.2.1 / 8)).dedup

/-- The bytes of occupancy that an operation needs at a controller. -/
def bytesAt (ns : List (Nat × Nat × Nat × Nat)) (c : Nat × Nat) : Nat :=
  sumOf ((ns.filter fun n => n.1 == c.1 && n.2.1 / 8 == c.2).map fun n => 128 * n.2.2.1 + 32 * n.2.2.2)

/-- Has every channel of an operation room? -/
def Block.roomFor (b : Block) (ns : List (Nat × Nat × Nat × Nat)) : Bool := ns.all fun n => b.chanRoom n.1 n.2.1

/-- Is every site of an operation an address? -/
def allAt (ss : List (Site × Nat)) : Bool := ss.all fun s => match s.1 with | .at_ _ => true | _ => false

/-- Is an operation ready: not performed, not held, behind no other, and every site an address? -/
def Block.ready (b : Block) (o : MemOp) : Bool :=
  !o.performed && o.fed != 9 && !(b.tc.ops.any fun y => o.behind y) && allAt (b.sites o)

-- Log entry 37 (DESIGN CHOICE).
/-- The tier in which an operation is ready at a controller, its channels having room (R125). -/
def Block.tierAt (b : Block) (c : Nat × Nat) (o : MemOp) : Option Nat :=
  let ns := b.needs o (b.sites o)
  if b.ready o = true ∧ (ctlsOf ns).contains c = true ∧ b.roomFor ns = true then b.covered c.1 c.2 o.camp (bytesAt ns c) else none

/-- Does an eligible operation claim a slot of a controller (R128)? -/
def Block.readyAt (b : Block) (f p : Nat) (o : MemOp) : Bool := (b.tierAt (f, p) o).isSome

-- Log entry 37 (DESIGN CHOICE).
/-- The camp whose turn it is in a tier of a controller (R125), among an operation's and those of the others that are ready there. -/
def Block.turn (b : Block) (c : Nat × Nat) (tier : Nat) (o : MemOp) : Option Nat :=
  let camps := o.camp :: (b.tc.ops.filter fun x => x.id != o.id && b.tierAt c x == some tier).map (·.camp)
  let last := if tier = 0 then (b.ctl c.1 c.2).last0 else (b.ctl c.1 c.2).last1
  ((List.range 16).map fun i => (last + 1 + i) % 16).find? camps.contains

-- Log entries 37 (DESIGN CHOICE), 68 (DEDUCED).
/-- May an operation be served: its channels have room, the buckets of its camp cover it at every controller, and at the first of them no
operation of tier 0 stands before one of tier 1, and it is its camp's turn (R125)? -/
def Block.allowed (b : Block) (o : MemOp) (ss : List (Site × Nat)) : Bool :=
  let ns := b.needs o ss
  b.roomFor ns && ((ctlsOf ns).all fun c => (b.covered c.1 c.2 o.camp (bytesAt ns c)).isSome) && match ctlsOf ns with
    | [] => true
    | c :: _ => match b.covered c.1 c.2 o.camp (bytesAt ns c) with
      | some tier => (decide (tier = 0) || !(b.tc.ops.any fun x => x.id != o.id && b.tierAt c x == some 0)) && b.turn c tier o == some o.camp
      | none => false

-- Log entry 37 (DESIGN CHOICE).
/-- An operation passes its controllers and channels: its tokens are spent, and its bursts and narrow slots are served. -/
def Block.spendAll (b : Block) (o : MemOp) (ss : List (Site × Nat)) : Block :=
  let ns := b.needs o ss
  let b1 := (ctlsOf ns).foldl (fun b c => b.spend c.1 c.2 o.camp (bytesAt ns c)) b
  ns.foldl (fun b n => b.served n.1 n.2.1 n.2.2.1 n.2.2.2) b1

/-- Does a channel of the operation retrain, or still train? -/
def Block.quiet (b : Block) (ss : List (Site × Nat)) : Bool :=
  (dramSegs ss).any fun s =>
    let c := b.chan (physField s.1) (dramChan s.1)
    !b.darkAt s.1 && (decide (b.fab.time < c.quiet) || decide (c.state = 0))

/-! ### Reading and writing at an address -/

-- Log entry 42 (DEDUCED).
/-- The codewords that an operation's read of a segment decodes: those of a line that is filled, else its own. -/
def Block.checkSeg (b : Block) (o : MemOp) (p n : Nat) : Block :=
  if b.darkAt p then b
  else
    let b1 := b.check p n
    if b1.coreCached o p = true ∧ (b1.mem.line p).isNone = true then b1.check (p / 128 * 128) 128 else b1

/-- The line that a new line of its set replaces is decoded as it leaves. -/
def Block.checkVictim (b : Block) (p : Nat) : Block :=
  match (b.wayFor p).2 with
  | some q => b.checkPart q 128
  | none => b

-- Log entry 42 (DEDUCED).
/-- Look a segment up: a hit or a miss, the line filled for a thread core's load. -/
def Block.lookUp (b : Block) (o : MemOp) (p : Nat) : Block :=
  if b.darkAt p = false ∧ b.coreCached o p = true ∧ (b.mem.line p).isNone = true then (b.checkVictim p).fill p else b.lookBulk p 1

/-- What a segment reads: its bytes as a number, and whether it holds poison. -/
def Block.readSeg (b : Block) (p n : Nat) : Nat × Bool :=
  if b.poisonIn p n then (0, true) else (ofBytesLE (b.readBytes p n), false)

/-- Store a segment. -/
def Block.writeSeg (b : Block) (o : MemOp) (p n val : Nat) : Block :=
  let xs := bytesLE n val
  if o.poison then (if b.darkAt p then b.bump (F.darkAccesses (physField p) (dramChan p)) else b.poisonBytes p n)
  else if b.darkAt p then b.bump (F.darkAccesses (physField p) (dramChan p))
  else if o.array.isSome then (b.checkPart p n).storeBulk p xs
  else if b.coreCached o p then
    let b1 := if (b.mem.line p).isSome then b.checkPart p n else b
    if (b1.mem.line p).isSome then b1.storeLine p xs
    else if n = 128 then (b1.checkVictim p).storeLine p xs
    else ((b1.check (p / 128 * 128) 128).checkVictim p).storeLine p xs
  else (b.checkPart p n).putBytes p n xs

/-- Walk the segments of a run with their values: `k` acts on address, bytes and the value's part. -/
def Block.eachSeg (b : Block) (k : Block → Nat → Nat → Nat → Block) : List (Nat × Nat) → Nat → Block
  | [], _ => b
  | (p, n) :: r, val => Block.eachSeg (k b p n (val % 2 ^ (8 * n))) k r (val / 2 ^ (8 * n))

/-! ### Adds and atomics (R132, R134, R142) -/

-- Log entry 178 (DEDUCED).
/-- One element's sum. -/
def addValue (ty old v : Nat) : Nat :=
  match ty with
  | 0 => (old + v) % 2 ^ 32
  | 1 => (old + v) % 2 ^ 64
  | 2 => f32Add old v
  | _ => bfRound (f32Add (bfWide old) (bfWide v))

/-- Change an element in place, in its line or its memory, after its words have been decoded. Answers what it held, or nothing where the
word holds poison. -/
def Block.modify (b : Block) (p n : Nat) (h : Nat → Nat) : Block × Option Nat :=
  let b1 := (b.check p n).takeWrong p
  if b1.mem.poisoned p then (b1, none)
  else
    let old := ofBytesLE (b1.readBytes p n)
    let xs := bytesLE n (h old)
    (if (b1.mem.line p).isSome then b1.mergeLine p xs else b1.putBytes p n xs, some old)

-- Log entry 41 (DEDUCED).
/-- Has a physical target adders (R132, R213): a channel, or a SCRATCH bank of a pod with a shared cache? -/
def Block.adder (b : Block) (p : Nat) : Bool :=
  isDram p || (decide (memOf p = 1) && decide (b.bankMode (physField p) (unitOf p) = 0) && b.podCached (physField p) (unitOf p / 6))

-- Log entry 178 (DEDUCED).
/-- Add the elements of a run, lowest first; answers whether one met poison. -/
def Block.addRun (b : Block) (w ty : Nat) : Nat → Nat → Nat → Bool → Block × Bool
  | 0, _, _, bad => (b, bad)
  | n + 1, p, val, bad =>
    let r := b.modify p w fun old => addValue ty old (val % 2 ^ (8 * w))
    Block.addRun r.1 w ty n (p + w) (val / 2 ^ (8 * w)) (bad || r.2.isNone)

-- Log entry 178 (DEDUCED).
/-- A memory-side add at a run of addresses. -/
def Block.addAt (b : Block) (o : MemOp) (p n ty val : Nat) : Block :=
  let f := physField p
  if b.darkAt p then b.bump (F.darkAccesses f (dramChan p))
  else if o.poison then b.poisonBytes p n
  else
    let atCtl := isDram p && (segs p n).any fun s => (b.mem.line s.1).isNone
    let looked := if isDram p then (segs p n).foldl (fun b s =>
      if b.podCached f (dramChan p / 8) then (if (b.mem.line s.1).isSome then b.bump (F.cacheHits f) else b.bump (F.cacheMisses f)) else b) b else b
    let r := looked.addRun o.width ty (n / o.width) p val false
    let b1 := if atCtl then r.1.bump (F.adds f (dramChan p)) else r.1
    if r.2 = true ∧ isDram p = true then b1.bump (F.addsPoisoned f (dramChan p)) else b1

/-- An atomic's new value: 0 CAS, 1 SWAP, 2 FETCH_ADD, 3 MIN, 4 MAX; types 0 i32, 1 i64, 2 u32, 3 u64, 4 fp32. -/
def atomicValue (fn ty cmp val old : Nat) : Nat :=
  let w := if ty = 1 ∨ ty = 3 then 64 else 32
  let less := if ty < 2 then decide (ofTwos w val < ofTwos w old) else decide (val < old)
  match fn with
  | 0 => if old = cmp then val else old
  | 1 => val
  | 2 => if ty = 4 then f32Add old val else (old + val) % 2 ^ w
  | 3 => if less then val else old
  | _ => if less then old else val

/-- The pod whose atomic unit serves an address, if that pod has a CACHE bank: a channel's, or a SCRATCH bank's. -/
def Block.atomicOk (b : Block) (p n : Nat) : Bool :=
  b.adder p && decide (p % n = 0) && b.podCached (physField p) (if isDram p then dramChan p / 8 else unitOf p / 6)

/-! ### Performing -/

def Block.setOp (b : Block) (id : Nat) (h : MemOp → MemOp) : Block :=
  { b with tc := { b.tc with ops := b.tc.ops.map fun o => if o.id = id then h o else o } }

-- Log entries 42 (DEDUCED), 68 (DEDUCED).
/-- An operation has been performed with a result. -/
def Block.performedWith (b : Block) (o : MemOp) (v : Nat) (poison : Bool) : Block :=
  b.setOp o.id fun x => { x with performed := true, fed := 0, result := if poison then 0 else v, resultPoison := poison }

/-- The word from which an operation's result took its poison (R168). -/
def Block.blame (b : Block) (o : MemOp) (w : Nat) : Block := b.setOp o.id fun x => { x with badAt := if x.resultPoison then w else 0 }

/-- The first word of poison that a read meets, 0 where it has no address. -/
def Block.firstBad (b : Block) (ss : List (Site × Nat)) : Nat :=
  (ss.findSome? fun s => match s.1 with
    | .at_ p => ((b.poisonRuns p s.2).head?).map fun r => wordOf (p + r.1)
    | .void f g => b.readFrame f g
    | _ => none).getD 0

-- Log entry 41 (DEDUCED).
/-- An atomic or add is refused at its target: nothing is done; an atomic returns 0. -/
def Block.refuseAdd (b : Block) (o : MemOp) (code f : Nat) : Block :=
  let b1 := if code = 9 then b.bump (F.atomicsRefused f) else b
  match o.thread with
  | some t => (b1.performedWith o 0 false).faultAt t code o.pc (o.addrs.headD 0)
  | none => b1.performedWith o 0 false

/-- One site's read, its bytes before those already read. -/
def Block.readSite (b : Block) (s : Site × Nat) (rest : Nat × Bool) : Nat × Bool :=
  let join (x : Nat × Bool) (n : Nat) (r : Nat × Bool) : Nat × Bool := (x.1 + 2 ^ (8 * n) * r.1, x.2 || r.2)
  match s.1 with
  | .at_ p => (segs p s.2).foldr (fun q r => join (b.readSeg q.1 q.2) q.2 r) rest
  | .cellar _ _ u off => join (bitsOf (sget (fun _ => 0) b.cellar.units u) (8 * off) (8 * s.2), false) s.2 rest
  | _ => join (0, true) s.2 rest

/-- The frames that an operation's runs are served from, which may not be freed until the read returns (R98). -/
def Block.readAgainst (b : Block) (o : MemOp) : List Nat :=
  (o.runs.filterMap fun r => match place r.1 with
    | .unified f g _ =>
      let e := b.dirEntry f g
      match e.state with
      | 1 | 2 | 4 => some (frameKey f e.tierA e.locA)
      | 5 | 6 => if e.tierB = 1 ∨ e.tierB = 2 then some (frameKey f e.tierB e.locB) else none
      | _ => none
    | _ => none).dedup

/-- Mark a read as issued against its frames. -/
def Block.holdFrames (b : Block) (o : MemOp) : Block :=
  let ks := b.readAgainst o
  let b1 := b.setOp o.id fun x => { x with against := ks }
  { b1 with tier := { b1.tier with frames := ks.foldl (fun m k => supd (fun _ => FrameUse.init) m k fun u => { u with reads := u.reads + 1 }) b1.tier.frames } }

/-- A read is performed; when decoding changes where it is served, it is not performed yet. -/
def Block.performRead (b : Block) (o : MemOp) (ss : List (Site × Nat)) : Block :=
  let at_ := ss.flatMap fun s => match s.1 with | .at_ p => segs p s.2 | _ => []
  let b1 := at_.foldl (fun b s => b.checkSeg o s.1 s.2) b
  if b1.sites o ≠ ss then b1
  else
    let b2 := b1.spendAll o ss
    let b3 := at_.foldl (fun b s => b.lookUp o s.1) b2
    let v := ss.foldr b3.readSite (0, false)
    ((b3.holdFrames o).tick.performedWith o v.1 v.2).blame o (b3.firstBad ss)

-- Log entries 44 (DEDUCED), 68 (DEDUCED).
/-- A store is performed. -/
def Block.performWrite (b : Block) (o : MemOp) (ss : List (Site × Nat)) (val : Nat) : Block :=
  let at_ := ss.flatMap fun s => match s.1 with | .at_ p => segs p s.2 | _ => [(0x40000, s.2)]
  let b1 := b.spendAll o ss
  (b1.eachSeg (fun b p n v => if p = 0x40000 then b else b.writeSeg o p n v) at_ val).performedWith o 0 false

-- Log entry 44 (DEDUCED).
/-- A memory-side add is performed, or refused where its target has no adder. -/
def Block.performAdd (b : Block) (o : MemOp) (ss : List (Site × Nat)) (ty val : Nat) : Block :=
  match ss with
  | [(.at_ p, n)] =>
    if b.adder p then ((b.spendAll o ss).addAt o p n ty val).performedWith o 0 false else b.refuseAdd o 10 (physField p)
  | _ => b.performedWith o 0 false

/-- An atomic is performed by its pod's unit, or refused. -/
def Block.performAtomic (b : Block) (o : MemOp) (ss : List (Site × Nat)) (fn ty cmp val : Nat) : Block :=
  match ss with
  | [(.at_ p, n)] =>
    let f := physField p
    if b.darkAt p then ((b.bump (F.darkAccesses f (dramChan p))).performedWith o 0 true).blame o (wordOf p)
    else if b.atomicOk p n = false then b.refuseAdd o 9 f
    else
      let b1 := b.spendAll o ss
      let b2 := if isDram p then (if (b1.mem.line p).isSome then b1.bump (F.cacheHits f) else ((b1.check (p / 128 * 128) 128).checkVictim p).fill p) else b1
      if o.poison then (b2.poisonBytes p n).performedWith o 0 true
      else
        let r := b2.modify p n (atomicValue fn ty cmp val)
        match r.2 with
        | some old => (r.1.bump (F.atomics f)).performedWith o old false
        | none => ((if isDram p then r.1.bump (F.addsPoisoned f (dramChan p)) else r.1).performedWith o 0 true).blame o (wordOf p)
  | _ => b.performedWith o 0 true

/-- An operation is performed at its sites. -/
def Block.performOp (b : Block) (o : MemOp) (ss : List (Site × Nat)) : Block :=
  match o.kind with
  | .read => b.performRead o ss
  | .write val => b.performWrite o ss val
  | .add ty val => b.performAdd o ss ty val
  | .atomic fn ty cmp val => b.performAtomic o ss fn ty cmp val

-- Log entry 43 (DESIGN CHOICE).
/-- What is done for an operation that stood in a channel queue when its stack entered GRACE: the stack answers it, within the occupancy of
GRACE (R136). -/
def Block.asQueued (b : Block) (o : MemOp) (k : Block → Block) : Block :=
  let fs := if o.queued then (List.range 96).filter fun f => decide ((b.stack f).state = 3) && (List.range 32).any fun n => b.atChan f n o else []
  let b1 := k (fs.foldl (fun b f => b.setStack f { b.stack f with state := 5 }) b)
  fs.foldl (fun b f => b.setStack f { b.stack f with state := 3 }) b1

/-! ### Refusals, waits and failures -/

-- Log entry 34 (DEDUCED).
/-- The field whose DIR_DENIED counts a refused address of an operation (R89). -/
def MemOp.deniedField (o : MemOp) (a : Nat) : Nat := Machine.deniedField o.field a

/-- An array's access fails: its unit stops with what it had not done, and the program ends with an error (R245, R247). -/
def Block.arrFail (b : Block) (o : MemOp) (k err : Nat) : Block :=
  let f := k / 12
  let n := k % 12
  let cls (x : MemOp) : Nat := if x.tag = 0 then 0 else if x.tag < 1024 then 1 else 2
  let mine (x : MemOp) : Bool := x.array == some k && cls x == cls o
  let b := if cls o = 1 then b.absorb f n else b
  let b1 := b.removeOps fun x => mine x && (!x.performed || cls x != 2)
  let x := b1.array f n
  let y := match cls o with
    | 0 => { x with shift := none, shadow := ⟨2, 0, 0⟩, late := setBit x.late 2 false }
    | 1 => { x with late := setBit x.late 3 false }
    | _ => { x with drain := none, late := setBit x.late 4 false }
  (b1.setArray f n y).arrError f n err (o.addrs.headD 0)

-- Log entry 34 (DEDUCED).
/-- A refused operation (R89): a load returns 0, a store or add is dropped, and the JOB faults. -/
def Block.refuseOp (b : Block) (o : MemOp) (a code : Nat) : Block :=
  let b1 := b.bump (F.dirDenied (o.deniedField a))
  match o.thread, o.array with
  | some t, _ => (b1.performedWith o 0 false).faultAt t code o.pc a
  | none, some k => b1.arrFail o k (if code = 3 then 2 else 3)
  | none, none => b1.performedWith o 0 false

/-- The step or descriptor for which an operation waits (R105): (of a step, its token or the descriptor's number). -/
def Block.waitKey (b : Block) (o : MemOp) : Bool × Nat :=
  let jobSeq (id : Nat) : Bool × Nat := match b.job? id with
    | some j => if j.kernel then (true, (b.stepSt o.camp).token) else (false, j.seq)
    | none => (true, (b.stepSt o.camp).token)
  match o.thread, o.array with
  | some t, _ => jobSeq (b.thread t).job
  | none, some k => if (b.array (k / 12) (k % 12)).kind = 1 then jobSeq (b.array (k / 12) (k % 12)).job else (true, (b.stepSt o.camp).token)
  | none, none => (true, (b.stepSt o.camp).token)

/-- The bit of a unit of an array among those that wait: 2 the fetch, 3 the row reads, 4 the drain. -/
def unitBit (tag : Nat) : Nat := if tag = 0 then 2 else if tag < 1024 then 3 else 4

/-- Note whether an access of an array waits for a granule: its unit waits while any of its accesses does (R248). -/
def Block.arrLate (b : Block) (o : MemOp) (on : Bool) : Block :=
  match o.array with
  | some k =>
    let b1 := b.setOp o.id fun x => { x with waiting := on }
    let x := b1.array (k / 12) (k % 12)
    let late := b1.tc.ops.any fun y => y.array == some k && y.waiting && unitBit y.tag == unitBit o.tag
    b1.setArray (k / 12) (k % 12) ({ x with late := setBit x.late (unitBit o.tag) late }.restall b1.fab.time)
  | none => b

/-- An operation waits for a granule's object. -/
def Block.opWaits (b : Block) (o : MemOp) (f g : Nat) : Block :=
  let k := b.waitKey o
  (b.waitFor f o.camp g k.1 k.2).arrLate o true

/-- A lost home is put back from its clean source: from its image or, for a unit that cannot be read, from host memory (R106). -/
def Block.reloadSite (b : Block) (f g : Nat) : Block :=
  let e := b.dirEntry f g
  let o := b.obj f e.object
  if b.moving f g then b
  else if e.state = 3 then
    ({ b with tier := { b.tier with moves := b.tier.moves ++ [⟨f, g, true, 2, 2, 4, false, 0, 4, o.host - 1 + 0x8000 * (g - o.base), 0, false⟩] } } : Block).bump
      (F.reloads f)
  else b.reload f g

/-- The JOB or requests behind an operation end TIER_FAIL (R106); an embedding gather delivers poison (R316, R153). -/
def Block.failOp (b : Block) (o : MemOp) (f g : Nat) : Block :=
  if o.dst.isInput then b.performedWith o 0 true else
  let b1 := (b.opWaits o f g).arrLate o false
  let b2 := b1.readFail f g
  match o.array with
  | some k => b2.arrFail o k 7
  | none => b2.performedWith o 0 true

/-- Queue the unit reads that an operation needs. -/
def Block.feed (b : Block) (o : MemOp) (ss : List (Site × Nat)) : Block :=
  let b1 := (ss.dedup).foldl (fun b s => match s.1 with
    | .cellar f g u _ =>
      let b0 := b.opWaits o f g
      b0.queueRead u (.op o.id) false f (b0.dirEntry f g).object o.camp (b0.opClass o)
    | _ => b) b
  b1.setOp o.id fun x => { x with fed := 1 }

/-- Is a unit read for the operation still queued? -/
def Block.feeding (b : Block) (o : MemOp) : Bool := b.cellar.reads.any fun r => r.who == .op o.id

/-- Has the hold queue of a field room (R99)? -/
def Block.holdRoom (b : Block) (f : Nat) : Bool := decide ((b.tier.held.filter fun h => h.1 == f).length < 64)

-- Log entry 31 (DEDUCED).
/-- A write to a moving granule is held, while the field holds fewer than 64 (R99). -/
def Block.holdOp (b : Block) (o : MemOp) (f g : Nat) : Block :=
  if b.holdRoom f = false then b
  else
    let b1 := (b.setOp o.id fun x => { x with fed := 9 }).bump (F.heldWrites f)
    { b1 with tier := { b1.tier with held := b1.tier.held ++ [(f, g, .op o.id)] } }

-- Log entry 117 (DESIGN CHOICE).
/-- The reads of an operation reach the directory (R95, R103). -/
def Block.touchAll (b : Block) (o : MemOp) : Block :=
  if o.kind.isRead then
    ((o.runs.filterMap fun r => match place r.1 with | .unified f g _ => some (f, g) | _ => none).dedup).foldl (fun b fg =>
      if (b.dirEntry fg.1 fg.2).state = 0 ∨ (b.dirEntry fg.1 fg.2).camp ≠ o.camp then b else b.touch fg.1 fg.2) b
  else b

/-- An operation arrives where its sites are: it is refused, waits, is held, fails, or is performed. -/
def Block.serveOp (b : Block) (o : MemOp) : Block :=
  let ss := b.sites o
  let first (p : Site → Bool) : Option Site := (ss.find? fun s => p s.1).map (·.1)
  match (o.runs.zip ss).find? fun x => match x.2.1 with | .denied _ => true | _ => false with
  | some (r, .denied code, _) => b.refuseOp o r.1 code
  | _ =>
    match first (fun s => match s with | .lost .. | .reload .. | .wait .. | .hold .. => true | _ => false) with
    | some (.lost f g) => b.failOp o f g
    | some (.reload f g) => (b.reloadSite f g).opWaits o f g
    | some (.wait f g) => b.opWaits o f g
    | some (.hold f g) => b.holdOp o f g
    | _ =>
      match first (fun s => match s with | .cellar .. => true | _ => false) with
      | some (.cellar f g _ _) =>
        if o.fed = 0 then b.feed o ss
        else if b.feeding o then b
        else if o.fed = 3 then b.failOp o f g
        else ss.foldl (fun b s => match s.1 with
          | .cellar f g _ _ => b.waitServed f o.camp g (b.waitKey o).1 (b.waitKey o).2
          | _ => b) ((b.arrLate o false).performOp o ss)
      | _ => if b.quiet ss = true ∨ b.allowed o ss = false then b else (b.arrLate o false).performOp o ss

-- Log entry 38 (DEDUCED).
/-- Soft errors strike the codewords that an operation touches, in memory or in a cached line. -/
def Block.strikeAll (b : Block) (o : MemOp) (errs checks : List (Nat × Nat)) : Block :=
  let hits (w : Nat) : Bool := (b.sites o).any fun s => match s.1 with
    | .at_ p => decide (wordOf p ≤ w) && decide (w < p + s.2)
    | _ => false
  let struck : List (Nat × Nat × Nat) := errs.map (fun e => (e.1, e.2, 0)) ++ checks.map fun e => (e.1, 0, e.2)
  struck.foldl (fun b e =>
    let w := wordOf e.1
    if hits w then b.strikeCode (b.codeAt e.1) e.2.1 e.2.2 else b) b

/-- The directory's cache has missed: the entry is read from the reserve by a narrow read, at the camp's tokens (R90, R118). -/
def Block.missDir (b : Block) (o : MemOp) : Block :=
  match place (o.addrs.headD 0) with
  | .unified f g _ => (b.bump (F.dirCacheMisses f)).charge o.camp f (b.dirFrameOf g % 32) 0 1
  | _ => b

-- Log entries 42 (DEDUCED), 67 (DEDUCED), 117 (DESIGN CHOICE).
/-- MEMORY_ACCESS: an operation in flight reaches its service point. `errs` and `checks` are the soft errors that have struck the
data and the check bits of its codewords there (address, pattern), and `dirMiss` says that the directory's cache missed. -/
def memoryAccessEff (id : Nat) (errs checks : List (Nat × Nat)) (dirMiss : Bool) (b : Block) : Block :=
  match b.tc.ops.find? fun o => o.id == id with
  | none => b
  | some o =>
    if o.performed = true ∨ o.fed = 9 then b
    else if b.stale o then b.opDone o
    else if b.tc.ops.any fun x => o.behind x then b
    else if (b.sites o).any fun s => match s.1 with | .at_ p => b.unpowered (physField p) | _ => false then b
    else
      let b1 := if dirMiss then b.missDir o else b
      ((b1.touchAll o).strikeAll o errs checks).asQueued o fun b => b.serveOp o

/-! ### The switch of a move (R98, R99, R218) -/

/-- A bulk access of a DMA element, as the rights and the regulators of a camp see it: no thread's, and no array's. -/
def bulkOp (id camp : Nat) (kind : MemKind) (addrs : List Nat) (width field : Nat) : MemOp :=
  ⟨id, none, camp, 0, kind, addrs, width, false, .none, field, false, 0, false, [], false, 0, some 2000, 0, 0, false, 0⟩

/-- The physical addresses that an element reads and writes, with what it needs of the regulators (R99, R128): the element waits where
the camp's buckets do not cover it. -/
def Block.bulkSpend (b : Block) (camp : Nat) (rd wr : List (Nat × Nat)) : Option Block :=
  let r := bulkOp b.tc.nextOp camp .read [] 0 0
  let w := bulkOp b.tc.nextOp camp (.write 0) [] 0 0
  let rs := rd.map fun x => (Site.at_ x.1, x.2)
  let ws := wr.map fun x => (Site.at_ x.1, x.2)
  if b.allowed r rs = false ∨ b.allowed w ws = false ∨ b.quiet rs = true ∨ b.quiet ws = true then none
  else some ((b.spendAll r rs).spendAll w ws)

/-- A bulk access of a camp, its work at a class, joins the queues of its channels, which may ask for burst mode (R123), and runs once the
regulators let it. -/
def Block.withBulk (b : Block) (camp cls : Nat) (rd wr : List (Nat × Nat)) (k : Block → Block) : Block :=
  let b1 := b.noteBulk cls camp ((rd.flatMap fun x => b.bulkSlots true x.1 x.2) ++ wr.flatMap fun x => b.bulkSlots false x.1 x.2)
  match b1.bulkSpend camp rd wr with
  | some b2 => k b2
  | none => b1

/-- A held write of an element lands in the granule's new home, and the element has landed. -/
def Block.applyElem (b : Block) (f g camp seq i addr n val : Nat) (bad : List (Nat × Nat)) : Block :=
  let b1 : Block := { b with host := { b.host with dmas := b.host.dmas.map fun j =>
    if j.camp == camp && j.seq == seq then { j with landed := j.landed ++ [i] } else j } }
  match b1.readFrame f g with
  | some q =>
    b1.landFor camp (q + addr % 0x8000) (bytesLE n val) bad
  | none => b1

-- Log entry 31 (DEDUCED).
/-- The writes held for a granule are applied to its new home in arrival order. -/
def Block.applyHeld (b : Block) (f g : Nat) : Block :=
  let mine := b.tier.held.filter fun h => h.1 == f && h.2.1 == g
  let b1 : Block := { b with tier := { b.tier with held := b.tier.held.filter fun h => !(h.1 == f && h.2.1 == g) } }
  mine.foldl (fun b h =>
    match h.2.2 with
    | .elem camp seq i addr n val bad => b.applyElem f g camp seq i addr n val bad
    | .op id => match b.tc.ops.find? fun o => o.id == id with
      | some o =>
        let b' := b.setOp o.id fun x => { x with fed := 0 }
        -- an operation whose other granules still move is held for them in turn
        match (b'.sites o).find? fun s => match s.1 with | .hold .. => true | _ => false with
        | some (.hold f' g', _) =>
          let b2 := b'.setOp o.id fun x => { x with fed := 9 }
          { b2 with tier := { b2.tier with held := b2.tier.held ++ [(f', g', .op o.id)] } }
        | _ => b'.asQueued o fun b => b.performOp o (b.sites o)
      | none => b) b1

-- Log entries 31 (DEDUCED), 118 (DEDUCED).
/-- MOVE_SWITCH: the copy of a running move is complete. `hostData` is what a reload from host memory brought. -/
def moveSwitchEff (f g hostData : Nat) (b : Block) : Block :=
  match b.tier.moves.find? fun m => m.field == f && m.granule == g && m.running && m.got with
  | none => b
  | some m =>
    let src := if m.srcTier = 1 ∨ m.srcTier = 2 then [(frameAddr f m.srcTier m.src, 0x8000)] else []
    b.withBulk (b.dirEntry f g).camp m.cls src [(frameAddr f m.tier m.dst, 0x8000)] fun b =>
      let b1 := src.foldl (fun b s => b.check s.1 s.2) b
      (((b1.switchMove m hostData).actAfterMove f g).endWaits).applyHeld f g

end Sys2Proof.Machine
end

