-- ==== Sys2Proof/Machine/Weeder.lean ====
section
/-! DEFINITION. The Weeders of chapter 06 (R156 to R158): their laps, the idle slots that they use, and what they find. -/
namespace Sys2Proof.Machine

/-! ### The Weeders (R156 to R158) -/

def weederKey (f mem : Nat) : Nat := 4 * f + mem

def Block.weeder (b : Block) (f mem : Nat) : Weeder := sget (fun _ => Weeder.init) b.integ.weeders (weederKey f mem)

def Block.setWeeder (b : Block) (f mem : Nat) (x : Weeder) : Block :=
  { b with integ := { b.integ with weeders := sset (fun _ => Weeder.init) b.integ.weeders (weederKey f mem) x } }

/-- The codewords of a memory of a field. -/
def lapWords (mem : Nat) : Nat := match mem with | 0 => 2 ^ 30 | 1 => 24 * 524288 | _ => 288 * 32768

/-- The address of a codeword of a memory. -/
def lapAddr (f mem i : Nat) : Nat :=
  match mem with
  | 0 => dramBase + f * 2 ^ 36 + 32 * i
  | 1 => sramBase + f * 0x10000000 + 8 * i
  | _ => localBase + f * 0x10000000 + 8 * i

/-- The codewords of one unit in a row: a frame of a channel, a bank, a core. -/
def lapUnit (mem : Nat) : Nat := match mem with | 0 => 1024 | 1 => 524288 | _ => 32768

/-- Does a codeword's unit take part in the lap? -/
def Block.lapReady (b : Block) (f mem i : Nat) : Bool :=
  match mem with
  | 0 => !b.darkAt (lapAddr f 0 i) && bitAt (b.fieldSt f).chans (i / 1024 % 32)
  | 1 => bitAt (b.fieldSt f).banks (i / 524288)
  | _ => bitAt (b.fieldSt f).cores (i / 32768)

/-- The next codeword of a lap from one on, units that do not take part skipped. -/
def Block.lapNext (b : Block) (f mem : Nat) : Nat → Nat → Nat
  | 0, i => i
  | n + 1, i => if lapWords mem ≤ i ∨ b.lapReady f mem i = true then i else Block.lapNext b f mem n ((i / lapUnit mem + 1) * lapUnit mem)

/-- Is a Weeder running (R158)? -/
def Block.weederOn (b : Block) (f mem : Nat) : Bool :=
  b.boot.en.integ && (match mem with
    | 0 => decide (b.fget F.weederCtrlDramOn = 1) && decide ((b.stack f).state < 3)
    | 1 => decide (b.fget F.weederCtrlSramOn = 1)
    | _ => decide (b.fget F.weederCtrlLocalOn = 1))

/-- When a Weeder's lap began: not before the end of start-up (R157, R158). -/
def Block.lapStart (b : Block) (x : Weeder) : Nat := max x.lapAt b.integ.weedFrom

/-- The register of a memory's last lap is the Weeder's own `lapMs`; a finished lap is counted for DRAM. -/
def Block.lapDone (b : Block) (f mem : Nat) : Block :=
  let x := b.weeder f mem
  let b1 := b.setWeeder f mem ⟨0, b.fab.time, false, (b.fab.time - b.lapStart x) / 1000000⟩
  if mem = 0 then b1.bump (F.dramLaps f) else b1

/-- The DRAM address of the byte that a codeword of a CACHE bank holds, where a line stands there. -/
def Block.lineAt (b : Block) (w : Nat) : Option Nat :=
  let hit := b.mem.lines.find? fun kv => match kv.2 with
    | some l => decide (b.wayAddr (128 * kv.1) l.way ≤ w) && decide (w < b.wayAddr (128 * kv.1) l.way + 128)
    | none => false
  hit.map fun kv => 128 * kv.1 + w % 128

/-- WEED_SHARE as it acts (R169). -/
def Block.weedShare (b : Block) : Nat := max 1 (min 6 (b.fget F.integConfigWeedShare))

-- Log entry 215 (DESIGN CHOICE).
/-- Has the DRAM Weeder a slot of a channel: one that no eligible operation claims, and of those at most one in 2^WEED_SHARE (R128, R156)? A
burst brings four codewords. -/
def Block.weedSlot (b : Block) (f n : Nat) : Bool :=
  decide ((b.chan f n).weed < 4 * (b.fab.time + 1000)) && b.chanRoom f n && !(b.tc.ops.any fun o => b.readyAt f (n / 8) o)

/-- Is no operation ready at an SRAM bank or core-local memory (R156)? -/
def Block.weedQuiet (b : Block) (f mem unit : Nat) : Bool :=
  !(b.tc.ops.any fun o => b.ready o && (b.sites o).any fun s => match s.1 with
    | .at_ p => decide (physField p = f) && decide (memOf p = mem) && decide (unitOf p = unit)
    | _ => false)

/-- Is the next codeword's memory idle? -/
def Block.weedIdle (b : Block) (f mem i : Nat) : Bool :=
  if mem = 0 then b.weedSlot f (i / 1024 % 32) else b.weedQuiet f mem (i / lapUnit mem)

/-- A codeword takes its share of a channel's slots; every fourth one comes with a new burst. -/
def Block.weedTake (b : Block) (f mem i : Nat) : Block :=
  if mem ≠ 0 then b
  else
    let n := i / 1024 % 32
    let c := b.chan f n
    let b1 := b.setChan f n { c with weed := max c.weed (4 * b.fab.time) + 2 ^ b.weedShare }
    if i % 4 = 0 then b1.served f n 1 0 else b1

/-- The codeword is struck and decoded: a cached line's in a CACHE bank, else the memory's own. -/
def Block.weedWord (b : Block) (f mem i pattern check : Nat) : Block :=
  let w := lapAddr f mem i
  let b1 := b.strikeCode w pattern check
  if mem = 1 ∧ b.bankMode f (i / 524288) = 1 then
    match b.lineAt w with
    | some p => b1.foundLine p true
    | none => b1
  else b1.found w true

/-- WEEDER_READ: the Weeder of a memory of a field reads its next codeword in an idle slot. `pattern` and `check` are the soft errors that
it meets there in data and check bits. -/
def weederReadEff (f mem pattern check : Nat) (b : Block) : Block :=
  if b.weederOn f mem then
    let x := b.weeder f mem
    let i := b.lapNext f mem 300 x.addr
    if lapWords mem ≤ i then b.lapDone f mem
    else if b.weedIdle f mem i = false then b
    else
      let b1 := (b.setWeeder f mem { x with addr := i + 1 }).weedTake f mem i
      let b2 := b1.weedWord f mem i pattern check
      if lapWords mem ≤ b2.lapNext f mem 300 (i + 1) then b2.lapDone f mem else b2
  else b

/-- WEEDER_LAP_SLOW: a lap past LAP_ALARM_MS raises its event once. -/
def weederLapSlowEff (f mem : Nat) (b : Block) : Block :=
  let x := b.weeder f mem
  let ms := (b.fab.time - b.lapStart x) / 1000000
  if b.boot.en.integ = true ∧ x.alarmed = false ∧ max 1 (b.fget F.weederCtrlLapAlarmMs) < ms then
    (b.setWeeder f mem { x with alarmed := true }).raise 0x0105 f 0xFF (integPayload mem 0 0 0 ms 0)
  else b

end Sys2Proof.Machine
end

