-- ==== Sys2Proof/Machine/Dma.lean ====
section
/-! DEFINITION. DMA elements and host memory: COPY (R430), element slots (R560), the data of descriptors (R561), failed and late host
reads (R386), poison on its way to the host (R387), transplants (R263, R264), parks and restores (R360, R368). -/
namespace Sys2Proof.Machine

/-! ### COPY (R430) -/

/-- Where a transfer is cut within a period of a granule: the granule borders of its wafer sides. -/
def cutsOf (sides : List Nat) : List Nat := sortBy (fun x y => decide (x < y)) (sides.map fun a => (0x8000 - a % 0x8000) % 0x8000).dedup

/-- The k-th cut. -/
def cutAt (cs : List Nat) (k : Nat) : Nat := 0x8000 * (k / max 1 cs.length) + cs.getD (k % max 1 cs.length) 0

/-- Where element i starts. -/
def elemStart (cs : List Nat) (i : Nat) : Nat := if cs.headD 0 = 0 then cutAt cs i else if i = 0 then 0 else cutAt cs (i - 1)

/-- How many elements n bytes make. -/
def elemCount (cs : List Nat) (n : Nat) : Nat :=
  (if cs.headD 0 = 0 then 0 else 1) + sumOf (cs.map fun c => if c < n then cdiv (n - c) 0x8000 else 0)

def Desc.srcHost (d : Desc) : Bool := d.bits 16 0 1 == 1
def Desc.dstHost (d : Desc) : Bool := d.bits 16 1 1 == 1
def Desc.copySrc (d : Desc) : Nat := d.field 24 8
def Desc.copyDst (d : Desc) : Nat := d.field 32 8
def Desc.copyLen (d : Desc) : Nat := d.field 40 5

-- Log entry 119 (DEDUCED).
/-- The cuts of a COPY. -/
def Desc.copyCuts (d : Desc) : List Nat :=
  cutsOf ((if d.srcHost then [] else [d.copySrc]) ++ (if d.dstHost then [] else [d.copyDst]))

-- Log entry 119 (DEDUCED).
/-- Element i of a COPY: its offset and its bytes. -/
def Desc.copyElem (d : Desc) (i : Nat) : Nat × Nat :=
  let s := elemStart d.copyCuts i
  (s, min (elemStart d.copyCuts (i + 1)) d.copyLen - s)

/-- Where a COPY finds a wafer address (R430): a unified address of its camp, or a physical window's: for camp 0 in bring-up, or in a
frame of camp 0. -/
def Block.copySite (b : Block) (camp a : Nat) (read : Bool) : Site :=
  let o := bulkOp 0 camp (if read then .read else .write 0) [a] 1 0
  match place a with
  | .sram .. | .dram .. => if camp = 0 ∧ (b.boot.bringup = true ∨ b.ofCamp0 (wordOf a) = true) then .at_ a else .denied 4
  | _ => b.siteOf o a

/-- The first address of a run that a COPY may not reach: (address, code). -/
def Block.copyDenied (b : Block) (camp a n : Nat) (read : Bool) : Option (Nat × Nat) :=
  (List.range (cdiv (a % 0x8000 + n) 0x8000)).findSome? fun i =>
    let x := if i = 0 then a else a / 0x8000 * 0x8000 + 0x8000 * i
    match b.copySite camp x read with
    | .denied code => some (x, code)
    | _ => none

-- Log entry 34 (DEDUCED).
/-- The field whose DIR_DENIED counts a refusal of a descriptor's address (R89): the one it names, else that of the function's port. -/
def Block.deniedFieldOf (b : Block) (d : Desc) (a : Nat) : Nat :=
  deniedField (edgeField b (24 + d.fn / 16)) a

-- Log entry 35 (DEDUCED).
/-- A COPY's address is refused, with its code: counted, and raised unless it is unmapped (R89, R490). -/
def Block.copyRefused (b : Block) (d : Desc) (a code : Nat) : Block :=
  let b1 := b.bump (F.dirDenied (b.deniedFieldOf d a))
  if code = 3 then b1 else b1.protDenied d.camp (0x258 + d.fn / 16) (b.deniedKind d.camp a) d.seq a

-- Log entry 34 (DEDUCED).
/-- A side of a COPY is refused. -/
def Block.refuseSide (b : Block) (d : Desc) (x : Nat × Nat) (off : Nat) : Block :=
  (b.copyRefused d x.1 x.2).refuse d (if x.2 = 3 then 0x21 else 0x25) off

/-- COPY: a consumed COPY is checked, and its elements start. -/
def copyEff (camp seq : Nat) (b : Block) : Block :=
  b.withDesc camp seq 0x07 fun d b =>
    let src := if d.srcHost then none else b.copyDenied camp d.copySrc d.copyLen true
    let dst := if d.dstHost then none else b.copyDenied camp d.copyDst d.copyLen false
    if d.srcHost = true ∧ d.dstHost = true then b.refuse d 0x21 16
    else if d.copyLen = 0 then b.refuse d 0x21 40
    else match src, dst with
      | some x, _ => b.refuseSide d x 24
      | none, some x => b.refuseSide d x 32
      | none, none => (b.startDma camp seq (elemCount d.copyCuts d.copyLen)).start d

/-! ### Ending a descriptor's transfer -/

def Block.dmaOf (b : Block) (camp seq : Nat) : Option DmaJob := b.host.dmas.find? fun j => j.camp == camp && j.seq == seq

def Block.setDma (b : Block) (j : DmaJob) : Block :=
  { b with host := { b.host with dmas := b.host.dmas.map fun x => if x.camp == j.camp && x.seq == j.seq then j else x } }

def Block.dropDma (b : Block) (camp seq : Nat) : Block :=
  { b with host := { b.host with dmas := b.host.dmas.filter fun x => !(x.camp == camp && x.seq == seq) } }

/-- The model that a LOAD_MODEL in hand loads. -/
def Block.loading? (b : Block) (camp seq : Nat) : Option Model := b.serve.models.find? fun m => m.camp == camp && m.seq == seq && m.state == 0

-- Log entries 32 (DESIGN CHOICE), 33 (DEDUCED), 188 (DEDUCED).
/-- A transfer ends with a status other than OK: what has landed stays, and the descriptor completes. A MAP's object and a load's model
are unmapped with it; a PHASE stays in its phase. -/
def Block.failDma (b : Block) (d : Desc) (status body : Nat) : Block :=
  let b1 := (b.dropDma d.camp d.seq).endWorks fun _ u => match u.work with
    | .elem (.job c s _) => c == d.camp && s == d.seq
    | _ => false
  match d.op with
  | 0x01 => match b1.loading? d.camp d.seq with
    | some m => (b1.dropModel m).complete d status body
    | none => b1.complete d status body
  | 0x03 => b1.endWrite d.camp d.seq status body
  | 0x04 => match b1.serve.phaseJobs.find? fun j => j.camp == d.camp && j.seq == d.seq with
    | some j =>
      let landed (i : Nat) : Bool := (b.dmaOf d.camp d.seq).any fun x => sget (fun _ => false) x.done i
      ((b1.restoreEnded d.camp landed 0 j.park).rebuildPools d.camp).endPhase j status body
    | none => b1.complete d status body
  | 0x08 => match b1.objAt (d.field 24 8) with
    | some (f, n, o) => if o.camp = d.camp ∧ o.loading = true then (b1.unmapObj f n).complete d status body else b1.complete d status body
    | none => b1.complete d status body
  | _ => b1.complete d status body

-- Log entry 121 (DEDUCED).
/-- Before the completion of a COPY to host memory is written, each port that carried its data is read, and the read's completion awaited
(R561). The record is queued with these reads; RECORD_WRITE, which writes it, comes when they have ended. -/
def Block.flushPorts (b : Block) (d : Desc) (total : Nat) : Block :=
  if d.dstHost then (((List.range (min total 4)).filterMap (b.dmaFn d.camp)).dedup).foldl (fun b fn => b.send (.flushRead fn)) b else b

/-! ### The fold plan of a load (R236) -/

/-- A run cut at the border of a granule. -/
def cutRun (a n : Nat) : List (Nat × Nat) :=
  if a % 0x8000 + n ≤ 0x8000 then [(a, n)] else [(a, 0x8000 - a % 0x8000), (a / 0x8000 * 0x8000 + 0x8000, n - (0x8000 - a % 0x8000))]

/-- The physical runs of a camp's tile, where every granule of it has its home in DRAM. -/
def Block.tileRuns (b : Block) (camp a n : Nat) : Option (List (Nat × Nat)) :=
  let rs := (cutRun a n).map fun r => match place r.1 with
    | .unified f g off =>
      let e := b.dirEntry f g
      if e.camp = camp ∧ e.tierA = 2 ∧ e.state ≠ 0 then some (frameAddr f 2 e.locA + off, r.2) else none
    | _ => none
  if rs.all Option.isSome then some (rs.filterMap id) else none

-- Log entry 222 (DESIGN CHOICE).
/-- Apply one fold: the tile is read, folded and written back. A tile whose home is not in DRAM, or with poison in it, stays as it is. -/
def Block.applyFold (b : Block) (camp : Nat) (t : LoadFold) : Block :=
  match b.tileRuns camp t.dst (imageBytes t.fmt) with
  | none => b
  | some rs =>
    let b1 := rs.foldl (fun b r => b.readFor camp r.1 r.2) b
    if rs.any fun r => b1.poisonIn r.1 r.2 then b1
    else
      let image := ofBytesLE (rs.flatMap fun r => b1.readBytes r.1 r.2)
      let out := bytesLE (imageBytes t.fmt) (foldImage t.fmt image t.scales)
      (rs.foldl (fun (x : Block × List Byte) r => (x.1.landFor camp r.1 (x.2.take r.2) [], x.2.drop r.2)) (b1, out)).1

/-- LOAD_MODEL applies the fold plan once its objects have landed. -/
def Block.applyFolds (b : Block) (m : Model) : Block := m.folds.foldl (fun b t => b.applyFold m.camp t) b

-- Log entry 121 (DEDUCED).
/-- A transfer whose elements have all ended completes. -/
def Block.settleDma (b : Block) (d : Desc) : Block :=
  match b.dmaOf d.camp d.seq with
  | none => b
  | some j =>
    if j.done.length < j.total then b
    else match d.op with
      | 0x01 => match b.loading? d.camp d.seq with
        | some m => ((b.dropDma d.camp d.seq).applyFolds m).modelLoaded d m
        | none => b
      | 0x03 => b.settleWrite d.camp d.seq
      | 0x04 => match b.serve.phaseJobs.find? fun x => x.camp == d.camp && x.seq == d.seq with
        | some x => (b.dropDma d.camp d.seq).restoreEnded d.camp (fun _ => true) 0 x.park
        | none => b
      | 0x08 => (b.dropDma d.camp d.seq).mapLoaded d
      | _ => ((b.flushPorts d j.total).dropDma d.camp d.seq).complete d 0 d.copyLen

/-- Has a descriptor's element its source in host memory? A load whose container names an image reads that. -/
def Desc.fromHost (d : Desc) : Bool :=
  match d.op with
  | 0x01 => d.field 20 2 == 0 || d.bits 18 0 2 == 2
  | 0x07 => d.srcHost
  | _ => true

/-! ### What an element does -/

/-- The field whose engine runs a descriptor's element, its bytes and the wafer address that it fills, where it has one. -/
structure ElemAt where
  field : Nat
  bytes : Nat
  dst : Option Nat

/-- The physical place of a granule's home in DRAM. -/
def Block.homePlace (b : Block) (f g : Nat) : Nat := frameAddr f 2 (b.dirEntry f g).locA

/-- The place of element i of a list of parked objects. -/
def restorePlace : List (Nat × Nat × Nat) → Nat → Option (Nat × Nat)
  | [], _ => none
  | x :: r, i =>
    if i < x.2.2 then match place x.1 with
      | .unified f g _ => some (f, g + i)
      | _ => none
    else restorePlace r (i - x.2.2)

-- Log entry 119 (DEDUCED).
/-- Where element i of a descriptor belongs. -/
def Block.elemAt (b : Block) (d : Desc) (i : Nat) : Option ElemAt :=
  match d.op with
  | 0x01 => match b.loading? d.camp d.seq with
    | some m => (b.loadPlace m i).map fun x => ⟨x.1, 0x8000, some (b.homePlace x.1 ((b.obj x.1 x.2.1).base + x.2.2))⟩
    | none => none
  | 0x03 => some ⟨b.hostField (unitCc (((b.image? (d.field 18 2)).map (·.base)).getD 0 + d.field 24 4 + i)), 0x8000, none⟩
  | 0x04 => match b.serve.phaseJobs.find? fun j => j.camp == d.camp && j.seq == d.seq with
    | some j => (restorePlace j.park i).map fun x => ⟨x.1, 0x8000, some (b.homePlace x.1 x.2)⟩
    | none => none
  | 0x07 =>
    let e := d.copyElem i
    let near (a : Nat) : Nat := match place a with | .unified f _ _ => f | _ => physField a
    some ⟨near (if d.dstHost then d.copySrc + e.1 else d.copyDst + e.1), e.2, if d.dstHost then none else some (d.copyDst + e.1)⟩
  | _ => match b.objAt (d.field 24 8) with
    | some (f, _, o) => some ⟨f, 0x8000, some (b.homePlace f (o.base + i))⟩
    | none => none

/-- What an element has read: the block, its data, their poisoned runs, and the physical address where they stood, 0 where they have none; or it
waits, or its source has failed. -/
inductive Fetched where
  | data (b : Block) (v : Nat) (bad : List (Nat × Nat)) (at_ : Nat)
  | wait (b : Block)
  | fail (b : Block) (addr : Nat)

-- Log entries 39 (DESIGN CHOICE), 123 (DEDUCED).
/-- A COPY's read of a wafer address. -/
def Block.copyRead (b0 : Block) (d : Desc) (a n : Nat) : Fetched :=
  let b := b0.touchAddr d.camp a
  match b.copySite d.camp a true with
  | .at_ p =>
    let b0 := b.noteBulk 1 d.camp (b.bulkSlots true p n)
    match b0.bulkSpend d.camp [(p, n)] [] with
    | none => .wait b0
    | some b1 =>
      let b2 := b1.check p n
      if b2.copySite d.camp a true ≠ .at_ p then .wait b2
      else .data (b2.lookBulk p n).tick (ofBytesLE (b2.readBytes p n)) (b2.poisonRuns p n) p
  | .cellar f g u off => match b.unitFor u f (b.dirEntry f g).object d.camp d.seq with
    | (b1, none) => .wait (b1.waitFor f d.camp g false d.seq)
    | (b1, some (some v)) => .data (b1.waitServed f d.camp g false d.seq) (bitsOf v (8 * off) (8 * n)) [] 0
    | (b1, some none) => if ((b.obj f (b.dirEntry f g).object).host) ≠ 0 then .wait (b1.reloadSite f g) else .fail (b1.readFail f g) (granuleAddr f g)
  | .void f g => .data b 0 [(0, n)] ((b.readFrame f g).getD 0)
  | .lost f g => .fail (b.readFail f g) (granuleAddr f g)
  | .reload f g => .wait ((b.reloadSite f g).waitFor f d.camp g false d.seq)
  | .wait f g => .wait (b.waitFor f d.camp g false d.seq)
  | .hold .. => .wait b
  | .denied _ => .fail b a

-- Log entry 120 (DEDUCED).
/-- Count the requests of an element of a function to host memory: reads no larger than Max_Read_Request_Size, writes no larger than
Max_Payload_Size (R383). -/
def Block.countHost (b : Block) (fn f n : Nat) (write : Bool) : Block :=
  if write then b.count (F.dmaHostWrites f) (cdiv n (128 * 2 ^ min 2 (b.fnSt fn).mps))
  else b.count (F.dmaHostReads f) (cdiv n (128 * 2 ^ min 5 (b.fnSt fn).mrrs))

-- Log entry 120 (DEDUCED).
/-- An element has moved its bytes: its slot is released, and it is counted (R560). -/
def Block.elemEnds (b : Block) (f : Nat) (w : DmaWork) (n : Nat) : Block :=
  ((b.endWork f (.elem w)).bump (F.dmaElements f)).count (F.dmaKib f) (cdiv n 1024)

/-- Element i of a descriptor has ended. -/
def Block.elemDone (b : Block) (d : Desc) (i : Nat) : Block :=
  match b.dmaOf d.camp d.seq with
  | some j => (b.setDma { j with done := sset (fun _ => false) j.done i true, got := sset (fun _ => none) j.got i none }).settleDma d
  | none => b

/-- An element of a COPY writes to a moving granule: the directory holds its write (R99). -/
def Block.holdElem (b : Block) (d : Desc) (i f g addr n v : Nat) (bad : List (Nat × Nat)) : Block :=
  let mine (h : Nat × Nat × HeldBy) : Bool := match h.2.2 with
    | .elem c s k _ _ _ _ => c == d.camp && s == d.seq && k == i
    | _ => false
  if b.tier.held.any mine = true ∨ b.holdRoom f = false then b
  else
    let b1 := b.bump (F.heldWrites f)
    { b1 with tier := { b1.tier with held := b1.tier.held ++ [(f, g, .elem d.camp d.seq i addr n v bad)] } }

-- Log entry 123 (DEDUCED).
/-- A COPY's element with its data, which stood at a physical address: to host memory, where its poison is consumed (R154), or to the wafer. -/
def Block.copyWrite (b : Block) (d : Desc) (i f : Nat) (v : Nat) (bad : List (Nat × Nat)) (src : Nat) : Block :=
  let e := d.copyElem i
  if d.dstHost then
    if bad ≠ [] then
      (b.consumedIn f d.camp (if src = 0 then 0 else wordOf (src + (bad.headD (0, 0)).1))).failDma d 0x30 (failBody (d.copySrc + e.1) f)
    else match b.dmaFn d.camp i with
      | some fn => (((b.send (.hostWrite fn (d.copyDst + e.1) e.2 v (b.fnSt fn).relaxed)).countHost fn f e.2 true).elemEnds f (.job d.camp d.seq i) e.2).elemDone d i
      | none => b
  else match b.copySite d.camp (d.copyDst + e.1) false with
    | .at_ p => b.withBulk d.camp 1 [] [(p, e.2)] fun b =>
        (((b.checkPart p e.2).landBytes p (bytesLE e.2 v) bad).elemEnds f (.job d.camp d.seq i) e.2).elemDone d i
    | .denied c =>
      let b1 := b.copyRefused d (d.copyDst + e.1) c
      b1.failDma d (if c = 3 then 0x21 else 0x25) 32
    | .void .. => ((b.elemEnds f (.job d.camp d.seq i) e.2)).elemDone d i
    | .wait f' g => b.waitFor f' d.camp g false d.seq
    | .hold f' g => b.holdElem d i f' g (d.copyDst + e.1) e.2 v bad
    | _ => b

-- Log entry 123 (DEDUCED).
/-- An element of a descriptor runs in a slot. -/
def Block.runElem (b : Block) (d : Desc) (i f : Nat) (x : ElemAt) : Block :=
  let data? := ((b.dmaOf d.camp d.seq).map fun j => sget (fun _ => none) j.got i).getD none
  let landed := (b.dmaOf d.camp d.seq).any fun j => j.landed.contains i
  match d.op with
  | 0x07 =>
    if landed then (b.elemEnds f (.job d.camp d.seq i) x.bytes).elemDone d i
    else if d.srcHost then match data? with
      | some v => b.copyWrite d i f v [] 0
      | none => b
    else match b.copyRead d (d.copySrc + (d.copyElem i).1) x.bytes with
      | .data b1 v bad at_ => b1.copyWrite d i f v bad at_
      | .wait b1 => b1
      | .fail b1 a => b1.failDma d 0x31 (failBody a f)
  | 0x01 => match b.loading? d.camp d.seq with
    | none => b
    | some m =>
      if d.fromHost then match data? with
        | some v => ((b.loadElement m i v false).elemEnds f (.job d.camp d.seq i) 0x8000).elemDone d i
        | none => b
      else match b.loadPlace m i with
        | none => b
        | some (_, n, g) => match b.unitFor ((b.obj f n).image - 1 + 96 * g) f n d.camp d.seq with
          | (b1, none) => b1
          | (b1, some (some _)) => ((b1.loadElement m i 0 true).elemEnds f (.job d.camp d.seq i) 0x8000).elemDone d i
          | (b1, some none) =>
            let a := granuleAddr f ((b1.obj f n).base + g)
            (((b1.bump (F.tierFails f)).raise 0x0403 f d.camp (tierPayload n 0 1 a))).failDma d 0x31 (failBody a f)
  | 0x03 => match data? with
    | some v => ((b.installElement d i v).elemEnds f (.job d.camp d.seq i) 0x8000).elemDone d i
    | none => b
  | 0x04 => match data?, b.serve.phaseJobs.find? fun j => j.camp == d.camp && j.seq == d.seq with
    | some v, some j => ((b.restoreElement i v j.park).elemEnds f (.job d.camp d.seq i) 0x8000).elemDone d i
    | _, _ => b
  | _ => match data? with
    | some v => ((b.mapElement d i v).elemEnds f (.job d.camp d.seq i) 0x8000).elemDone d i
    | none => b

/-! ### Transplants (R263, R264) -/

-- Log entry 71 (DEDUCED).
/-- A half of a tray moves into its open page: the keys or the values of its D positions, once the step has written the last one. The one
that fills offset 255 with its other half done seals the page. -/
def Block.transplant (b : Block) (slot pair : Nat) (values : Bool) (f : Nat) : Block :=
  match b.slot? slot, b.slotModel slot with
  | some s, some m =>
    let key := b.page.trays.find? fun kv => match kv.2 with | some t => t.slot == slot && t.pair == pair | none => false
    match key with
    | some (k, some t) =>
      let page := s.t / 256
      let v := b.pte slot pair page
      let n := 2 * m.dim
      let due := decide ((s.t + 1) % max 1 m.depth = 0) && s.runs && decide (k / 2 ^ 27 = f) && (b.stepSt s.camp).inStep &&
        decide ((b.campField s.camp f).token = (b.stepSt s.camp).token) && !(if values then t.valuesMoved else t.keysMoved) &&
        !(b.page.elems.any fun e => decide (e.kind = 0) && e.slot == slot && e.pair == pair)
      if due = false then b
      else
        let b1 := b.validPage f slot pair page
        let move (b : Block) (q : Nat) : Block :=
          let pos := s.t + 1 - m.depth + q
          let from_ := b.trayPlaces m slot pair pos
          let to_ := pagePlaces m f (pteFrame v) (pos % 256)
          let a := if values then (from_.2, to_.2) else (from_.1, to_.1)
          let b' := b.readFor s.camp a.1 n
          b'.tick.landFor s.camp a.2 (b'.readBytes a.1 n) (b'.poisonRuns a.1 n)
        let b2 := if pteStands v then (List.range m.depth).foldl move b1 else b1
        let t1 : TrayEnt := if values then { t with valuesMoved := true } else { t with keysMoved := true }
        let b3 : Block := { b2 with page := { b2.page with trays := sset (fun _ => none) b2.page.trays k (some t1) } }
        let b4 := (((b3.bump (F.transplants f)).elemEnds f (.transplant slot pair values) (n * m.depth)).ackDrop s.camp f 1).tick
        if t1.keysMoved = true ∧ t1.valuesMoved = true ∧ (s.t + 1) % 256 = 0 ∧ pteStands v = true then b4.sealPage f (pteFrame v) else b4
    | _ => b
  | _, _ => b

/-! ### DMA_ELEMENT_DONE (R560) -/

/-- The class of a descriptor's data (R71). -/
def Desc.dmaClass (d : Desc) : Nat := if d.op = 0x03 then 2 else 1

/-- DMA_ELEMENT_DONE: an element runs in a slot of a field's engine and ends there. -/
def dmaElementDoneEff (f slot : Nat) (w : DmaWork) (b : Block) : Block :=
  if b.unpowered f then b
  else match w with
  | .job camp seq i => match b.desc? camp seq, b.dmaOf camp seq with
    | some d, some j =>
      if j.total ≤ i ∨ sget (fun _ => false) j.done i = true then b
      else match b.elemAt d i with
        | some x => if x.field ≠ f then b else b.inSlot f slot d.dmaClass camp x.bytes (.elem w) fun b => b.runElem d i f x
        | none => b
    | _, _ => b
  | .transplant s pair values => match b.slot? s, b.slotModel s with
    | some x, some m => b.inSlot f slot (b.stepClass x.camp) x.camp (2 * m.dim * m.depth) (.elem w) fun b => b.transplant s pair values f
    | _, _ => b
  | .park camp entry granule => match b.serve.parks.find? fun k => k.camp == camp && k.entry == entry && !k.landed with
    | some k => match place k.addr with
      | .unified f' _ _ =>
        if f' ≠ f ∨ k.granules ≤ granule ∨ k.done.contains granule = true then b
        else b.inSlot f slot 1 camp 0x8000 (.elem w) fun b =>
          ((b.parkElement camp entry granule).countHost ((b.dmaFn camp granule).getD 0) f 0x8000 true).elemEnds f w 0x8000
      | _ => b
    | none => b
  | .page e =>
    if e.field ≠ f ∨ b.page.elems.contains e = false then b
    else b.inSlot f slot (b.stepClass e.camp) e.camp e.bytes (.elem w) fun b =>
      let b1 := ({ b with page := { b.page with elems := b.page.elems.filter (· != e) } } : Block).elemEnds f w e.bytes
      if e.kind = 2 then b1.ackDrop e.camp f 1 else b1
  | .other => b.inSlot f slot 1 0xFF 0x8000 (.elem w) fun b => b.clearSlot f slot

/-! ### Host reads (R386) -/

/-- The camp, the number and the function of a host read. -/
def Block.readOwner (b : Block) (w : HostRead) : Nat × Nat × Nat :=
  match w with
  | .elem camp seq i => (camp, seq, (b.dmaFn camp i).getD 0)
  | .ring fn _ => (b.fnCamp fn, 0, fn)
  | .table camp seq => (camp, seq, ((b.desc? camp seq).map (·.fn)).getD ((b.dmaFn camp 0).getD 0))

/-- A host read has failed: counted, and raised once per descriptor. `cause` is 1 UR, 2 CA, 3 timeout, 4 poisoned. -/
def Block.hostFail (b : Block) (w : HostRead) (cause addr : Nat) : Block :=
  let x := b.readOwner w
  let fn := x.2.2
  let b1 := b.bump (F.fnDmaFails fn)
  let isRing := match w with | .ring .. => true | _ => false
  if isRing = false ∧ b.host.failRaised.contains (x.1, x.2.1) = true then b1
  else
    let b2 := b1.raise 0x0805 (edgeField b (24 + fn / 16)) x.1 (packBits [(0, 2, fn / 16), (8, 6, fn),
      (16, 3, (b.portSt (fn / 16)).speed), (24, 6, (b.portSt (fn / 16)).width), (32, 4, cause), (64, 64, addr)])
    if isRing then b2 else { b2 with host := { b2.host with failRaised := b2.host.failRaised ++ [(x.1, x.2.1)] } }

/-- A ring whose descriptor could not be read consumes nothing more (R386, R434). -/
def Block.stopRing (b : Block) (fn i cause addr : Nat) : Block :=
  let k := ringKey fn i
  let s := b.ringSt k
  (b.setRing k { s with stopped := true }).raise 0x0813 0xFF (b.fnCamp fn)
    (packBits [(0, 8, fn), (8, 8, i), (16, 8, cause), (24, 8, ringKind b.regs k), (48, 16, s.head), (64, 64, addr)])

-- Log entry 32 (DESIGN CHOICE).
/-- What a failed read ends: the ring stops; a transfer completes BAD_PARAM for UR or CA, INTERNAL for a timeout, DATA_LOST for
poison, which is written over the element's place. -/
def Block.hostReadFails (b : Block) (w : HostRead) (cause addr : Nat) : Block :=
  let b1 := b.hostFail w cause addr
  match w with
  | .ring fn i => b1.stopRing fn i cause addr
  | .table .. => b1
  | .elem camp seq i => match b1.desc? camp seq, b1.dmaOf camp seq with
    | some d, some _ =>
      if cause = 4 then
        let b2 := match (b1.elemAt d i).bind (·.dst) with
          | some a => if d.op = 0x07 then (match b1.copySite camp a false with | .at_ p => b1.poisonBytes p (d.copyElem i).2 | _ => b1)
            else b1.poisonBytes a 0x8000
          | none => b1
        b2.failDma d 0x30 (failBody addr 0xFF)
      else if cause = 3 then b1.tick.failDma d 0x34 (Config.internalReason b1.free).toNat
      else b1.failDma d 0x21 0
    | _, _ => b1

-- Log entries 7 (DESIGN CHOICE), 122 (DEDUCED).
/-- Is the read one that the block has issued? -/
def Block.readIssued (b : Block) (w : HostRead) : Bool :=
  match w with
  | .elem camp seq i => match b.desc? camp seq, b.dmaOf camp seq with
    | some d, some j => d.fromHost && decide (i < j.total) && !sget (fun _ => false) j.done i && (sget (fun _ => none) j.got i).isNone &&
        (b.dmaFn camp i).isSome
    | _, _ => false
  | .ring fn i =>
    let s := b.ringSt (ringKey fn i)
    s.enabled && !s.stopped && decide (ringKind b.regs (ringKey fn i) < 2) && decide (s.tail ≠ s.head)
  | .table camp seq => (b.desc? camp seq).isSome || (b.serve.queue.any fun r => r.camp == camp && r.seq == seq)

-- Log entry 155 (PRESUMED).
/-- HOST_READ_COMPLETION: a completion for a host read arrives: `status` 0 with its data, 1 UR, 2 CA, 4 poisoned. -/
def hostReadCompletionEff (w : HostRead) (status addr data : Nat) (b : Block) : Block :=
  if b.readIssued w = false then b
  else
    let b1 : Block := { b with host := { b.host with late := b.host.late.filter (· != w) } }
    let port := (b.readOwner w).2.2 / 16
    if status ≠ 0 then (if status = 4 then (b1.bump (F.poisonedRx port)).bump (F.uncorrErrors port) else b1).hostReadFails w status addr
    else match w with
      | .elem camp seq i => match b1.desc? camp seq, b1.dmaOf camp seq with
        | some d, some j => match b1.elemAt d i with
          | some x => (b1.setDma { j with got := sset (fun _ => none) j.got i (some (data % 2 ^ (8 * x.bytes))) }).countHost (b.readOwner w).2.2 x.field x.bytes false
          | none => b1
        | _, _ => b1
      | _ => b1

-- Log entry 122 (DEDUCED).
/-- HOST_READ_TIMEOUT: a read's completion is late: the read is issued once more, and a second timeout is its failure. -/
def hostReadTimeoutEff (w : HostRead) (addr : Nat) (b : Block) : Block :=
  if b.readIssued w = false then b
  else
    let b1 := b.bump (F.cplTimeouts ((b.readOwner w).2.2 / 16))
    if b.host.late.contains w then
      ({ b1 with host := { b1.host with late := b1.host.late.filter (· != w) } } : Block).hostReadFails w 3 addr
    else { b1 with host := { b1.host with late := b1.host.late ++ [w] } }

end Sys2Proof.Machine
end

