-- ==== Sys2Proof/Machine/Yilgil.lean ====
section
/-! DEFINITION. Yilgil ports (R437 to R446), packets and routes (R440, R442, R448), domain time (R453, R454), and the collective engine
(R455 to R464). -/
namespace Sys2Proof.Machine

/-! ### Ports -/

def Block.port (b : Block) (p : Nat) : YgPort := sget (fun _ => YgPort.init) b.yg.ports p

def Block.setPort (b : Block) (p : Nat) (x : YgPort) : Block := { b with yg := { b.yg with ports := sset (fun _ => YgPort.init) b.yg.ports p x } }

-- Log entry 132 (DEDUCED).
/-- The bundle of a port: 0 -X, 1 +X, 2 -Y, 3 +Y, 4 -Z, 5 +Z. -/
def bundleOf (p : Nat) : Nat := p / 4

-- Log entry 137 (DEDUCED).
/-- The shape is out of range, or a coordinate is not below its dimension (R466). -/
def Block.domainBad (b : Block) : Bool :=
  let d := b.dims
  let m := b.moduleId
  decide (d.1 = 0 ∨ 8 < d.1 ∨ d.2.1 = 0 ∨ 8 < d.2.1 ∨ d.2.2 = 0 ∨ 4 < d.2.2 ∨ d.1 ≤ modX m ∨ d.2.1 ≤ modY m ∨ d.2.2 ≤ modZ m)

/-- The dimension of an axis. -/
def axisDim (d : Nat × Nat × Nat) (a : Nat) : Nat := match a with | 0 => d.1 | 1 => d.2.1 | _ => d.2.2

/-- A module's coordinate on an axis. -/
def axisOf (m a : Nat) : Nat := match a with | 0 => modX m | 1 => modY m | _ => modZ m

/-- A module with one coordinate changed. -/
def withAxis (m a v : Nat) : Nat := match a with | 0 => m / 8 * 8 + v | 1 => m / 64 * 64 + 8 * v + m % 8 | _ => m % 64 + 64 * v

/-- The neighbour that a bundle faces (R439). -/
def Block.neighbour (b : Block) (bundle : Nat) : Nat :=
  let a := bundle / 2
  let d := max 1 (axisDim b.dims a)
  let x := axisOf b.moduleId a
  withAxis b.moduleId a (if bundle % 2 = 1 then (x + 1) % d else (x + d - 1) % d)

/-- The port of the neighbour that a port faces: the same place of the opposite bundle. -/
def facingPort (p : Nat) : Nat := if bundleOf p % 2 = 0 then p + 4 else p - 4

/-- Is a port never trained? -/
def Block.portOff (b : Block) (p : Nat) : Bool := b.domainBad || decide (axisDim b.dims (bundleOf p / 2) < 2)

/-- A port as a requester, one engine a physical lane (R461). -/
def laneAsker (p lane : Nat) : Asker := ⟨0x240 + p, 0xFF, lane⟩

def Block.portField (b : Block) (p : Nat) : Nat := b.siteDesk (edgeSite p)

/-- The physical lane that carries a logical lane. -/
def YgPort.carrier (x : YgPort) (k : Nat) : Nat := if x.spareFor = k then 4 else k

/-- Do a port's four lanes hold their rations? -/
def Block.lanesGranted (b : Block) (p : Nat) : Bool := (List.range 4).all fun k => b.covers (b.portField p) (laneAsker p ((b.port p).carrier k)) 5

/-- A port's lanes ask for what they do not hold. -/
def Block.askLanes (b : Block) (p : Nat) : Block :=
  (List.range 4).foldl (fun b k =>
    let who := laneAsker p ((b.port p).carrier k)
    if b.holds (b.portField p) who || b.waits (b.portField p) who then b else b.request (b.portField p) who 0 0xFF 5 false) b

/-- A port's lanes taper: every grant goes back. -/
def Block.dropLanes (b : Block) (p : Nat) : Block :=
  (List.range 5).foldl (fun b l => (b.withdraw (b.portField p) (laneAsker p l)).release (b.portField p) (laneAsker p l)) b

-- Log entry 129 (DEDUCED).
/-- Raise an event of a port. -/
def Block.portEvent (b : Block) (code p payload : Nat) : Block := b.raise code (siteField b.wafer.kinds (edgeSite p)) 0xFF payload

/-! ### Routes (R448) and flows (R442) -/

-- Log entry 132 (DEDUCED).
/-- The first hop toward a module: its axis, whether it goes in the + direction, and whether it crosses between coordinate DIM - 1 and 0. -/
def Block.firstHop (b : Block) (dst : Nat) : Option (Nat × Bool × Bool) :=
  ((List.range 3).find? fun a => axisOf b.moduleId a != axisOf dst a).map fun a =>
    let d := max 1 (axisDim b.dims a)
    let x := axisOf b.moduleId a
    let y := axisOf dst a
    let fwd := (y + d - x) % d
    let plus := decide (2 * fwd ≤ d)
    (a, plus, if plus then decide (x + 1 = d) else decide (x = 0))

-- Log entry 132 (DEDUCED).
/-- The ports up that lead to a module: its bundle's, and on an axis of dimension 2 both bundles'. -/
def Block.portsTo (b : Block) (dst : Nat) : List Nat :=
  match b.firstHop dst with
  | none => []
  | some (a, plus, _) => (List.range 24).filter fun p =>
      decide ((b.port p).state = 3) && (decide (bundleOf p = 2 * a + plus.toNat) || (decide (axisDim b.dims a = 2) && decide (bundleOf p / 2 = a)))

/-! Fields of a header flit (R440). -/

def hdrClass (h : Nat) : Nat := bitsOf h 0 2
def hdrVc (h : Nat) : Nat := bitsOf h 2 1
def hdrLen (h : Nat) : Nat := bitsOf h 8 5
def hdrDst (h : Nat) : Nat := bitsOf h 16 8
def hdrSrc (h : Nat) : Nat := bitsOf h 24 8
def hdrDstField (h : Nat) : Nat := bitsOf h 32 8
def hdrSrcField (h : Nat) : Nat := bitsOf h 40 8
def hdrCampOf (h : Nat) : Nat := bitsOf h 48 4
def hdrCollId (h : Nat) : Nat := bitsOf h 64 32
def hdrSeqOf (h : Nat) : Nat := bitsOf h 96 16

/-- The receive buffer of a packet: COLL VC0, COLL VC1, CTRL VC0, CTRL VC1. -/
def hdrBuffer (h : Nat) : Nat := 2 * (hdrClass h - 1) + hdrVc h

/-! ### Sending (R441, R443) -/

-- Log entry 126 (DESIGN CHOICE).
/-- Send a codeword of flits, filled up with LINK flits; it is kept until it is acknowledged. -/
def Block.sendCodeword (b : Block) (p : Nat) (flits : List Nat) : Block :=
  let x := b.port p
  let all := flits ++ List.replicate (20 - flits.length) 0
  (b.setPort p { x with txSeq := (x.txSeq + 1) % 4096, unacked := x.unacked ++ [(x.txSeq, all)] }).send (.codeword p x.txSeq false all)

/-- Do credits cover what waits for a buffer? LINK flits, which wait under 4, need none (R443). -/
def YgPort.covered (x : YgPort) (w : Nat × List Nat) : Bool := decide (w.1 = 4) || decide (w.2.length ≤ x.credits.getD w.1 0)

-- Log entry 126 (DESIGN CHOICE).
/-- Send the waiting packets and LINK flits of a port that credit and the replay buffer allow, oldest first in each buffer. -/
def Block.flushPort (b : Block) (p : Nat) : Block :=
  (b.port p).waiting.foldl (fun b w =>
    let x := b.port p
    let first := (x.waiting.find? fun y => y.1 == w.1) == some w
    if x.state ≠ 3 ∨ first = false ∨ x.covered w = false ∨ 256 ≤ x.unacked.length then b
    else (b.setPort p { x with waiting := dropFirst (· == w) x.waiting, credits := x.credits.set w.1 (x.credits.getD w.1 0 - w.2.length) }).sendCodeword p w.2) b

-- Log entry 126 (DESIGN CHOICE).
/-- Place a packet on the port of its flow, or hold it while its route has none. -/
def Block.placePacket (b : Block) (flits : List Nat) : Block :=
  let h := flits.headD 0
  let ps := b.portsTo (hdrDst h)
  match ps[(hdrSrcField h + hdrDstField h) % max 1 ps.length]? with
  | some p =>
    let x := b.port p
    (b.setPort p { x with waiting := x.waiting ++ [(hdrBuffer h, flits)] }).flushPort p
  | none => { b with yg := { b.yg with held := b.yg.held ++ [flits] } }

/-- Try the held packets again. -/
def Block.placeHeld (b : Block) : Block := b.yg.held.foldl (fun b x => b.placePacket x) { b with yg := { b.yg with held := [] } }

-- Log entry 132 (DEDUCED).
/-- A header with the VC of its next hop: VC1 on a hop that crosses, and behind it in that dimension; VC0 on entering a dimension. -/
def Block.withVc (b : Block) (h : Nat) (from_ : Option Nat) : Nat :=
  match b.firstHop (hdrDst h) with
  | some (a, _, cross) =>
    let kept := match from_ with | some p => if bundleOf p / 2 = a then hdrVc h else 0 | none => 0
    packBits [(0, 2, h), (2, 1, if cross then 1 else kept), (3, 253, h / 8)]
  | none => h

-- Log entry 134 (DEDUCED).
def flowKey (h : Nat) : Nat := packBits [(0, 2, hdrClass h), (2, 8, hdrSrcField h), (10, 8, hdrDstField h), (18, 8, hdrDst h), (26, 8, hdrSrc h)]

/-- Send a packet of this module's: class, fields, camp, code, instance, argument, TIME, payload. -/
def Block.sendTimed (b : Block) (cls dst dstField srcField camp op id arg time : Nat) (payload : List Nat) : Block :=
  let h := packBits [(0, 2, cls), (8, 5, payload.length), (16, 8, dst), (24, 8, b.moduleId), (32, 8, dstField), (40, 8, srcField), (48, 4, camp), (56, 8, op),
    (64, 32, id), (160, 32, arg), (192, 64, time), (4, 1, if (b.stack srcField).state = 2 then 1 else 0)]
  let n := sget (fun _ => 0) b.yg.flowsOut (flowKey h)
  let b1 : Block := { b with yg := { b.yg with flowsOut := sset (fun _ => 0) b.yg.flowsOut (flowKey h) ((n + 1) % 65536) } }
  b1.placePacket (b1.withVc (h + packBits [(96, 16, n)]) none :: payload)

/-- Send a packet that is no time message. -/
def Block.sendPacket (b : Block) (cls dst dstField srcField camp op id arg : Nat) (payload : List Nat) : Block :=
  b.sendTimed cls dst dstField srcField camp op id arg 0 payload

-- Log entry 126 (DESIGN CHOICE).
/-- A LINK flit of a port: its acknowledgement, or its NAK, and the flits freed in a buffer. -/
def YgPort.linkFlit (x : YgPort) (nak : Bool) (buffer freed : Nat) : Nat :=
  packBits [(2, 1, 1), (3, 1, nak.toNat), (4, 1, if freed = 0 then 0 else 1), (16, 12, if nak then x.rxSeq else (x.rxSeq + 4095) % 4096),
    (32 + 16 * buffer, 16, freed)]

-- Log entry 127 (DEDUCED).
/-- Send a LINK flit: it needs no credit, and waits while 256 codewords are not acknowledged (R441, R443). -/
def Block.sendLink (b : Block) (p : Nat) (nak : Bool) (buffer freed : Nat) : Block :=
  let x := b.port p
  if x.state = 3 then (b.setPort p { x with waiting := x.waiting ++ [(4, [x.linkFlit nak buffer freed])] }).flushPort p else b

/-- The digest of a camp's member list (R449). -/
def Block.listDigest (b : Block) (c : Nat) : Nat := sha256LE (memberList b.camp.live c)

/-- Send the digest of a camp's member list to its other members. -/
def Block.sendDigest (b : Block) (c : Nat) : Block :=
  ((memberList b.camp.live c).filter (· ≠ b.moduleId)).foldl (fun b m => b.sendPacket 2 m 0xFF 0xFF c (Config.ctrlCode 5).toNat 0 0 [b.listDigest c]) b

/-- Send the digest of every camp with other members, as a port comes up (R449). -/
def Block.sendDigests (b : Block) : Block := (List.range 16).foldl (fun b c => if 1 < b.memberCount c then b.sendDigest c else b) b

/-! ### Training and retraining (R444, R445) -/

/-- YG_LANE_REQUEST: the lanes of a port in training ask for their rations. -/
def ygLaneRequestEff (p : Nat) (b : Block) : Block :=
  let x := b.port p
  if b.boot.en.yilgil = false ∨ x.state ≠ 2 then b else (b.setPort p { x with asked := true }).askLanes p

-- Log entry 129 (DEDUCED).
/-- A training fails: the lanes taper, and the port tries again after 1 s. `counts`: it counts as a retrain. -/
def Block.trainingFails (b : Block) (p : Nat) (counts : Bool) : Block :=
  let x := b.port p
  (b.dropLanes p).setPort p { x with
    state := 1, asked := false, spareFor := 7, sick := 7, retryAt := b.fab.time + 1000000000, history := if counts then b.fab.time :: x.history else x.history }

-- Log entry 130 (DEDUCED).
/-- The peer is not the one expected, or too far away: the port stays DOWN (R445). -/
def Block.miswired (b : Block) (p cause found : Nat) : Block :=
  (b.trainingFails p false).portEvent 0x0605 p (packBits [(0, 8, p), (8, 8, cause), (16, 16, found), (32, 16, b.neighbour (bundleOf p))])

-- Log entries 128 (DEDUCED), 130 (DEDUCED), 137 (DEDUCED).
/-- YG_PORT_UP: training has run its steps: the peer's identity, the delay, the eye, the logical lane below margin (7: none), and the
corrected symbols attributed to the lane that the spare replaces. -/
def ygPortUpEff (p peer peerPort shape delay eye lane hits : Nat) (b : Block) : Block :=
  let x := b.port p
  if b.boot.en.yilgil = false ∨ x.state ≠ 2 ∨ x.asked = false then b
  else
    let bad := if x.sick ≠ 7 then x.sick else lane
    if bad < 4 ∧ x.spareFor = 7 ∧ b.covers (b.portField p) (laneAsker p 4) 5 = false then
      -- the spare's grant is taken first
      if b.waits (b.portField p) (laneAsker p 4) then b else b.request (b.portField p) (laneAsker p 4) 0 0xFF 5 false
    else
      let moves := decide (bad < 4 ∧ x.spareFor = 7)
      let b1 := if moves then
          (((b.release (b.portField p) (laneAsker p bad)).setPort p { x with spareFor := bad, sick := 7 }).bump (F.laneSpares p)).portEvent 0x0603 p
            (packBits [(0, 8, p), (8, 8, bad), (64, 32, hits)])
        else b
      if b1.lanesGranted p = false then b1
      else if peer ≠ b.neighbour (bundleOf p) ∨ peerPort ≠ facingPort p ∨ shape ≠ b.fget F.domainConfigDimX + 16 * b.fget F.domainConfigDimY + 256 * b.fget F.domainConfigDimZ then
        b1.miswired p 1 peer
      else if 600 < delay then b1.miswired p 2 peer
      else
        let y := b1.port p
        ((b1.setPort p { YgPort.init with
          state := 3, asked := true, spareFor := y.spareFor, peer := peer, peerPort := peerPort, delay := delay, eye := eye, history := y.history, stream := y.stream,
          laneSince := b.fab.time, badSince := b.fab.time }).portEvent 0x0601 p
            (packBits [(0, 8, p), (8, 8, bundleOf p), (16, 16, peer), (32, 8, y.spareFor), (64, 32, delay)])).placeHeld.sendDigests

-- Log entry 129 (DEDUCED).
/-- YG_TRAINING_FAILED: two lanes below margin or a step past its limit (0), a peer that is not the one expected (1), or a delay above
600 ns (2). -/
def ygTrainingFailedEff (p cause found : Nat) (b : Block) : Block :=
  let x := b.port p
  if b.boot.en.yilgil = false ∨ x.state ≠ 2 ∨ x.asked = false then b
  else if cause = 0 then ((b.bump (F.retrains p)).trainingFails p true).portEvent 0x0602 p (packBits [(0, 8, p), (8, 8, 4)])
  else b.miswired p cause found

/-- YG_TRAIN_RETRY: after 1 s the port trains again. -/
def ygTrainRetryEff (p : Nat) (b : Block) : Block :=
  let x := b.port p
  if b.boot.en.yilgil = false ∨ x.state ≠ 1 ∨ b.fab.time < x.retryAt then b else b.setPort p { x with state := 2 }

/-- The units of a stream at its boundaries (R440): LINK flits, and packets whose flits are all there; and what follows them. The fuel is
the number of flits. -/
def streamUnits : List Nat → Nat → List (List Nat) × List Nat
  | s, 0 => ([], s)
  | [], _ => ([], [])
  | h :: rest, k + 1 =>
    let n := if hdrClass h = 0 then 0 else hdrLen h
    if hdrClass h = 3 ∨ rest.length < n then ([], h :: rest)
    else
      let r := streamUnits (rest.drop n) k
      ((h :: rest.take n) :: r.1, r.2)

-- Log entry 131 (DESIGN CHOICE).
/-- A port leaves UP and trains again; its packets move to the other ports of their flows. Packets that it has received whole stay. -/
def Block.retrainPort (b : Block) (p cause lane : Nat) : Block :=
  let x := b.port p
  let packets := (x.unacked.map (·.2)).filterMap fun fl =>
    if hdrClass (fl.headD 0) = 1 ∨ hdrClass (fl.headD 0) = 2 then some (fl.take (1 + hdrLen (fl.headD 0))) else none
  let b1 := ((b.setPort p { x with
    state := 2, sick := lane, history := b.fab.time :: x.history, unacked := [], waiting := [], naks := 0,
    stream := ((streamUnits x.stream x.stream.length).1.filter fun u => decide (hdrClass (u.headD 0) ≠ 0)).flatten, laneHits := [], bad := 0 }).bump
      (F.retrains p)).portEvent 0x0602 p (packBits [(0, 8, p), (8, 8, cause)])
  (packets ++ (x.waiting.filter fun w => decide (w.1 ≠ 4)).map (·.2)).foldl (fun b fl => b.placePacket fl) b1

-- Log entry 133 (DEDUCED).
/-- YG_RETRAIN: 1 a lane loses lock, 2 more than 16 codewords uncorrectable within 1 ms, 3 a codeword named by sixteen NAKs, 5 the peer
was reset, 0 a lane with more than 2^20 corrected symbols within 1 s while the spare is free. -/
def ygRetrainEff (p cause lane : Nat) (b : Block) : Block :=
  let x := b.port p
  let due := match cause with
    | 1 | 5 => true
    | 2 => decide (16 < x.bad) && decide (b.fab.time ≤ x.badSince + 1000000)
    | 3 => decide (16 ≤ x.naks)
    | 0 => decide (2 ^ 20 < sget (fun _ => 0) x.laneHits lane) && decide (b.fab.time ≤ x.laneSince + 1000000000) && decide (x.spareFor = 7)
    | _ => false
  if b.boot.en.yilgil = false ∨ x.state ≠ 3 ∨ due = false then b
  else if cause = 0 then b.tick.retrainPort p (Config.downCause b.free).toNat lane
  else b.retrainPort p cause (if cause = 1 then lane else 7)

-- Log entry 133 (DEDUCED).
/-- The retrains of a port within the last second. -/
def Block.recentRetrains (b : Block) (p : Nat) : Nat := ((b.port p).history.filter fun t => decide (b.fab.time < t + 1000000000)).length

-- Log entry 133 (DEDUCED).
/-- YG_PORT_HELD: a port that reaches RETRAIN_LIMIT retrains within 1 s is held. -/
def ygPortHeldEff (p : Nat) (b : Block) : Block :=
  let x := b.port p
  if b.boot.en.yilgil = false ∨ (x.state ≠ 1 ∧ x.state ≠ 2) ∨ b.recentRetrains p < max 1 (b.fget F.ygConfigRetrainLimit) then b
  else
    (((b.dropLanes p).setPort p { x with
      state := 4, asked := false, spareFor := 7, sick := 7, retryAt := b.fab.time + 1000000000 * b.fget F.ygConfigHoldS }).bump (F.holds p)).portEvent 0x0604 p
        (packBits [(0, 8, p), (64, 32, b.recentRetrains p)])

/-- YG_HOLD_END: at the end of a hold the port trains again, its history cleared. -/
def ygHoldEndEff (p : Nat) (b : Block) : Block :=
  let x := b.port p
  if x.state ≠ 4 ∨ b.fab.time < x.retryAt then b else b.setPort p { x with state := 2, history := [] }

/-! ### Receiving (R441, R440) -/

/-- Corrected symbols of a codeword by logical lane, counted from the start of the running second. -/
def Block.countCorrected (b : Block) (p : Nat) (corrected : List Nat) : Block :=
  let x := b.port p
  let fresh := decide (x.laneSince + 1000000000 < b.fab.time)
  let old := if fresh then [] else x.laneHits
  let hits := (List.range 4).foldl (fun m k => supd (fun _ => 0) m k (· + corrected.getD k 0)) old
  (b.setPort p { x with laneHits := hits, laneSince := if fresh then b.fab.time else x.laneSince }).count (F.fecCorrected p) (sumOf (corrected.take 4))

/-- A codeword that cannot be corrected. -/
def Block.countBad (b : Block) (p : Nat) : Block :=
  let x := b.port p
  let fresh := decide (x.badSince + 1000000 < b.fab.time)
  (b.setPort p { x with bad := if fresh then 1 else x.bad + 1, badSince := if fresh then b.fab.time else x.badSince }).bump (F.fecUncorrectable p)

-- Log entry 127 (DEDUCED).
/-- Discard what comes until a REPLAY of the codeword expected, and name it in a NAK. -/
def Block.nak (b : Block) (p : Nat) : Block := ((b.setPort p { b.port p with replaying := true }).bump (F.replays p)).sendLink p true 0 0

-- Log entry 127 (DEDUCED).
/-- CODEWORD_RECEIVE: a codeword arrives, decoded or not (`good`), with the symbols corrected on each logical lane. -/
def codewordReceiveEff (p seq : Nat) (replay good : Bool) (corrected flits : List Nat) (b : Block) : Block :=
  if (b.port p).state ≠ 3 then b
  else if good = false then (b.countBad p).nak p
  else
    let b1 := b.countCorrected p corrected
    let x := b1.port p
    if x.replaying = true ∧ (replay = false ∨ seq ≠ x.rxSeq) then b1
    else if seq ≠ x.rxSeq then b1.nak p
    else
      let b2 := b1.setPort p { x with rxSeq := (seq + 1) % 4096, replaying := false, stream := x.stream ++ (flits ++ List.replicate (20 - flits.length) 0).take 20 }
      if (seq + 1) % 16 = 0 then b2.sendLink p false 0 0 else b2

/-- Take a unit out of a port's stream; a flit of the reserved class at a boundary stops the port for a retrain (R440). -/
def Block.takeUnit (b : Block) (p : Nat) (room : Bool) (sel : List (List Nat) → Option (List Nat)) (k : List Nat → List Nat → Block → Block) : Block :=
  let x := b.port p
  let us := streamUnits x.stream x.stream.length
  if x.state ≠ 3 then b
  else if hdrClass (us.2.headD 0) = 3 then ((b.captureEntry (edgeSite p) 3 3 0 (us.2.headD 0) 0 room).tick).retrainPort p (Config.downCause b.free).toNat 7
  else match sel us.1 with
    | none => b
    | some u => k u ((dropFirst (· == u) us.1).flatten ++ us.2) b

/-- How far a codeword number lies behind another. -/
def seqBehind (a c : Nat) : Nat := (c + 4096 - a) % 4096

/-- LINK_FLIT: the first LINK flit of a port's stream: its acknowledgement frees codewords; its NAK has them sent again, in order;
its credits open the peer's buffers. -/
def linkFlitEff (p : Nat) (room : Bool) (b : Block) : Block :=
  b.takeUnit p room (fun us => us.find? fun u => decide (hdrClass (u.headD 0) = 0)) fun u rest b =>
    let h := u.headD 0
    let b0 := b.captureEntry (edgeSite p) 3 0 0 h 0 room
    let x := { b0.port p with stream := rest }
    let ack := bitsOf h 16 12
    let valid := bitAt h 2
    let nak := bitAt h 3
    let kept := if valid then x.unacked.filter fun u => decide (2048 ≤ seqBehind u.1 ack) || (nak && decide (u.1 = ack)) else x.unacked
    let again := if valid && nak then kept else []
    let credits := if bitAt h 4 then (List.range 4).map fun i => min 512 (x.credits.getD i 0 + bitsOf h (32 + 16 * i) 16) else x.credits
    let y : YgPort := { x with
      unacked := kept, credits := credits
      naks := if (valid && nak) = false then (if valid && decide (kept.length < x.unacked.length) then 0 else x.naks) else if x.nakSeq = ack then x.naks + 1 else 1
      nakSeq := if valid && nak then ack else x.nakSeq }
    (again.foldl (fun b u => b.send (.codeword p u.1 true u.2)) (b0.setPort p y)).flushPort p

/-! ### Packets (R442, R448) -/

/-- How an instance ended at an agent. -/
def Block.endedAt (b : Block) (f c id : Nat) : Option CollEnd := (sget (fun _ => []) b.yg.ended (16 * f + c)).find? fun e => e.id == id

/-- SLOW or COOLED from a source. -/
def Block.noteSlow (b : Block) (c id rank field : Nat) (on : Bool) : Block :=
  let rest := b.yg.slowFrom.filter (· != (c, id, rank, field))
  { b with yg := { b.yg with slowFrom := if on then rest ++ [(c, id, rank, field)] else rest } }

-- Log entry 137 (DEDUCED).
/-- A member's digest differs or agrees (R449). -/
def Block.compareDigest (b : Block) (c digest from_ : Nat) : Block :=
  let rest := b.yg.split.filter (· != (c, from_))
  if digest = b.listDigest c then { b with yg := { b.yg with split := rest } }
  else (({ b with yg := { b.yg with split := rest ++ [(c, from_)] } } : Block).raise 0x0605 0xFF c (packBits [(0, 8, 0xFF), (8, 8, 3), (16, 16, from_)]))

-- Log entry 135 (DESIGN CHOICE).
/-- What a delivered CTRL packet says. -/
def Block.hearMsg (b : Block) (from_ : Nat) (msg : YgMsg) : Block :=
  match msg with
  | .other => b
  | .digest c d => b.compareDigest c d from_
  | .slow c id rank field on => b.noteSlow c id rank field on

/-- How far a packet is ahead of the one that its flow expects. -/
def Block.flowAhead (b : Block) (h : Nat) : Nat :=
  let due := sget (fun _ => 0) b.yg.flowsIn (flowKey h)
  if due = 0 then 0 else (hdrSeqOf h + 65536 - (due - 1)) % 65536

/-- Can a received packet go: by a port of its route, or to this module in its turn? -/
def Block.packetGoes (b : Block) (h : Nat) : Bool :=
  if hdrDst h ≠ b.moduleId then !(b.portsTo (hdrDst h)).isEmpty else decide (b.flowAhead h = 0) || decide (32768 ≤ b.flowAhead h)

-- Log entry 231 (DEDUCED).
/-- The packet that leaves the receive buffers next: the oldest that is the first of its buffer and can go (R443). -/
def Block.packetDue (b : Block) (us : List (List Nat)) : Option (List Nat) :=
  let ps := us.filter fun u => decide (hdrClass (u.headD 0) ≠ 0)
  ps.find? fun u => (ps.find? fun y => hdrBuffer (y.headD 0) == hdrBuffer (u.headD 0)) == some u && b.packetGoes (u.headD 0)

-- Log entries 134 (DEDUCED), 231 (DEDUCED).
/-- YILGIL_PACKET: a packet leaves a port's receive buffers. A packet of another module goes on by its route; a packet of this one is delivered
once and in the order of its flow. -/
def yilgilPacketEff (p : Nat) (msg : YgMsg) (room : Bool) (b : Block) : Block :=
  b.takeUnit p room b.packetDue fun u rest b =>
    let h := u.headD 0
    let b0 := b.captureEntry (edgeSite p) 3 (hdrClass h) 0 h ((u.drop 1).headD 0) room
    let b1 := (b0.setPort p { b0.port p with stream := rest }).sendLink p false (hdrBuffer h) u.length
    if hdrDst h ≠ b.moduleId then (b1.bump F.transitPackets).placePacket (b0.withVc h (some p) :: u.drop 1)
    else if b.flowAhead h ≠ 0 then b1
    else
      let b2 : Block := { b1 with yg := { b1.yg with flowsIn := sset (fun _ => 0) b1.yg.flowsIn (flowKey h) ((hdrSeqOf h + 1) % 65536 + 1) } }
      if hdrClass h = 1 ∧ (b2.endedAt (hdrDstField h) (hdrCampOf h) (hdrCollId h)).isSome = true then b2.bump F.lateDiscards
      else (b2.send (.packet (edgeSite p) (bitAt h 3) h (u.drop 1))).hearMsg (hdrSrc h) msg

/-! ### Domain time (R453, R454) -/

-- Log entry 138 (DEDUCED).
/-- The time of the domain. -/
def Block.domainTime (b : Block) : Nat := toTwos 64 ((b.fab.time : Int) + b.yg.domain.offset)

-- Log entry 138 (DEDUCED).
/-- The module joins a time group. -/
def Block.joinDomain (b : Block) (root : Nat) (offset : Int) : Block :=
  ({ b with yg := { b.yg with domain := ⟨true, true, root, offset, 0, b.fab.time, 0, 0, 0⟩ } } : Block).raise 0x0606 0xFF 0xFF
    (packBits [(16, 16, root), (64, 64, toTwos 64 offset)])

-- Log entry 138 (DEDUCED).
/-- The module before another on the route from the root (R448, R453). -/
def treeParent (dims : Nat × Nat × Nat) (root n : Nat) : Nat :=
  match [2, 1, 0].find? fun a => axisOf n a != axisOf root a with
  | none => n
  | some a =>
    let d := max 1 (axisDim dims a)
    let y := axisOf n a
    withAxis n a (if 2 * ((y + d - axisOf root a) % d) ≤ d then (y + d - 1) % d else (y + 1) % d)

-- Log entry 138 (DEDUCED).
/-- Send a time message to the modules that follow this one in the root's dimension-ordered tree, where a port leads to them. -/
def Block.sendTime (b : Block) (root : Nat) : Block :=
  ((((List.range 6).map b.neighbour).dedup).filter fun n => n != b.moduleId && treeParent b.dims root n == b.moduleId && !(b.portsTo n).isEmpty).foldl
    (fun b n => b.sendTimed 2 n 0xFF 0xFF 0 (Config.ctrlCode 4).toNat 0 0 b.domainTime []) b

/-- TIME_PERIOD_US: 0 reads as 100 (R466). -/
def Block.timePeriod (b : Block) : Nat := let n := b.fget F.ygConfigTimePeriodUs; if n = 0 then 100 else n

-- Log entries 138 (DEDUCED), 229 (DEDUCED).
/-- DOMAIN_TIME_MESSAGE: a time message of the root arrives, with this module's offset to it once the delays are corrected; at the root,
TIME_PERIOD_US has passed. A module that has not joined takes the offset as its DOMAIN_OFFSET; one that has slews towards the root, and sends
the message on. -/
def domainTimeMessageEff (root : Nat) (offset : Int) (b : Block) : Block :=
  let d := b.yg.domain
  if b.boot.en.yilgil = false then b
  else if d.joined = false then (if root = b.moduleId then b.joinDomain root 0 else b.joinDomain root offset)
  else if root = b.moduleId then
    if b.fab.time < d.lastMsg + 1000 * b.timePeriod then b
    else ({ b with yg := { b.yg with domain := { d with root := root, locked := true, skew := 0, slew := 0, lastMsg := b.fab.time } } } : Block).sendTime root
  else
    let near := decide (offset.natAbs ≤ 50)
    let relock := near && !d.locked
    (({ b with yg := { b.yg with domain := { d with root := root, locked := d.locked || near, skew := offset, slew := -offset, lastMsg := b.fab.time } } } : Block).raiseIf relock
      0x0608 0xFF 0xFF (packBits [(64, 32, (b.fab.time - d.unlockedAt) / 1000)])).sendTime root

/-- DOMAIN_UNLOCKED: no time message for 1 ms. -/
def domainUnlockedEff (b : Block) : Block :=
  let d := b.yg.domain
  if d.joined = true ∧ d.locked = true ∧ d.root ≠ b.moduleId ∧ d.lastMsg + 1000000 ≤ b.fab.time then
    ({ b with yg := { b.yg with domain := { d with locked := false, unlockedAt := b.fab.time } } } : Block).raise 0x0607 0xFF 0xFF
      (packBits [(64, 32, toTwos 32 d.skew)])
  else b

/-! ### Reading and writing for a part (R458) -/

/-- A run of the unified range cut at granules (the fuel is one more than the granules it touches). -/
def cutGranules (a n : Nat) : Nat → List (Nat × Nat)
  | 0 => []
  | k + 1 => if n = 0 then [] else let m := min n (0x8000 - a % 0x8000); (a, m) :: cutGranules (a + m) (n - m) k

def unifiedRuns (a n : Nat) : List (Nat × Nat) := cutGranules a n (n / 0x8000 + 2)

-- Log entry 136 (DESIGN CHOICE).
/-- What reading a source gives. -/
inductive CollRead where
  | bytes (xs : List (Option Byte))
  | wait
  | bad (status : Nat)

/-- One run of a source. -/
def Block.collRun (b0 : Block) (c key f a n : Nat) : Block × CollRead :=
  let b := b0.touchAddr c a
  match b.siteOf (bulkOp 0 c .read [a] 1 f) a with
  | .at_ p =>
    let b1 := b.check p n
    (b1, .bytes ((List.range n).map fun i => if b1.poisonIn (p + i) 1 then none else some (b1.readByte (p + i))))
  | .cellar f' g u off => match b.unitFor u f' (b.dirEntry f' g).object c key with
    | (b1, some (some v)) => (b1, .bytes ((bytesLE n (bitsOf v (8 * off) (8 * n))).map some))
    | (b1, some none) => (b1, .bad 0x31)
    | (b1, none) => (b1, .wait)
  | .void .. => (b, .bytes (List.replicate n none))
  | .lost .. => (b, .bad 0x31)
  | .denied code => (b, .bad (if code = 3 then 0x21 else 0x25))
  | _ => (b, .wait)

/-- A source. -/
def Block.collBytes (b : Block) (c key f : Nat) : List (Nat × Nat) → Block × CollRead
  | [] => (b, .bytes [])
  | r :: rs =>
    let x := b.collRun c key f r.1 r.2
    match x.2 with
    | .bytes xs =>
      let y := Block.collBytes x.1 c key f rs
      match y.2 with
      | .bytes ys => (y.1, .bytes (xs ++ ys))
      | e => (y.1, e)
    | e => (x.1, e)

/-- Write a result's run at a place: its bytes, then its poison. -/
def Block.landOptions (b : Block) (camp p : Nat) (xs : List (Option Byte)) : Block :=
  b.landFor camp p (xs.map fun x => x.getD 0) (((List.range xs.length).filter fun i => xs.getD i (some 0) = none).map fun i => (i, 1))

/-- Where the runs of a destination are written, or why they cannot be: 0 a granule that must wait. -/
def Block.destSites (b : Block) (c f : Nat) (rs : List (Nat × Nat)) : Except Nat (List (Option Nat)) :=
  rs.foldr (fun r acc => match acc with
    | .error e => .error e
    | .ok l => match b.siteOf (bulkOp 0 c (.write 0) [r.1] 1 f) r.1 with
      | .at_ p => .ok (some p :: l)
      | .void .. => .ok (none :: l)
      | .denied code => .error (if code = 3 then 0x21 else 0x25)
      | .lost .. => .error 0x31
      | _ => .error 0) (.ok [])

/-- Write a result over a destination's runs. -/
def Block.landRuns (b : Block) (camp : Nat) : List (Nat × Nat) → List (Option Nat) → List (Option Byte) → Block
  | r :: rs, s :: ss, xs =>
    Block.landRuns (match s with | some p => b.landOptions camp p (xs.take r.2) | none => b) camp rs ss (xs.drop r.2)
  | _, _, _ => b

/-! ### Results (R456, R457) -/

/-- The canonical sum of one element over the members in rank order; `none` where one of them is poison. -/
def canonicalSum (dtype : Nat) (xs : List (Option Nat)) : Option Nat :=
  if xs.any (·.isNone) then none
  else
    let vs := xs.map (·.getD 0)
    if dtype = 0 then treeOf f32Add vs else (treeOf f32Add (vs.map bfWide)).map bfRound

/-- Element k of a source. -/
def sourceElem (w : Nat) (xs : List (Option Byte)) (k : Nat) : Option Nat :=
  let e := (xs.drop (w * k)).take w
  if e.any (·.isNone) then none else some (ofBytesLE (e.map fun x => x.getD 0))

-- Log entry 136 (DESIGN CHOICE).
/-- The sum of the sources, as bytes. -/
def sumSources (dtype len : Nat) (all : List (List (Option Byte))) : List (Option Byte) :=
  let w := if dtype = 0 then 4 else 2
  (List.range (len / w)).flatMap fun k => match canonicalSum dtype (all.map fun xs => sourceElem w xs k) with
    | some v => (bytesLE w v).map some
    | none => List.replicate w none

-- Log entry 136 (DESIGN CHOICE).
/-- What a part writes at its destination. -/
def CollPart.result (p : CollPart) (all : List (List (Option Byte))) : List (Option Byte) :=
  match p.op with
  | 1 => sumSources p.dtype p.length all
  | 2 => ((sumSources p.dtype p.length all).drop (p.rank * (p.length / max 1 p.members))).take (p.length / max 1 p.members)
  | 3 => all.flatten
  | 4 => all.getD p.root []
  | _ => []

/-- The bytes that a part writes. -/
def CollPart.destBytes (p : CollPart) : Nat :=
  match p.op with
  | 1 | 4 => p.length
  | 2 => p.length / max 1 p.members
  | 3 => p.members * p.length
  | _ => 0

/-- Does a part read a source here? -/
def CollPart.reads (p : CollPart) : Bool := decide (p.op < 4) || (decide (p.op = 4) && decide (p.rank = p.root))

/-! ### Ending a part (R455, R458, R460) -/

/-- Write bytes into a queue entry. -/
def Block.entryWrite (b : Block) (c a : Nat) (xs : List Byte) : Block :=
  match b.siteOf (bulkOp 0 c (.write 0) [a] 1 0) a with
  | .at_ p => b.landFor c p xs []
  | _ => b

/-- STATUS, the culprit and DONE_TIME of an entry. -/
def Block.entryDone (b : Block) (c a status module field : Nat) : Block :=
  let culprit := if status = 0x32 then bytesLE 1 field ++ bytesLE 2 module else []
  (b.entryWrite c (a + 40) (bytesLE 1 status ++ culprit)).entryWrite c (a + 48) (bytesLE 8 b.domainTime)

-- Log entry 142 (DEDUCED).
/-- An agent remembers the last 4,096 ended instances of a camp. -/
def Block.rememberEnd (b : Block) (f c : Nat) (e : CollEnd) : Block :=
  let l := sget (fun _ => []) b.yg.ended (16 * f + c) ++ [e]
  { b with yg := { b.yg with ended := sset (fun _ => []) b.yg.ended (16 * f + c) (l.drop (l.length - 4096)) } }

/-- The requests of a camp's batch end with the status of the instance that their step used. -/
def Block.batchEnds (b : Block) (c status body : Nat) : Block :=
  let b1 : Block := { b with serve := { b.serve with slots := b.serve.slots.map fun s =>
    if s.camp = c ∧ (s.state = 1 ∨ s.state = 2) ∧ s.ended = 0 then { s with ended := status + 1, endBody := body } else s } }
  (b1.dropItems c).dropRows c

-- Log entry 142 (DEDUCED).
/-- An open part ends with its instance's status. -/
def Block.endPart (b : Block) (p : CollPart) (status module field : Nat) : Block :=
  let b1 : Block := { b with yg := { b.yg with parts := b.yg.parts.filter fun x => x.serial != p.serial } }
  let b2 := (b1.dropGot p.camp (2 ^ 64 + p.serial)).rememberEnd p.field p.camp ⟨p.id, status, module, field⟩
  let b3 := if status = 0 then b2.bump F.collCompleted else if status = 0x32 then b2.bump F.collAborts else b2
  match p.user with
  | .entry a => b3.entryDone p.camp a status module field
  | _ => if status = 0 then b3 else b3.batchEnds p.camp status (if status = 0x32 then packBits [(0, 16, module), (16, 8, field), (24, 8, p.op)] else 0)

/-! ### Aborts (R459, R463) -/

-- Log entry 141 (DEDUCED).
/-- An ABORT of an instance is sent or received: who is named, and who sent it. -/
def Block.noteAbort (b : Block) (c id rank field sender : Nat) : Block :=
  match b.yg.aborts.find? fun a => a.camp == c && a.id == id with
  | some a =>
    let a1 : AbortSet := { a with named := (a.named ++ [(rank, field)]).dedup, senders := (a.senders ++ [sender]).dedup }
    { b with yg := { b.yg with aborts := b.yg.aborts.map fun x => if x.camp == c && x.id == id then a1 else x } }
  | none => { b with yg := { b.yg with aborts := b.yg.aborts ++ [⟨c, id, b.fab.time, [(rank, field)], [sender]⟩] } }

-- Log entry 142 (DEDUCED).
/-- Send ABORT, naming a culprit, to every field agent of every other member of the group. -/
def Block.sendAbort (b : Block) (p : CollPart) (rank field : Nat) : Block :=
  let w := (b.model? p.camp p.model).elim 1 (·.sliceW)
  let others := (b.groupRanks p.camp p.group w).filter (· ≠ b.ownRank p.camp)
  (others.foldl (fun b r => (List.range 96).foldl (fun b f =>
    b.sendPacket 2 (b.rankModule p.camp r) f p.field p.camp (Config.ctrlCode 0).toNat p.id (Config.culpritArg rank field).toNat []) b) b).noteAbort
      p.camp p.id rank field (b.ownRank p.camp)

-- Log entry 141 (DEDUCED).
/-- A part that meets the stack rule names itself (R463). -/
def Block.abortSelf (b : Block) (p : CollPart) : Block :=
  if b.yg.aborts.any fun a => a.camp == p.camp && a.id == p.id && a.senders.contains (b.ownRank p.camp) then b
  else b.sendAbort p (b.ownRank p.camp) p.field

-- Log entry 182 (DEDUCED).
/-- Does a stack in GRACE refuse a part's accesses? -/
def Block.graceRefuses (b : Block) (f : Nat) (sites : List (Option Nat)) : Bool :=
  sites.any fun s => match s with
    | some p => isDram p && (decide ((b.stack (physField p)).state = 3) || decide ((b.stack (physField p)).state = 4)) && decide (physField p = f)
    | none => false

-- Log entry 141 (DEDUCED).
/-- The culprit of an instance (R459): the lowest (rank, field) named of members that sent no ABORT, else the lowest named. -/
def AbortSet.culprit (a : AbortSet) : Nat × Nat :=
  let silent := a.named.filter fun x => !a.senders.contains x.1
  let lower (x y : Nat × Nat) : Bool := decide (x.1 < y.1) || (decide (x.1 = y.1) && decide (x.2 < y.2))
  (sortBy lower (if silent.isEmpty then a.named else silent)).headD (0, 0)

-- Log entry 141 (DEDUCED).
/-- COLL_SETTLE: SETTLE_US after the first ABORT, every part of the instance ends COLL_ABORT. -/
def collSettleEff (c id : Nat) (b : Block) : Block :=
  match b.yg.aborts.find? fun a => a.camp == c && a.id == id with
  | none => b
  | some a =>
    if b.fab.time < a.at_ + 1000 * max 1 (b.fget F.collConfigSettleUs) then b
    else
      let k := a.culprit
      let m := b.rankModule c k.1
      let mine := b.yg.parts.filter fun p => p.camp == c && p.id == id
      let b1 : Block := { b with yg := { b.yg with aborts := b.yg.aborts.filter fun x => !(x.camp == c && x.id == id) } }
      let b2 := mine.foldl (fun b p => b.endPart p 0x32 m k.2) b1
      let b3 := ((List.range 96).filter fun f => (b2.endedAt f c id).isNone).foldl (fun b f => b.rememberEnd f c ⟨id, 0x32, m, k.2⟩) b2
      let b4 := if m = b.moduleId then b3.bump F.culpritSelf else b3
      match mine.head? with
      | some p => b4.raise 0x0609 0xFF c (packBits [(0, 8, p.op), (8, 8, p.group), (16, 16, m), (32, 8, k.2), (64, 32, id)])
      | none => b4

/-- COLL_LATE: a part still open LATE_MS after it was posted names the input it has waited on longest, and sends ABORT. A pause in SIMMER does
not count. -/
def collLateEff (part rank field : Nat) (b : Block) : Block :=
  match b.yg.parts.find? fun p => p.serial == part with
  | some p =>
    if b.fab.time < p.at_ + 1000000 * max 1 p.lateMs + 1000 * p.pausedUs ∨ (b.stack p.field).state = 2 then b else b.sendAbort p rank field
  | none => b

-- Log entry 135 (DESIGN CHOICE).
/-- COLL_ABORT_MESSAGE: an ABORT of another member arrives at a field's agent. -/
def collAbortMessageEff (c id f rank field sender : Nat) (b : Block) : Block :=
  if (b.endedAt f c id).isSome then b.bump F.lateDiscards else b.noteAbort c id rank field sender

/-! ### The collective queue (R458) -/

-- Log entry 139 (DEDUCED).
/-- Is a granule a field's queue for a camp? -/
def Block.queueValid (b : Block) (c f : Nat) : Bool :=
  let g := b.fget (F.collQueueGranule c)
  let e := b.dirEntry f g
  bitAt (b.fget (F.collQueueEnable c)) 0 && decide (g < b.dirSize) && decide (e.state ≠ 0) && decide (e.camp = c) && e.writable

/-- May a part name a run of the unified range: a run of its field's, of objects of its camp? Answers 0, or its status. -/
def Block.runStatus (b : Block) (c f a n : Nat) (write : Bool) : Nat :=
  let bad := (unifiedRuns a n).filterMap fun r => match place r.1 with
    | .unified f' g _ =>
      let e := b.dirEntry f' g
      if f' ≠ f ∨ b.dirSize ≤ g ∨ e.state = 0 then some 0x21 else if e.camp ≠ c ∨ (write = true ∧ e.writable = false) then some 0x25 else none
    | _ => some 0x21
  bad.headD 0

-- Log entry 139 (DEDUCED).
/-- Why a posted entry ends at once: its status, or 0. -/
def Block.entryStatus (b : Block) (raw : Nat) (p : CollPart) : Nat :=
  let reserved := bitsOf raw 10 2 ≠ 0 ∨ bitsOf raw 14 2 ≠ 0 ∨ bitsOf raw 25 7 ≠ 0 ∨ bitsOf raw 80 16 ≠ 0 ∨ bitsOf raw 352 32 ≠ 0 ∨ bitsOf raw 448 64 ≠ 0 ∨ bitsOf raw 296 24 ≠ 0
  let lacks := p.group ≠ 0 ∧ ((b.model? p.camp p.model).elim true fun m => decide (m.state ≠ 1)) = true
  let split := (b.yg.split.any fun x => x.1 == p.camp) = true ∧ 1 < p.members
  if reserved ∨ p.op = 0 ∨ 6 < p.op ∨ p.op = 5 ∨ p.group = 3 ∨ lacks ∨ bitAt p.id 31 = true ∨ split ∨ (p.op < 3 ∧ 1 < p.dtype) ∨
      (p.op = 2 ∧ p.length % (32 * p.members) ≠ 0) ∨ (p.op = 6 ∧ p.length ≠ 0) ∨ (p.op = 4 ∧ p.members ≤ p.root) then 0x21
  else
    let s := if p.reads then b.runStatus p.camp p.field p.src p.length false else 0
    if s ≠ 0 then s else b.runStatus p.camp p.field p.dst p.destBytes true

-- Log entries 139 (DEDUCED), 140 (DEDUCED).
/-- COLL_QUEUE_ENTRY: the agent of a field looks at a camp's queue, and takes the entry at its index once VALID reads 1. -/
def collQueueEntryEff (c f : Nat) (b : Block) : Block :=
  if b.boot.en.service = false ∨ b.resetting c = true then b
  else if b.queueValid c f = false then b.bump F.queueInvalid
  else
    let g := b.fget (F.collQueueGranule c)
    let key := (16 * f + c) * 2 ^ 25 + g
    let i := sget (fun _ => 0) b.yg.heads key
    let a := granuleAddr f g + 64 * i
    match b.siteOf (bulkOp 0 c .read [a] 1 f) a with
    | .at_ at_ =>
      let b1 := b.check at_ 64
      let raw := ofBytesLE (b1.readBytes at_ 64)
      if b1.poisonIn at_ 64 ∨ bitAt raw 24 = false then b1
      else
        let group := bitsOf raw 8 2
        let w := (b.model? c (bitsOf raw 64 16)).elim 1 (·.sliceW)
        let ranks := b.groupRanks c group w
        let late := bitsOf raw 96 32
        let p : CollPart := ⟨b.yg.nextPart, c, bitsOf raw 32 32, f, bitsOf raw 0 8, group, bitsOf raw 12 2, bitsOf raw 16 8, bitsOf raw 64 16, ranks.length,
          ranks.findIdx (· == b.ownRank c), bitsOf raw 128 64, bitsOf raw 192 64, bitsOf raw 256 40, if late = 0 then b.fget F.collConfigLateMs else late,
          b.fab.time, 0, .entry a⟩
        let b2 := ({ b1 with yg := { b1.yg with heads := sset (fun _ => 0) b1.yg.heads key ((i + 1) % 512) } } : Block).entryWrite c (a + 3)
          (bytesLE 1 (bitsOf raw 24 8 - 1))
        let posted := b2.postPart p
        match b.endedAt f c p.id with
        | some e => posted.endPart p e.status e.module e.field
        | none =>
          let s := b.entryStatus raw p
          if s ≠ 0 then posted.endPart p s 0 0 else posted
    | _ => b

/-! ### Completing a part (R455 to R458) -/

-- Log entry 140 (DEDUCED).
/-- The data of a JOB's part: read, combined, written. -/
def Block.completeEntry (b : Block) (p : CollPart) (others : List CollSource) : Block :=
  let own := if p.reads then b.collBytes p.camp (2 ^ 64 + p.serial) p.field (unifiedRuns p.src p.length) else (b, .bytes [])
  match own.2 with
  | .wait => own.1
  | .bad s => (own.1.endWork p.field (.part p.serial)).endPart p s 0 0
  | .bytes xs =>
    let all := (others.take p.rank).map (·.bytes) ++ [xs] ++ (others.drop p.rank).map (·.bytes)
    let runs := unifiedRuns p.dst p.destBytes
    match own.1.destSites p.camp p.field runs with
    | .error s => if s = 0 then own.1 else (own.1.endWork p.field (.part p.serial)).endPart p s 0 0
    | .ok sites =>
      if own.1.graceRefuses p.field sites then (own.1.endWork p.field (.part p.serial)).abortSelf p
      else ((own.1.landRuns p.camp runs sites (p.result all)).endWork p.field (.part p.serial)).endPart p 0 0 0

-- Log entries 136 (DESIGN CHOICE), 144 (DEDUCED), 182 (DEDUCED).
/-- COLL_PART_COMPLETE: what a part waits for has arrived: `others` the other members' sources in rank order, `data` what a resident kernel's
instance brings, or `failed` the status with which another member's part ends the instance (BAD_PARAM where the parts disagree). -/
def collPartCompleteEff (part slot failed : Nat) (others : List CollSource) (data : CollData) (b : Block) : Block :=
  match b.yg.parts.find? fun p => p.serial == part with
  | none => b
  | some p =>
    if b.yg.aborts.any fun a => a.camp == p.camp && a.id == p.id then b
    -- the members' digests differ (R449)
    else if (b.yg.split.any fun x => x.1 == p.camp) = true ∧ 1 < p.members then b.endPart p 0x21 0 0
    else if failed ≠ 0 then b.endPart p failed 0 0
    else match p.user with
      | .entry _ =>
        if p.op = 6 then b.endPart p 0 0 0
        else if others.length + 1 ≠ p.members then b
        else b.inSlot p.field slot 1 p.camp 0x8000 (.part p.serial) fun b => b.completeEntry p others
      | .att s pair pos => match data with
        | .att s' pair' pos' parts =>
          if s ≠ s' ∨ pair ≠ pair' ∨ pos ≠ pos' ∨ parts.length + 1 ≠ p.members then b else (b.attCollective p.camp s pair pos parts).endPart p 0 0 0
        | _ => b
      | .pass1 s pos => match data with
        | .pass1 s' pos' os => if s ≠ s' ∨ pos ≠ pos' ∨ os.length + 1 ≠ p.members then b else (b.sampCollective1 p.camp s pos os).endPart p 0 0 0
        | _ => b
      | .pass2 s pos => match data with
        | .pass2 s' pos' os => if s ≠ s' ∨ pos ≠ pos' ∨ os.length + 1 ≠ p.members then b else (b.sampCollective2 p.camp s pos os).endPart p 0 0 0
        | _ => b
      | .ring .. => b.endPart p 0 0 0
      | .step => b.endPart p 0 0 0

/-! ### Stacks and collectives (R462, R463) -/

/-- The open parts of a field. -/
def Block.fieldParts (b : Block) (f : Nat) : List CollPart := b.yg.parts.filter fun p => p.field == f

-- Log entry 182 (DEDUCED).
/-- SLOW or COOLED to every member that a part exchanges with. -/
def Block.tellSlow (b : Block) (p : CollPart) (on : Bool) : Block :=
  let w := (b.model? p.camp p.model).elim 1 (·.sliceW)
  ((b.groupRanks p.camp p.group w).filter (· ≠ b.ownRank p.camp)).foldl (fun b r =>
    b.sendPacket 2 (b.rankModule p.camp r) p.field p.field p.camp (Config.ctrlCode (if on then 1 else 2)).toNat p.id 0 []) b

-- Log entry 182 (DEDUCED).
/-- What a stack's change of state does to the open parts of its field. -/
def Block.stackParts (b : Block) (f old : Nat) : Block :=
  let new := (b.stack f).state
  let ps := b.fieldParts f
  if old = new then b
  else if new = 2 ∧ ps.isEmpty = false then
    let b1 := ps.foldl (fun b p => b.tellSlow p true) { b with yg := { b.yg with slow := (b.yg.slow.filter (· ≠ f)) ++ [f] } }
    b1.raise 0x060A f 0xFF (packBits [(32, 8, f), (64, 32, ps.length)])
  else
    let b1 := if old = 2 ∧ b.yg.slow.contains f then
        ps.foldl (fun b p => b.tellSlow p false) { b with yg := { b.yg with slow := b.yg.slow.filter (· ≠ f) } }
      else b
    if new = 4 ∧ (b.stack f).cause ≠ 2 then ps.foldl (fun b p => b.abortSelf p) b1 else b1

-- Log entry 43 (DESIGN CHOICE).
/-- STACK_THERMAL_SAMPLE (R135, R462). -/
def stackThermalSampleEff (f temp : Nat) (queued : List Nat) (b : Block) : Block := (b.thermalSample f temp queued).stackParts f (b.stack f).state

/-- GRACE_END (R136). -/
def graceEndEff (f : Nat) (b : Block) : Block := (b.graceEnd f).stackParts f (b.stack f).state

/-- STACK_FAULT (R137, R463). -/
def stackFaultEff (f : Nat) (supply : Bool) (b : Block) : Block := (b.stackFault f supply).stackParts f (b.stack f).state

/-- A microsecond of the late timers' pause: the part's own stack, or a source's, is in SIMMER (R462); and of the ports that wait for
credit. -/
def Block.tickParts (b : Block) : Block :=
  let paused (p : CollPart) : Bool := decide ((b.stack p.field).state = 2) || b.yg.slowFrom.any fun x => x.1 == p.camp && x.2.1 == p.id
  let n := (b.yg.parts.filter paused).length
  let b1 := ({ b with yg := { b.yg with parts := b.yg.parts.map fun p => if paused p then { p with pausedUs := p.pausedUs + 1 } else p } } : Block).count F.slowPauseUs n
  (List.range 24).foldl (fun b p =>
    let x := b.port p
    if x.state = 3 ∧ (x.waiting.any fun w => !x.covered w) = true then b.bump (F.ygCreditWaitUs p) else b) b1

/-! ### Resets -/

/-- A camp reset withdraws the camp's parts, and for each open instance sends ABORT naming this module (R464). -/
def Block.collCampReset (b : Block) (c : Nat) : Block :=
  let mine := b.yg.parts.filter fun p => p.camp == c
  let ids := (mine.map (·.id)).dedup
  let b1 := ids.foldl (fun b id => match mine.find? fun p => p.id == id with
    | some p => b.sendAbort p (b.ownRank c) 0xFF
    | none => b) b
  { b1 with yg := { b1.yg with
      parts := b1.yg.parts.filter fun p => p.camp != c
      aborts := b1.yg.aborts.filter fun a => a.camp != c
      heads := b1.yg.heads.filter fun kv => kv.1 / 2 ^ 25 % 16 != c
      slowFrom := b1.yg.slowFrom.filter fun x => x.1 != c } }

/-- The Yilgil block is enabled: every port of an axis of two or more trains (R444). -/
def Block.startPorts (b : Block) : Block :=
  (List.range 24).foldl (fun b p => b.setPort p { YgPort.init with state := if b.portOff p then 0 else 2 }) b

end Sys2Proof.Machine
end

