-- ==== Sys2Proof/Machine/Refresh.lean ====
section
/-! DEFINITION. REFRESH: folds, requantisation, the tiles written, and its end (R363 to R365, R370). -/
namespace Sys2Proof.Machine

/-! ### Masters -/

/-- What a read of a master gives. -/
inductive Master where
  | rows (xs : List Nat)
  | wait
  /-- status and address -/
  | bad (status addr : Nat)

-- Log entry 125 (DEDUCED).
/-- The bytes of a run of a master, as firmware reads them. -/
def Block.masterRun (b0 : Block) (camp seq a n : Nat) : Block × Master :=
  let b := b0.touchAddr camp a
  match b.siteOf (bulkOp 0 camp .read [a] 1 0) a with
  | .at_ p =>
    let b1 := b.check p n
    if b1.poisonIn p n then (b1, .bad 0x30 a) else (b1, .rows [ofBytesLE (b1.readBytes p n)])
  | .cellar f g u off => match b.unitFor u f (b.dirEntry f g).object camp seq with
    | (b1, some (some v)) => (b1, .rows [bitsOf v (8 * off) (8 * n)])
    | (b1, some none) => (b1, .bad 0x31 a)
    | (b1, none) => (b1, .wait)
  | .void .. => (b, .bad 0x30 a)
  | .lost .. => (b, .bad 0x31 a)
  | .denied _ => (b, .bad 0x21 a)
  | _ => (b, .wait)

/-- One row of 128 fp32 numbers. -/
def Block.masterRow (b : Block) (camp seq a : Nat) : Block × Master :=
  match cutRun a 512 with
  | [r, s] =>
    let x := b.masterRun camp seq r.1 r.2
    match x.2 with
    | .rows xs =>
      let y := x.1.masterRun camp seq s.1 s.2
      match y.2 with
      | .rows ys => (y.1, .rows [xs.headD 0 + 2 ^ (8 * r.2) * ys.headD 0])
      | m => (y.1, m)
    | m => (x.1, m)
  | _ => b.masterRun camp seq a 512

/-- The rows of a tile's master. -/
def Block.masterRows (b : Block) (camp seq : Nat) (t : RefreshTile) : List Nat → Block × Master
  | [] => (b, .rows [])
  | k :: r =>
    let x := b.masterRow camp seq (t.src + k * t.pitch)
    match x.2 with
    | .rows xs =>
      let y := Block.masterRows x.1 camp seq t r
      match y.2 with
      | .rows ys => (y.1, .rows (xs ++ ys))
      | m => (y.1, m)
    | m => (x.1, m)

/-- The weights of a tile after its fold. -/
def foldedWeight (t : RefreshTile) (rows : List Nat) (k c : Nat) : Nat :=
  let w := bitsOf (rows.getD k 0) (32 * c) 32
  match t.fold[k]? with
  | some s => f32Mul w s
  | none => w

/-- A tile built from its master, or why it cannot be. -/
def Block.buildTile (b : Block) (camp seq : Nat) (t : RefreshTile) : Block × Master :=
  let x := b.masterRows camp seq t (List.range 128)
  match x.2 with
  | .rows rows =>
    if rows.any fun r => (List.range 128).any fun c => !f32Finite (bitsOf r (32 * c) 32) then (x.1, .bad 0x21 t.src)
    else (x.1, .rows [tileImage t.fmt (foldedWeight t rows)])
  | m => (x.1, m)

-- Log entry 124 (DEDUCED).
/-- Every tile of a list, in order, until one cannot be built. -/
def Block.buildTiles (b : Block) (camp seq : Nat) : List RefreshTile → Block × Except (Option (Nat × Nat)) (List GatheredTile)
  | [] => (b, .ok [])
  | t :: r =>
    let x := b.buildTile camp seq t
    match x.2 with
    | .wait => (x.1, .error none)
    | .bad s _ => (x.1, .error (some (s, t.dst)))
    | .rows xs =>
      let y := Block.buildTiles x.1 camp seq r
      match y.2 with
      | .ok ts => (y.1, .ok (⟨t.dst, t.fmt, xs.headD 0⟩ :: ts))
      | e => (y.1, e)

/-! ### Writing -/

/-- Write a run of a granule's home, and of its copy; the object's clean records are withdrawn (R365). -/
def Block.rewriteAt (b : Block) (camp : Nat) (model a : Nat) (xs : List Byte) : Block :=
  match place a with
  | .unified f g off =>
    let e := b.dirEntry f g
    let o := b.obj f e.object
    if e.camp ≠ camp ∨ o.model ≠ model then b
    else
      let put (b : Block) (tier loc : Nat) : Block := if tier = 1 ∨ tier = 2 then b.landFor camp (frameAddr f tier loc + off) xs [] else b
      (put (put b e.tierA e.locA) e.tierB e.locB).setObj f e.object { o with image := 0, host := 0 }
  | _ => b

/-- Write a run that may cross a granule's border. -/
def Block.rewriteRun (b : Block) (camp model a : Nat) (xs : List Byte) : Block :=
  match cutRun a xs.length with
  | [r, s] => (b.rewriteAt camp model r.1 (xs.take r.2)).rewriteAt camp model s.1 (xs.drop r.2)
  | _ => b.rewriteAt camp model a xs

/-- Do the granules of a run stand still, so that they can be rewritten? -/
def Block.rewritable (b : Block) (a n : Nat) : Bool :=
  (cutRun a n).all fun r => match place r.1 with
    | .unified f g _ => !b.moving f g
    | _ => true

/-- A SCALE vector as it is written. -/
def scaleBytes (s : RefreshScale) : List Byte := s.vector.flatMap fun w => bytesLE 2 (bfRound w)

/-! ### The grants of its kernels (R367) -/

/-- The field that an address names. -/
def addrField (a : Nat) : Nat :=
  match place a with
  | .unified f _ _ => f
  | _ => 0xFF

-- Log entry 227 (DESIGN CHOICE).
/-- The kernels of a REFRESH as the desks see them: every ready core of the fields that hold tiles which this member builds. -/
def Block.refreshKernels (b : Block) (r : Refresh) : Job :=
  ⟨b.tc.nextJob, r.camp, r.seq, packBits (r.fields.map fun f => (f, 1, 1)), 2 ^ 288 - 1, 4, 0, 0, 0, 0, 0, 0, 0, 0, 0, none, 0, 0, true, [], []⟩

/-- The ready cores that a REFRESH uses: (field, core). -/
def Block.refreshCores (b : Block) (r : Refresh) : List (Nat × Nat) :=
  r.fields.flatMap fun f => ((List.range 288).filter (bitAt (b.fieldSt f).cores)).map fun c => (f, c)

-- Log entry 227 (DESIGN CHOICE).
/-- The kernels ask for the pod wakes and the wide grants that they lack (R75, R367); answers whether they hold them all. -/
def Block.refreshGrants (b : Block) (r : Refresh) : Block × Bool :=
  let j := b.refreshKernels r
  let cs := b.refreshCores r
  let b1 := cs.foldl (fun b fc =>
    if b.holds fc.1 (wideAsker fc.2) ∨ b.waits fc.1 (wideAsker fc.2) then b
    else b.request fc.1 (wideAsker fc.2) (b.workClass j) r.camp 4 false) (b.askWakes j)
  (b1, b1.awake j && cs.all fun fc => b1.covers fc.1 (wideAsker fc.2) 4)

/-- Their grants go, but for those under which a JOB or a resident kernel works, and those that stand. -/
def Block.refreshRest (b : Block) (r : Refresh) : Block :=
  let j := b.refreshKernels r
  let b1 := (b.refreshCores r).foldl (fun b fc =>
    if b.coreFree fc.1 fc.2 then (b.withdrawAuto fc.1 (wideAsker fc.2)).releaseAuto fc.1 (wideAsker fc.2) else b) b
  j.wakes.foldl (fun b fp => if b.podBusy j fp.1 fp.2 then b else (b.withdrawAuto fp.1 (wakeAsker fp.2)).releaseAuto fp.1 (wakeAsker fp.2)) b1

/-- A REFRESH whose kernels need the desks of some fields. -/
def Block.noteRefresh (b : Block) (r : Refresh) : Block :=
  { b with serve := { b.serve with refreshes := b.serve.refreshes.map fun x => if x.camp == r.camp && x.seq == r.seq then r else x } }

/-! ### The end (R365, R370) -/

/-- The work of a REFRESH has ended on this wafer. -/
def Block.endRefresh (b0 : Block) (r : Refresh) : Block :=
  let b := b0.refreshRest r
  ({ b with serve := { b.serve with refreshes := b.serve.refreshes.filter fun x => !(x.camp == r.camp && x.seq == r.seq) } } : Block).setPhase r.camp
    fun p => { p with refreshUs := (b.fab.time - r.started) / 1000 }

/-- The all-gather of the tiles (R363) as the collective engine counts it: a part in each field that receives a tile. -/
def Block.countGather (b : Block) (r : Refresh) (fields : Nat) (ok : Bool) : Block :=
  if r.members ≤ 1 then b else (b.count F.collStarted fields).count (if ok then F.collCompleted else F.collAborts) fields

/-- The all-gather ends COLL_ABORT (R459): counted and raised; where this module is the culprit, it sends the ABORT. -/
def Block.gatherAborts (b : Block) (r : Refresh) (x : RefreshFail) : Block :=
  let id := 2 ^ 31 + (Config.collId b.free).toNat
  let b1 := (b.tick.countGather r 96 false).raise 0x0609 0xFF r.camp (packBits [(0, 8, 3), (16, 16, x.module), (32, 8, x.field), (64, 32, id)])
  if x.module = b.moduleId then
    let p : CollPart := ⟨b.yg.nextPart, r.camp, id, x.field, 3, 0, 0, 0, r.model, r.members, b.ownRank r.camp, 0, 0, 0, 0, b.fab.time, 0, .step⟩
    let b2 := (b1.bump F.culpritSelf).sendAbort p (b.ownRank r.camp) x.field
    { b2 with yg := { b2.yg with aborts := b1.yg.aborts } }
  else b1

-- Log entry 125 (DEDUCED).
/-- A REFRESH fails: its model is INCOMPLETE. -/
def Block.failRefresh (b : Block) (d : Desc) (r : Refresh) (x : RefreshFail) : Block :=
  let b0 := if x.status = 0x32 then b.gatherAborts r x else b
  let b1 := (b0.endRefresh r).setModel r.camp r.model fun m => { m with incomplete := true }
  let body := if x.status = 0x32 then packBits [(0, 16, x.module), (16, 8, x.field), (24, 8, 3)] else if x.status = 0x21 then 24 else failBody x.addr x.field
  (((b1.raise 0x0552 0xFF r.camp (packBits [(0, 32, r.seq), (32, 8, x.status), (40, 8, x.rank), (48, 8, x.field), (64, 64, x.addr)])).bump
    (F.refreshes r.camp)).complete d x.status body).startPhase r.camp

/-- A tile that its field can no longer hold (R463): its home lies in a stack in GRACE, or in a dark channel. -/
def Block.tileLost (b : Block) (a : Nat) : Bool :=
  match place a with
  | .unified f g off =>
    let e := b.dirEntry f g
    let p := frameAddr f e.tierA e.locA + off
    decide (e.tierA = 2) && (b.darkAt p || decide ((b.stack f).state = 3))
  | _ => false

-- Log entry 124 (DEDUCED).
/-- REFRESH_COMPLETE: every JOB of the camp consumed before has completed, this member's tiles are built, all are gathered and written, or a
member has failed. The kernels build once they hold their grants (R367). Where a master waits for the tier directory, the REFRESH goes on
waiting. -/
def refreshCompleteEff (camp seq : Nat) (own : List RefreshTile) (scales : List RefreshScale) (gathered : List GatheredTile)
    (failure : Option RefreshFail) (b : Block) : Block :=
  match b.desc? camp seq, b.serve.refreshes.find? fun x => x.camp == camp && x.seq == seq with
  | some d, some r =>
    let earlier := (b.ring.descs.takeWhile fun x => !(x.camp == camp && x.seq == seq)).any fun x => x.camp == camp && x.op == 0x06
    if earlier = true ∨ (own.any fun t => !b.rewritable t.dst (imageBytes t.fmt)) = true ∨ (gathered.any fun t => !b.rewritable t.dst (imageBytes t.fmt)) = true ∨
        (scales.any fun s => !b.rewritable s.dst (2 * s.vector.length)) = true then b
    else match failure with
      | some x => b.failRefresh d r x
      | none =>
        let r := { r with fields := (r.fields ++ (own.map fun t => addrField t.dst).filter fun f => decide (f < 96)).dedup }
        let ready := (b.noteRefresh r).refreshGrants r
        if ready.2 = false then ready.1 else
        let built := ready.1.buildTiles camp seq own
        match built.2 with
        | .error none => built.1
        | .error (some x) => built.1.failRefresh d r ⟨x.1, b.ownRank camp, addrField x.2, x.2, b.moduleId⟩
        | .ok ts =>
          let all := ts ++ gathered
          match all.find? fun t => built.1.tileLost t.dst with
          | some t => built.1.failRefresh d r ⟨if 1 < r.members then 0x32 else 0x31, b.ownRank camp, addrField t.dst, t.dst, b.moduleId⟩
          | none =>
          let b1 := all.foldl (fun b t => b.rewriteRun camp r.model t.dst (bytesLE (imageBytes t.fmt) t.image)) built.1
          let b2 := scales.foldl (fun b s => b.rewriteRun camp r.model s.dst (scaleBytes s)) b1
          let v := (b2.phaseSt camp).version + 1
          let b3 := ((b2.endRefresh r).setModel camp r.model fun m => { m with incomplete := false }).setPhase camp fun p => { p with version := v }
          ((((b3.countGather r (all.map fun t => addrField t.dst).dedup.length true).raise 0x0551 0xFF camp (packBits [(0, 32, seq), (32, 32, v), (64, 32, (b.fab.time - r.started) / 1000), (96, 32, all.length)])).bump
            (F.refreshes camp)).complete d 0 v).startPhase camp
  | _, _ => b

end Sys2Proof.Machine
end

