-- ==== Sys2Proof/Machine/CampReset.lean ====
section
/-! DEFINITION. Camp resets (R481, R533 to R535): what each block stops and forgets, and how the rings are left; and a function's rings
cleared (R394). -/
namespace Sys2Proof.Machine

/-! ### A function's rings -/

/-- The words of a ring's configuration. -/
def ringCfgWords (k : Nat) : List Nat := (List.range 7).map fun i => 0xD10000 + 0x40 * k + 4 * i

-- Log entry 189 (DEDUCED).
/-- Every ring of a function is disabled and its configuration cleared; the records that wait for its rings are discarded (R394, R390).
A ring that a failed read has stopped stays so until its camp is reset (R386). -/
def Block.clearRings (b : Block) (fn : Nat) : Block :=
  let n := (b.ring.outbox.filter fun r => r.fn == fn).length
  let mine (k : Nat) : Bool := decide (0xD10000 + 0x1000 * fn ≤ k) && decide (k < 0xD10000 + 0x1000 * fn + 0x1000) && decide (k % 0x40 < 0x1C)
  let b1 : Block := { b with
    regs := b.regs.filter fun kv => !mine kv.1
    ring := { b.ring with rings := (b.ring.rings.filter fun kv => kv.1 / 64 != fn || kv.2.stopped).map fun kv =>
                if kv.1 / 64 = fn then (kv.1, { RingSt.init with stopped := true }) else kv, outbox := b.ring.outbox.filter fun r => r.fn != fn } }
  (b1.count F.recordsDiscarded n).count (F.fnDiscards fn) n

/-! ### Stopping a camp's work (R481) -/

/-- Discard the camp's operations that have not been performed; a channel counts those in its queues, and the camp's buckets are full again
(R144). -/
def Block.dropOps (b : Block) (c : Nat) : Block :=
  let mine := b.tc.ops.filter fun o => o.camp == c && !o.performed
  let b1 := mine.foldl (fun b o => (((dramSegs (b.sites o)).map fun s => (physField s.1, dramChan s.1)).dedup).foldl (fun b n =>
    b.bump (F.chanCampDiscards n.1 n.2)) b) b
  { b1 with
    tc := { b1.tc with ops := b1.tc.ops.filter fun o => !(o.camp == c && !o.performed) }
    dram := { b1.dram with buckets := b1.dram.buckets.filter fun kv => kv.1 % 16 != c } }

/-- The elements of the camp's descriptors are discarded, and each engine counts its own (R549). -/
def Block.dropElements (b : Block) (c : Nat) : Block :=
  let mine := b.host.dmas.filter fun j => j.camp == c
  let b1 := mine.foldl (fun b j => match b.desc? c j.seq with
    | some d => ((List.range j.total).filter fun i => !sget (fun _ => false) j.done i).foldl (fun b i => match b.elemAt d i with
        | some x => b.bump (F.dmaCampDiscards x.field)
        | none => b) b
    | none => b) b
  let b1 := b1.endWorks fun f u => u.camp == c && match u.work with
    | .move g => !(b.tier.moves.any fun m => m.isOf f g true)
    | _ => true
  let late (w : HostRead) : Bool := match w with | .elem camp .. => camp != c | .table camp _ => camp != c | .ring fn _ => b.fnCamp fn != c
  { b1 with host := { b1.host with
      dmas := b1.host.dmas.filter fun j => j.camp != c
      failRaised := b1.host.failRaised.filter fun x => x.1 != c
      late := b1.host.late.filter late } }

/-- Loads that have not finished are abandoned; models that were to be unloaded stay (R110, R554). -/
def Block.dropLoads (b : Block) (c : Nat) : Block :=
  let mine := b.serve.models.filter fun m => m.camp == c && m.state == 0
  let b1 := mine.foldl (fun b m => b.dropModel m) b
  { b1 with serve := { b1.serve with models := b1.serve.models.map fun m => if m.camp = c ∧ m.state = 2 then { m with state := 1, unload := 0 } else m } }

/-- The wait queue, the requests, the results and the phase work of the camp are forgotten (R345, R369). -/
def Block.dropServe (b : Block) (c : Nat) : Block :=
  let bad := (b.serve.refreshes.filter fun r => r.camp == c && r.wrote).map (·.model)
  { b with serve := { b.serve with
      models := b.serve.models.map fun m => if m.camp = c ∧ bad.contains m.id then { m with incomplete := true } else m
      queue := b.serve.queue.filter fun r => r.camp != c
      results := b.serve.results.filter fun r => r.camp != c
      forkEnds := b.serve.forkEnds.filter fun x => x.camp != c
      phaseJobs := b.serve.phaseJobs.filter fun j => j.camp != c
      parks := b.serve.parks.filter fun k => k.camp != c
      refreshes := b.serve.refreshes.filter fun r => r.camp != c
      stats := b.serve.stats.filter fun x => x.1 != c
      cancels := b.serve.cancels.filter fun x => x.1 != c
      lateCancels := b.serve.lateCancels.filter fun x => x.1 != c
      justDone := b.serve.justDone.filter fun x => x.1 != c
      counted := b.serve.counted.filter fun x => x.1 != c } }

/-- Steps 1 and 2 of a camp reset (R533): every block stops the camp's work and forgets its state. -/
def Block.stopCamp (b : Block) (c : Nat) : Block :=
  let b1 := (((b.dropOps c).withdrawCamp c).collCampReset c).attCampReset c
  let b2 := ((b1.sampCampReset c).arrayCampReset c).threadCampReset c
  let b3 := ((b2.dropElements c).cellarCampReset c).dropLoads c
  let b4 := (b3.integCampReset c).dropServe c
  let b5 : Block := { b4 with
    ring := { b4.ring with descs := b4.ring.descs.filter fun d => d.camp != c }
    tier := { b4.tier with
      moves := b4.tier.moves.filter fun m => m.running || (b4.dirEntry m.field m.granule).camp != c
      held := b4.tier.held.filter fun h => (b4.dirEntry h.1 h.2.1).camp != c
      waits := b4.tier.waits.filter fun w => w.camp != c
      announces := b4.tier.announces.filter fun a => a.camp != c
      windows := b4.tier.windows.filter fun w => w.camp != c }
    fab := { b4.fab with epochs := supd (fun _ => 0) b4.fab.epochs c (· + 1), campFields := b4.fab.campFields.filter fun kv => kv.1 / 128 != c } }
  b5.setStepSt c { b5.stepSt c with inStep := false }

/-- The descriptors consumed and not completed, by function. -/
def Block.openByFn (b : Block) (c : Nat) : Sparse Nat :=
  (b.ring.descs.filter fun d => d.camp == c).foldl (fun m d => supd (fun _ => 0) m d.fn (· + 1)) []

-- Log entry 153 (DEDUCED).
/-- A camp reset starts, or joins the one that runs (R481). While the wafer starts up there is nothing to reset (R538). -/
def Block.startCampReset (b : Block) (c cause fn : Nat) : Block :=
  if b.boot.stage ≠ 10 ∨ b.resetting c = true then b
  else
    let r : CampReset := ⟨c, cause, fn, b.fab.time, (b.campSlotList c).length, b.openByFn c, false⟩
    ((({ b with camp := { b.camp with resets := b.camp.resets ++ [r] } } : Block).bump F.campResets).stopCamp c)

-- Log entry 153 (DEDUCED).
/-- CAMP_RESET_CMD: function `fn` writes CAMP_RESET_CMD; GO reads 0 once taken. -/
def campResetCmdEff (fn value : Nat) (b : Block) : Block :=
  b.barWrite fn 0x200080 fun b =>
    let b1 := (b.writeWord 0x200080 (BitVec.ofNat 32 value)).fset F.campResetCmdGo 0
    if bitAt value 31 then b1.startCampReset (bitsOf value 0 4) 2 0x3F else b1

/-! ### The end of a camp reset (R533, R534) -/

-- Log entry 152 (DEDUCED).
/-- Has every operation that was issued for the camp returned? -/
def Block.campDrained (b : Block) (c : Nat) : Bool :=
  !(b.tc.ops.any fun o => o.camp == c) && !(b.tier.moves.any fun m => m.running && (b.dirEntry m.field m.granule).camp == c)

-- Log entry 152 (DEDUCED).
/-- Step 4: slots, pages, trays and writable objects are freed. -/
def Block.freeCampState (b : Block) (c : Nat) : Block :=
  let b1 := b.pagesCampReset c
  let b2 : Block := { b1 with serve := { b1.serve with
    slots := b1.serve.slots.filter fun s => s.camp != c, requests := b1.serve.requests.filter fun r => r.camp != c } }
  b2.tierCampReset c

/-- The camp's functions. -/
def Block.campFns (b : Block) (c : Nat) : List Nat := (List.range 64).filter fun fn => b.fnServes fn c

-- Log entry 152 (DEDUCED).
/-- The RESET marker of a COMPLETION ring. -/
def Block.marker (b : Block) (r : CampReset) (k : Nat) : Block :=
  b.record ⟨k / 64, k % 64, 2, packBits [(64, 8, 0x33), (73, 6, k % 64), (128, 2, r.cause), (136, 6, r.fn),
    (160, 32, sget (fun _ => 0) r.descs (k / 64)), (192, 32, r.slots)], false⟩

/-- A ring after a camp reset: a submission ring is disabled and no longer stopped; an enabled COMPLETION ring receives the marker. -/
def Block.leaveRing (b : Block) (r : CampReset) (k : Nat) : Block :=
  if ringKind b.regs k < 2 then
    (b.setRing k { b.ringSt k with enabled := false, stopped := false }).fset (F.ringCtrlEnable k) 0
  else if ringKind b.regs k = 2 ∧ (b.ringSt k).enabled = true then b.marker r k
  else b

/-- Step 6: the rings of the camp's functions. -/
def Block.leaveRings (b : Block) (r : CampReset) : Block :=
  (b.campFns r.camp).foldl (fun b fn => ((b.ring.rings.filter fun kv => decide (kv.1 / 64 = fn)).map (·.1)).foldl (fun b k => b.leaveRing r k) b) b

/-- The camp enters GENERATE; its POLICY_VERSION stays (R348, R371). -/
def Block.phaseAfterReset (b : Block) (c : Nat) : Block :=
  let p := b.phaseSt c
  ((b.releasePools c).setPhase c fun _ => { PhaseSt.init with version := p.version, switchUs := p.switchUs, refreshUs := p.refreshUs, idleAt := b.fab.time }).rebuildPools c

/-- Directory entries of the reserve are rebuilt at once when no camp has a step in progress (R167). -/
def Block.rebuildIfIdle (b : Block) : Block := if b.idleCamps.length = 16 then b.rebuildEntries else b

-- Log entries 152 (DEDUCED), 201 (DEDUCED).
/-- CAMP_RESET_DONE: steps 4 to 6, once every operation of the camp has returned. -/
def campResetDoneEff (c : Nat) (b : Block) : Block :=
  match b.camp.resets.find? fun r => r.camp == c with
  | none => b
  | some r =>
    if b.campDrained c = false then b
    else
      let us := (b.fab.time - r.start) / 1000
      let b1 := ((((b.releaseCamp c).freeCampState c).phaseAfterReset c).takeStep c).trimNow.leaveRings r
      let b2 : Block := { b1 with
        camp := { b1.camp with resets := b1.camp.resets.filter fun x => x.camp != c }
        boot := { b1.boot with lastCamp := c, lastCause := r.cause, lastMs := satTo 16 (us / 1000) }
        host := { b1.host with fns := (b1.campFns c).foldl (fun m fn => supd (fun _ => FnSt.init) m fn fun s => { s with campResetting := false }) b1.host.fns } }
      (((b2.setStepSt c StepSt.init).noteCapacity.freeCamp c).raise 0x0904 0xFF c (packBits [(0, 8, r.cause), (8, 8, r.fn), (32, 32, us), (64, 32, r.slots)])).rebuildIfIdle

/-- CAMP_RESET_STUCK: a camp reset that has not ended CAMP_RESET_LIMIT_MS after it began; raised once. -/
def campResetStuckEff (c : Nat) (b : Block) : Block :=
  match b.camp.resets.find? fun r => r.camp == c with
  | some r =>
    let ms := (b.fab.time - r.start) / 1000000
    if r.stuck = true ∨ ms < max 1 (b.fget F.campResetLimitMs) then b
    else ({ b with camp := { b.camp with resets := b.camp.resets.map fun x => if x.camp = c then { x with stuck := true } else x } } : Block).raise 0x0905 0xFF c
      (packBits [(32, 32, ms)])
  | none => b

end Sys2Proof.Machine
end

