-- ==== Sys2Proof/Machine/Consent.lean ====
section
/-! DEFINITION. Dual consent (R474 to R483), the management interface (R484 to R486), and attestation (R487, R488). -/
namespace Sys2Proof.Machine

/-! ### Channels -/

/-- Reply to a consent message of the management controller: a completion code and data (R485). -/
def Block.consentReply (b : Block) (mc : Bool) (cmd code : Nat) (data : List Nat) : Block :=
  if mc then b.send (.mctp 0x7E cmd (code :: data)) else b

/-- A party acts: the management controller by message, the site driver through FN 0 alone (R474). -/
def Block.byParty (b : Block) (mc : Bool) (fn : Nat) (f : Block → Block) : Block := if mc then f b else b.barWrite fn 0x200000 f

def party (mc : Bool) : Nat := if mc then 1 else 0

/-- CONSENT_STATUS (R491). -/
def Block.consentStatus (b : Block) : Nat :=
  packBits [(0, 3, b.camp.state), (3, 1, b.camp.proposer), (4, 1, if fuseCommitMask b.camp.live = 0 then 0 else 1),
    (5, 1, (debugUnlock b.camp.live).toNat), (8, 4, b.camp.lastResult), (16, 4, b.camp.errItem)]

/-- WINDOW_LEFT. -/
def Block.windowLeft (b : Block) : Nat := if b.camp.state = 1 then satTo 18 ((b.camp.windowEnd - b.fab.time) / 1000000) else 0

def bytesOfNat (n v : Nat) : List Nat := (bytesLE n v).map (·.toNat)

/-- What GET_STATUS answers. -/
def Block.statusBytes (b : Block) : List Nat :=
  bytesOfNat 4 b.consentStatus ++ bytesOfNat 4 b.camp.counter ++ bytesOfNat 8 b.camp.nonce ++ bytesOfNat 32 b.camp.digest ++ bytesOfNat 4 b.windowLeft

/-- Raise a consent event (R490). -/
def Block.consentEvent (b : Block) (code result value : Nat) : Block :=
  let mask := packBits ((affectedCamps b.camp.live b.camp.stage).map fun c => (c, 1, 1))
  b.raise code 0xFF 0xFF (packBits [(0, 32, b.camp.counter), (32, 1, b.camp.proposer), (40, 4, result), (48, 4, b.camp.errItem), (64, 16, mask), (96, 32, value)])

-- Log entries 145 (DEDUCED), 147 (DEDUCED).
/-- A proposal ends without effect: the stage is thawed and unchanged (R477). -/
def Block.rejectProposal (b : Block) (result : Nat) : Block :=
  let b1 := (b.consentEvent 0x0712 result 0).bump (if result = 2 then F.rejMismatch else if result = 3 then F.rejTimeout else F.rejOther)
  { b1 with camp := { b1.camp with state := 0, proposer := 0, lastResult := result } }

/-! ### The stage (R475) -/

/-- Change stage bytes. -/
def stageBytes (m : Sparse Byte) (o : Nat) : List Nat → Sparse Byte
  | [] => m
  | x :: r => stageBytes (sset defaultImage m o (BitVec.ofNat 8 x)) (o + 1) r

-- Log entry 146 (DEDUCED).
/-- A write of the stage while IDLE; a frozen stage takes none, and the write is counted. -/
def Block.stageWrite (b : Block) (o : Nat) (data : List Nat) : Block :=
  if b.camp.state = 0 then { b with camp := { b.camp with stage := stageBytes b.camp.stage o data } } else b.bump F.stageLocked

-- Log entry 146 (DEDUCED).
/-- CONSENT_COPY: the stage becomes the live image. -/
def consentCopyEff (mc : Bool) (fn : Nat) (b : Block) : Block :=
  b.byParty mc fn fun b =>
    if b.camp.state = 0 then ({ b with camp := { b.camp with stage := b.camp.live } } : Block).consentReply mc 4 0 []
    else (b.bump F.stageLocked).consentReply mc 4 1 []

/-- WRITE_STAGE: a word by FN 0, or up to 256 bytes by message. -/
def writeStageEff (mc : Bool) (fn off : Nat) (data : List Nat) (b : Block) : Block :=
  b.byParty mc fn fun b =>
    if 256 < data.length ∨ imageLen < off + data.length then b.consentReply mc 3 5 []
    else (b.stageWrite off data).consentReply mc 3 (if b.camp.state = 0 then 0 else 1) []

/-! ### Validation (R478) -/

/-- Does an entry have a reserved bit set, or a nonzero byte while disabled? -/
def entryBad (m : Sparse Byte) (c : Nat) : Bool :=
  let f (o n : Nat) : Nat := imgField m (32 * c + o) n
  decide (f 0 4 / 2 ≠ 0) || decide (f 4 4 / 2 ^ 21 ≠ 0) || decide (f 8 2 / 2 ^ 12 ≠ 0) || decide (f 10 2 / 2 ^ 9 ≠ 0) || decide (f 12 4 / 2 ^ 17 ≠ 0) ||
    decide (f 16 2 / 2 ^ 15 ≠ 0) || decide (f 18 2 / 2 ^ 9 ≠ 0) || decide (f 20 12 ≠ 0) || (decide (f 0 1 % 2 = 0) && decide (f 0 32 ≠ 0))

/-- Check 1. -/
def reservedBad (m : Sparse Byte) : Bool :=
  ((List.range 16).any (entryBad m)) || ((List.range 64).any fun fn => decide (64 ≤ fnByte m fn)) || decide (imgField m 578 1 / 2 ≠ 0) ||
    decide (imgField m 592 48 ≠ 0)

/-- Check 6. -/
def rangeBad (m : Sparse Byte) : Bool :=
  ((List.range 16).any fun c => decide (1048576 < campDram m c ∨ 3072 < campSram m c ∨ 65536 < campSlots m c ∨ 16384 < campExtents m c ∨ 256 < campMembers m c)) ||
    decide (windowS m = 0)

/-- Check 7. -/
def Block.membersBad (b : Block) (m : Sparse Byte) : Bool :=
  (List.range 16).any fun c =>
    let l := memberList m c
    let sliced := b.serve.models.any fun x => x.camp == c && decide (1 < x.sliceW)
    decide (¬ l.Nodup) || (decide (l ≠ []) && !l.contains b.moduleId) || (sliced && decide (l ≠ memberList b.camp.live c))

/-- The installed firmware slots' highest security version. -/
def Block.highestSvn (b : Block) : Nat := max (sget (fun _ => FwSlot.init) b.boot.slots 0).svn (sget (fun _ => FwSlot.init) b.boot.slots 1).svn

/-- Does a field's soft-repair list fit its fuse room (R164)? -/
def Block.fuseFits (b : Block) (f : Nat) : Bool := decide ((b.integField f).fused.length + ((b.integField f).soft.take 64).length ≤ 128)

-- Log entry 145 (DEDUCED).
/-- The first check that the stage fails, or 0. -/
def Block.validate (b : Block) : Nat :=
  let m := b.camp.stage
  if reservedBad m then 1
  else if campEnabled m 0 = false then 2
  else if bitsOf (fnByte m 0) 0 6 ≠ 0x10 then 3
  else if (List.range 64).any fun fn => bitAt (fnByte m fn) 4 && !campEnabled m (bitsOf (fnByte m fn) 0 4) then 4
  else if 225 < sumOf ((List.range 16).map fun c => campGuarantee m c) then 5
  else if rangeBad m then 6
  else if b.membersBad m then 7
  else if minSvn m < minSvn b.camp.live ∨ b.highestSvn < minSvn m then 8
  else if (List.range 96).any fun f => bitAt (fuseCommitMask m) f && !b.fuseFits f then 9
  else if sameBytes m b.camp.live 0 imageLen then 10
  else if b.camp.counter = 0xFFFFFFFF then 11
  else 0

/-! ### Proposals (R475, R477) -/

/-- The digest of a proposal. -/
def proposalDigest (m : Sparse Byte) (nonce counter : Nat) : Nat :=
  sha256LE (((List.range imageLen).map fun o => (imgByte m o).toNat) ++ bytesOfNat 8 nonce ++ bytesOfNat 4 counter)

-- Log entries 145 (DEDUCED), 146 (DEDUCED).
/-- PROPOSE: a stage that passes is frozen, and its window starts. -/
def proposeEff (mc : Bool) (fn : Nat) (b : Block) : Block :=
  b.byParty mc fn fun b =>
    if b.camp.state ≠ 0 then (b.bump F.busyRefused).consentReply mc 5 1 []
    else
      let e := b.validate
      if e ≠ 0 then (({ b with camp := { b.camp with lastResult := 4, errItem := e } } : Block).bump F.rejInvalid).consentReply mc 5 4 [e]
      else
        let nonce := (Config.nonce b.free).toNat
        let n := b.camp.counter + 1
        let b1 : Block := { b.tick with camp := { b.camp with
          state := 1, proposer := party mc, errItem := 0, counter := n, nonce := nonce, digest := proposalDigest b.camp.stage nonce n
          windowEnd := b.fab.time + 1000000000 * windowS b.camp.live } }
        let b2 := (b1.bump F.proposals).consentEvent 0x0710 0 0
        b2.consentReply mc 5 0 b2.statusBytes

/-- The site driver's countersignature. -/
def Block.csDigest (b : Block) : Nat := packBits ((List.range 8).map fun i => (32 * i, 32, b.fget (F.csDigest i)))

/-- COUNTERSIGN: the other party's 32 bytes; FN 0's stand in CS_DIGEST. -/
def countersignEff (mc : Bool) (fn : Nat) (data : List Nat) (b : Block) : Block :=
  b.byParty mc fn fun b =>
    let sig := if mc then ofBytesLE (data.map (BitVec.ofNat 8)) else b.csDigest
    if mc = true ∧ data.length ≠ 32 then b.consentReply mc 6 5 []
    else if b.camp.state ≠ 1 then b.consentReply mc 6 2 []
    else if b.camp.proposer = party mc then (b.bump F.wrongParty).consentReply mc 6 3 []
    else if b.camp.windowEnd < b.fab.time then (b.rejectProposal 3).consentReply mc 6 2 []
    else if sig = b.camp.digest then
      (({ b with camp := { b.camp with state := 2, approvedAt := b.fab.time } } : Block).consentEvent 0x0711 0 0).consentReply mc 6 0 []
    else (b.rejectProposal 2).consentReply mc 6 0 []

/-- CONSENT_ABORT. -/
def consentAbortEff (mc : Bool) (fn : Nat) (b : Block) : Block :=
  b.byParty mc fn fun b =>
    if b.camp.state = 1 ∨ b.camp.state = 2 then (b.rejectProposal 5).consentReply mc 7 0 [] else b.consentReply mc 7 2 []

/-- GET_STATUS. -/
def getStatusEff (b : Block) : Block := b.consentReply true 1 0 b.statusBytes

/-- READ_IMAGE. -/
def readImageEff (image off len : Nat) (b : Block) : Block :=
  if 1 < image then b.consentReply true 2 4 [0]
  else if 256 < len ∨ imageLen < off + len then b.consentReply true 2 5 []
  else
    let m := if image = 0 then b.camp.live else b.camp.stage
    b.consentReply true 2 0 ((List.range len).map fun i => (imgByte m (off + i)).toNat)

/-- CONSENT_WINDOW_EXPIRY. -/
def consentWindowExpiryEff (b : Block) : Block := if b.camp.state = 1 ∧ b.camp.windowEnd ≤ b.fab.time then b.rejectProposal 3 else b

/-! ### Applying a change (R479, R480) -/

-- Log entry 149 (DEDUCED).
/-- The camps that the change disables. -/
def Block.disabledCamps (b : Block) : List Nat := (List.range 16).filter fun c => campEnabled b.camp.live c && !campEnabled b.camp.stage c

-- Log entries 147 (DEDUCED), 149 (DEDUCED).
/-- The update itself. -/
def Block.update (b : Block) : Block :=
  let camps := affectedCamps b.camp.live b.camp.stage
  let fns := changedFns b.camp.live b.camp.stage
  let lists := (List.range 16).filter fun c => memberList b.camp.live c ≠ memberList b.camp.stage c
  let us := (b.fab.time - b.camp.approvedAt) / 1000
  let b0 := b.consentEvent 0x0713 1 us
  let b1 := fns.foldl (fun b fn => b.clearRings fn) b0
  let b2 : Block := { b1 with
    camp := { b1.camp with live := b.camp.stage, state := 0, proposer := 0, lastResult := 1 }
    dram := { b1.dram with guar := camps.foldl (fun m c => sset guarDefault m c (campGuarantee b.camp.stage c)) b1.dram.guar } }
  let b3 := lists.foldl (fun b c => ({ b with yg := { b.yg with split := b.yg.split.filter fun x => x.1 != c } } : Block).sendDigest c) b2
  (b3.bump F.consentApplied).count F.applyWaitUs us

-- Log entry 149 (DEDUCED).
/-- CONSENT_APPLY: once every affected camp is held or has no step in progress, the store is written (`storeOk`: without failure), camps
that the change disables are reset, and then the whole change is applied. -/
def consentApplyEff (storeOk : Bool) (b : Block) : Block :=
  let gone := b.disabledCamps
  if b.camp.state = 2 then
    if (affectedCamps b.camp.live b.camp.stage).any fun c => b.inStep c && !b.camp.held.contains c || b.resetting c then b
    else if storeOk = false then b.rejectProposal 7
    else
      let b1 : Block := { b with camp := { b.camp.stored b.camp.stage with state := 3 } }
      if gone.isEmpty then b1.update else gone.foldl (fun b c => b.startCampReset c 3 0x3F) b1
  else if b.camp.state = 3 then (if gone.any b.resetting then b else b.update)
  else b

/-! ### The management interface (R484, R486) -/

-- Log entry 150 (DESIGN CHOICE).
/-- MCTP_CONTROL: 1 sets the endpoint ID, 2 reads it, 4 reads the version of a message type, 5 the message types; a message of a type that
the endpoint does not support is answered with an error. -/
def mctpControlEff (typ cmd arg : Nat) (b : Block) : Block :=
  if typ ≠ 0 then (if typ = 1 ∨ typ = 5 ∨ typ = 0x7E then b else b.send (.mctp typ cmd [Config.mctpError.toNat]))
  else match cmd with
    | 1 => ({ b with boot := { b.boot with eid := arg % 256 } } : Block).send (.mctp 0 1 [0, arg % 256])
    | 2 => b.send (.mctp 0 2 [0, b.boot.eid])
    | 4 => b.send (.mctp 0 4 (0 :: bytesOfNat 4 (Config.mctpVersion arg).toNat))
    | 5 => b.send (.mctp 0 5 [0, 0x00, 0x01, 0x05, 0x7E])
    | _ => b.send (.mctp 0 cmd [Config.mctpError.toNat])

-- Log entry 150 (DESIGN CHOICE).
/-- PLDM_GET_SENSOR: 0 a stack's temperature, 1 the logic's, 2 input power, 3 RM_STATUS.LEVEL, 4 a field's STATE, 5 a stack's state. -/
def pldmGetSensorEff (kind f : Nat) (b : Block) : Block :=
  let v := match kind with
    | 0 => (b.stack f).temp
    | 1 => sget (fun _ => 0) b.modu.logicC f
    | 2 => b.modu.pinW
    | 3 => b.waferLevel
    | 4 => (b.fieldSt f).state
    | _ => (b.stack f).state
  b.send (.mctp 1 kind (bytesOfNat 4 v))

/-- PLDM_SET_WAFER_CAP: as a write of RM_CONFIG.WAFER_CAP by FN 0. -/
def pldmSetWaferCapEff (value : Nat) (b : Block) : Block :=
  b.writeWord F.rmConfigWaferCap.off (wordSet (regWord b.regs F.rmConfigWaferCap.off) F.rmConfigWaferCap.lo F.rmConfigWaferCap.width value)

-- Log entry 151 (DEDUCED).
/-- PLDM_FIRMWARE_UPDATE: an image is written into the inactive slot; it takes effect at the next wafer reset. -/
def pldmFirmwareUpdateEff (signed : Bool) (svn : Nat) (b : Block) : Block :=
  { b with boot := { b.boot with slots := sset (fun _ => FwSlot.init) b.boot.slots (1 - b.boot.slot) ⟨signed, svn⟩, active := 1 - b.boot.slot } }

/-! ### Attestation (R487, R488) -/

-- Log entry 150 (DESIGN CHOICE).
/-- GET_DIGESTS: the digest of slot 0's chain. -/
def getDigestsEff (doe : Bool) (b : Block) : Block := b.send (.spdm doe 0x01 [Config.certDigest.toNat])

-- Log entry 150 (DESIGN CHOICE).
/-- GET_CERTIFICATE: a part of slot 0's chain. -/
def getCertificateEff (doe : Bool) (off len : Nat) (b : Block) : Block :=
  b.send (.spdm doe 0x02 ((List.range len).map fun i => (Config.certificate (off + i)).toNat))

-- Log entry 150 (DESIGN CHOICE).
/-- CHALLENGE: the chain's digest and a signature. -/
def challengeEff (doe : Bool) (b : Block) : Block := b.tick.send (.spdm doe 0x03 [Config.certDigest.toNat, (Config.signature b.free).toNat])

/-- The measurement of an index: 4 the live image, 7 the counter's raw bytes. -/
def Block.measurement (b : Block) (i : Nat) : List Nat :=
  let digest (x : List Nat) : List Nat := (List.range 48).map fun k => (Config.measured i x).toNat / 256 ^ (47 - k) % 256
  match i with
  | 2 => digest [b.boot.slot, b.boot.fwSvn]
  | 4 => sha384 ((List.range imageLen).map fun o => (imgByte b.camp.live o).toNat)
  | 5 => digest (((List.range 64).map fun o => (imgByte b.camp.live (576 + o)).toNat) ++ [if b.boot.bringup then 2 else if debugUnlock b.camp.live then 1 else 0])
  | 6 => digest ((List.range 104).map fun s => siteKind b.wafer.kinds s)
  | 7 => bytesOfNat 4 b.camp.counter
  | _ => digest []

-- Log entry 150 (DESIGN CHOICE).
/-- GET_MEASUREMENTS: one index of 1 to 7, or 0xFF for all; an index that does not exist is answered with an error. -/
def getMeasurementsEff (doe : Bool) (index : Nat) (b : Block) : Block :=
  let one (i : Nat) : List Nat := i :: b.measurement i
  if 1 ≤ index ∧ index ≤ 7 then b.send (.spdm doe 0x60 (one index))
  else if index = 0xFF then b.send (.spdm doe 0x60 ([1, 2, 3, 4, 5, 6, 7].flatMap one))
  else b.send (.spdm doe 0x7F [])

/-- The sessions of the ports' DOE mailboxes: 0 none, 1 a key exchange is done, 2 in session. -/
def Block.session (b : Block) (port : Nat) : Nat := bitsOf b.boot.spdm (2 * port) 2

def Block.setSession (b : Block) (port v : Nat) : Block :=
  { b with boot := { b.boot with spdm := packBits ((List.range 4).map fun p => (2 * p, 2, if p = port then v else b.session p)) } }

-- Log entry 150 (DESIGN CHOICE).
/-- KEY_EXCHANGE: over DOE only. -/
def keyExchangeEff (doe : Bool) (port : Nat) (b : Block) : Block :=
  if doe then (b.tick.setSession port 1).send (.spdm true 0x64 [(Config.exchangeKey b.free).toNat, (Config.signature b.free).toNat])
  else b.send (.spdm false 0x7F [])

-- Log entry 150 (DESIGN CHOICE).
/-- FINISH: over DOE only, after a key exchange. -/
def finishEff (doe : Bool) (port : Nat) (b : Block) : Block :=
  if doe = true ∧ b.session port = 1 then (b.setSession port 2).send (.spdm true 0x65 []) else b.send (.spdm doe 0x7F [])

end Sys2Proof.Machine
end

