-- ==== Sys2Proof/Machine/HostLink.lean ====
section
/-! DEFINITION. The host ports (R372 to R396): links, function and port resets, configuration requests, poisoned writes, IDE. -/
namespace Sys2Proof.Machine

def Block.setPort_ (b : Block) (p : Nat) (x : PortSt) : Block :=
  { b with host := { b.host with ports := sset (fun _ => PortSt.init) b.host.ports p x } }

/-- Raise an event of a port or a function (R397). -/
def Block.hostEvent (b : Block) (code port fn cause : Nat) : Block :=
  let camp := if fn = 0x3F ∨ b.fnMapped fn = false then 0xFF else b.fnCamp fn
  b.raise code (edgeField b (24 + port)) camp
    (packBits [(0, 2, port), (8, 6, fn), (16, 3, (b.portSt port).speed), (24, 6, (b.portSt port).width), (32, 4, cause)])

/-! ### Function-level reset (R394) -/

/-- The functions of a port that exist. -/
def Block.portFns (b : Block) (p : Nat) : List Nat := ((List.range 16).map (16 * p + ·)).filter b.fnExists

/-- The function's configuration, MSI-X table, PBA, moderation words and rings go to their reset values; a PF's SR-IOV and IDE
configuration with them. -/
def Block.clearFn (b : Block) (fn : Nat) : Block :=
  let p := fn / 16
  let b1 : Block := { b.clearRings fn with host := { b.host with
    fns := supd (fun _ => FnSt.init) b.host.fns fn fun s => { FnSt.init with campResetting := s.campResetting }
    vecs := b.host.vecs.filter fun kv => kv.1 / 2048 != fn } }
  if fn % 16 = 0 then
    ({ b1 with host := { b1.host with ide := b1.host.ide.filter fun kv => kv.1 / 8 != p } } : Block).setPort_ p { b1.portSt p with numVfs := 0, vfEnable := false }
  else b1

/-- The camp reset that an FLR may start. -/
def Block.flrCamp (b : Block) (fn : Nat) : Block :=
  if b.fnMapped fn && b.fnFlrCamp fn then
    let b1 := b.startCampReset (b.fnCamp fn) 1 fn
    if b1.resetting (b.fnCamp fn) then
      { b1 with host := { b1.host with fns := supd (fun _ => FnSt.init) b1.host.fns fn fun s => { s with campResetting := true } } }
    else b1
  else b

/-- An FLR of a function: `cause` 1 FLR, 2 port reset, 3 VF Enable cleared. -/
def Block.flr (b : Block) (fn cause : Nat) : Block :=
  (((b.clearFn fn).bump (F.flrs (fn / 16))).hostEvent 0x0804 (fn / 16) fn cause).flrCamp fn

-- Log entry 157 (PRESUMED).
/-- Clearing VF Enable: an FLR of every VF of the port. -/
def Block.clearVfs (b : Block) (p : Nat) : Block :=
  let vfs := (b.portFns p).filter fun fn => fn % 16 ≠ 0
  let b1 := vfs.foldl (fun b fn => b.flr fn 3) b
  b1.setPort_ p { b1.portSt p with vfEnable := false }

-- Log entry 157 (PRESUMED).
/-- FUNCTION_LEVEL_RESET. An FLR of a PF clears its VF Enable. -/
def functionLevelResetEff (fn : Nat) (b : Block) : Block :=
  if b.ideDrops fn = true ∨ b.fnExists fn = false then b
  else if fn % 16 = 0 then (b.clearVfs (fn / 16)).flr fn 1
  else b.flr fn 1

/-- VF_ENABLE_CLEAR. -/
def vfEnableClearEff (p : Nat) (b : Block) : Block := if (b.portSt p).vfEnable then b.clearVfs p else b

/-! ### Links (R373, R395) -/

-- Log entry 157 (PRESUMED).
/-- A port reset: an FLR of every function of the port in ascending FN order. -/
def Block.portReset (b : Block) (p : Nat) : Block := (b.portFns p).foldl (fun b fn => b.flr fn 2) b

/-- HOST_LINK_UP: a port reaches L0. -/
def hostLinkUpEff (p speed width : Nat) (flit : Bool) (b : Block) : Block :=
  let x := b.portSt p
  if b.modu.pwrGood = false ∨ x.up = true ∨ bitAt b.modu.perst p = true ∨ speed = 0 ∨ 6 < speed ∨ (width ≠ 4 ∧ width ≠ 8 ∧ width ≠ 16) then b
  else
    let b1 := b.setPort_ p { x with up := true, flit := flit || decide (speed = 6), speed := speed, width := width, ltssm := 3, failRaised := false }
    let b2 := b1.hostEvent 0x0801 p 0x3F 0
    if width < 16 ∨ speed < 6 then b2.hostEvent 0x0803 p 0x3F 0 else b2

/-- A port leaves L0: its link goes down, which is a port reset. -/
def Block.leaveL0 (b : Block) (p ltssm : Nat) : Block :=
  let b1 := b.setPort_ p { b.portSt p with up := false, flit := false, speed := 0, width := 0, ltssm := ltssm }
  ((b1.bump (F.linkDowns p)).hostEvent 0x0802 p 0x3F 0).portReset p

/-- HOST_LINK_DOWN: a port leaves L0 into state `ltssm`; or it fails to train, fewer than 4 lanes having trained: it stays down, and the
event is raised once. -/
def hostLinkDownEff (p ltssm : Nat) (b : Block) : Block :=
  let x := b.portSt p
  if x.up then (if ltssm = 3 ∨ ltssm = 4 then b else b.leaveL0 p ltssm)
  else if b.modu.pwrGood = false ∨ bitAt b.modu.perst p = true ∨ 1 < ltssm then b
  else if x.failRaised then b.setPort_ p { x with ltssm := ltssm }
  else ((b.setPort_ p { x with ltssm := ltssm, failRaised := true }).bump (F.linkDowns p)).hostEvent 0x0802 p 0x3F 0

-- Log entry 157 (PRESUMED).
/-- HOT_RESET: a Hot Reset, or the link being disabled. -/
def hotResetEff (p : Nat) (disable : Bool) (b : Block) : Block := if (b.portSt p).up then b.leaveL0 p (if disable then 5 else 6) else b

/-- HOST_LINK_RECOVERY: a port enters Recovery and returns to L0; `replays` flits were replayed and `corr` correctable errors reported. -/
def hostLinkRecoveryEff (p replays corr : Nat) (b : Block) : Block :=
  if (b.portSt p).up then ((b.bump (F.recoveries p)).count (F.flitReplays p) replays).count (F.corrErrors p) corr else b

/-! ### TLPs (R385, R392) -/

-- Log entry 155 (PRESUMED).
/-- BAR_WRITE_POISONED. -/
def barWritePoisonedEff (fn : Nat) (b : Block) : Block :=
  b.tlp fn fun b => (b.bump (F.poisonedRx (fn / 16))).bump (F.uncorrErrors (fn / 16))

-- Log entry 156 (DEDUCED).
/-- IDE_CHECK_FAIL: a TLP of a Secure stream fails its integrity check, and the stream is Insecure. -/
def ideCheckFailEff (p stream : Nat) (b : Block) : Block :=
  let x := b.ideSt p stream
  if x.state = 1 then
    let b1 : Block := { b with host := { b.host with ide := sset (fun _ => IdeSt.init) b.host.ide (ideKey p stream) { x with state := 2 } } }
    (b1.bump (F.ideFails p)).hostEvent 0x0806 p 0x3F 0
  else b

-- Log entry 156 (DEDUCED).
/-- IDE_KM: keys for a stream and its requester range, over a secured session of the PF's DOE mailbox; a new key makes the stream Secure. -/
def ideKmEff (p stream lo hi : Nat) (b : Block) : Block :=
  if b.session p = 2 then { b with host := { b.host with ide := sset (fun _ => IdeSt.init) b.host.ide (ideKey p stream) ⟨1, lo, hi⟩ } } else b

/-! ### Configuration requests (R375 to R377) -/

-- Log entry 158 (PRESUMED).
/-- A word of a function's configuration header (R375); what the spec lays out nowhere is free. -/
def Block.cfgWord (b : Block) (fn off : Nat) : Nat :=
  if off = 0x00 then (if fn % 16 = 0 then 0x04521F2B else 0x04531F2B)
  else if off = 0x08 then 0x12000000 + b.wafer.stepping
  else if off = 0x2C then 0x00011F2B
  else (Config.cfgWord fn off).toNat

-- Log entry 158 (PRESUMED).
/-- Change a function's configuration state. -/
def Block.setFn (b : Block) (fn : Nat) (h : FnSt → FnSt) : Block :=
  { b with host := { b.host with fns := supd (fun _ => FnSt.init) b.host.fns fn h } }

-- Log entries 155 (PRESUMED), 158 (PRESUMED).
/-- CONFIGURATION_REQUEST: a function that does not exist answers Unsupported Request. -/
def configurationRequestEff (fn : Nat) (req : CfgReq) (b : Block) : Block :=
  let p := fn / 16
  if b.ideDrops fn then b
  else if b.fnExists fn = false then (b.bump (F.uncorrErrors p)).send (.tlpStatus fn 1)
  else match req with
    | .read off => b.send (.readData fn off (b.cfgWord fn off))
    | .busMaster on => b.setFn fn fun s => { s with bme := on }
    | .power d3 => b.setFn fn fun s => { s with d3 := d3 }
    | .msix enable mask => b.setFn fn fun s => { s with msixEnable := enable, fnMask := mask }
    | .numVfs n => if fn % 16 = 0 ∧ (b.portSt p).vfEnable = false ∧ n ≤ 15 then b.setPort_ p { b.portSt p with numVfs := n } else b
    | .vfEnable on =>
      if fn % 16 ≠ 0 then b
      else if on then b.setPort_ p { b.portSt p with vfEnable := true } else vfEnableClearEff p b
    | .deviceControl mps mrrs relaxed tag10 => b.setFn fn fun s => { s with mps := mps, mrrs := mrrs, relaxed := relaxed, tag10 := tag10 }
    | .other => b

end Sys2Proof.Machine
end

