-- ==== Sys2Proof/Machine/Boot.lean ====
section
/-! DEFINITION. Reset and start-up (R520 to R532, R538 to R541): what a reset clears and keeps, the stages, the holds, and what each stage
does. -/
namespace Sys2Proof.Machine

/-! ### What survives a reset (R521) -/

-- Log entries 50 (DEDUCED), 159 (DEDUCED).
/-- Does a register keep its value: over both resets TRIP_RECORD, TRIPS and WAFER_RESETS; over a wafer reset BOOT_CONFIG, HOST_CONFIG,
DOMAIN_CONFIG and BANK_MODE too? -/
def keptWord (cold : Bool) (off : Nat) : Bool :=
  [0xF00020, 0xF0005C, 0x100028].contains off ||
    (!cold && ([0x100004, 0xD80000, 0xE00000].contains off || (decide (0x1000000 ≤ off) && (decide (off % 0x80000 = 0x30000) || decide (off % 0x80000 = 0x30004)))))

-- Log entries 50 (DEDUCED), 159 (DEDUCED), 165 (DEDUCED), 168 (DEDUCED).
/-- Everything a cold or wafer reset clears goes to its reset value. Fuse map, stores, firmware slots, cellar media, trip record and the
candidates that the reset applies stay (R521, R162). -/
def Block.wiped (b : Block) (cold : Bool) : Block :=
  let r := Block.reset
  { r with
    regs := b.regs.filter fun kv => keptWord cold kv.1
    wafer := { r.wafer with kinds := b.wafer.kinds, serial := b.wafer.serial, stepping := b.wafer.stepping }
    camp := { r.camp with live := b.camp.live, store := b.camp.store, older := b.camp.older, counter := b.camp.counter, lastResult := b.camp.lastResult }
    boot := { r.boot with
      slots := b.boot.slots, active := b.boot.active, bringup := !cold && b.boot.bringup, fuseCommit := !cold && b.boot.fuseCommit, cause := b.boot.cause
      mgmt := if cold then [] else b.boot.mgmt, alert := !cold && b.boot.alert, eid := if cold then 0 else b.boot.eid
      stageUs := if cold then [] else b.boot.stageUs, startupUs := if cold then 0 else b.boot.startupUs }
    integ := { r.integ with fields := (b.integ.fields.map fun kv =>
      (kv.1, { IntegField.init with soft := kv.2.soft.take 64, fused := kv.2.fused, cands := kv.2.cands })).filter fun kv => decide (kv.2 ≠ IntegField.init) }
    cellar := { r.cellar with images := b.cellar.images, units := b.cellar.units, lost := b.cellar.lost, map := b.cellar.map, blocks := b.cellar.blocks
                              savedClean := if cold then 0 else b.cellar.savedClean, savedPenalty := b.cellar.savedPenalty }
    modu := { b.modu with logicPct := 100, lastStep := 0, coolSince := 0, forceSince := b.modu.forceSince - b.fab.time, stages := if b.modu.pwrGood then 2 ^ 96 - 1 else b.modu.stages }
    out := b.out
    free := b.free }

/-! ### Stages (R522) -/

-- Log entry 170 (DEDUCED).
/-- The stage after one: COMMIT only with a fuse commit, BRINGUP_HOLD only in bring-up mode, CONFIG_HOLD only while CFG_HOLD is 1. -/
def Block.nextStage (b : Block) (k : Nat) : Nat :=
  match k with
  | 0 => if b.boot.fuseCommit then 1 else 2
  | 3 => if b.boot.bringup then 4 else 5
  | 5 => if b.fget F.bootConfigCfgHold = 1 then 6 else 7
  | _ => k + 1

/-- An event that goes to the management controller alone. -/
def Block.toController (b : Block) (code payload : Nat) : Block := { b with boot := b.boot.hear ⟨code, 0xFF, 0xFF, b.fab.time, payload⟩ }

-- Log entry 160 (DEDUCED).
/-- Start-up halts (R524). -/
def Block.halt (b : Block) (stage err field : Nat) : Block :=
  ({ b with boot := { b.boot with stage := 15, err := err, hold := false } } : Block).raise 0x0901 0xFF 0xFF (packBits [(0, 8, stage), (8, 8, err), (16, 8, field)])

/-! ### Totals (R32) -/

def popcount (w x : Nat) : Nat := ((List.range w).filter (bitAt x)).length

/-- Fold a shown quantity of every field (R30). -/
def Block.sumFields (b : Block) (h : FieldSt → Nat) : Nat := sumOf ((List.range 96).map fun f => (b.fieldSt f).shown (h (b.fieldSt f)))

def Block.degradedFields (b : Block) : Nat := ((List.range 96).filter fun f => decide ((b.fieldSt f).state = 3)).length

/-- READY_MAP (R31). -/
def Block.readyMap (b : Block) : Nat :=
  packBits [(0, 16, b.sumFields fun x => popcount 288 x.cores), (16, 16, b.sumFields fun x => popcount 12 x.arrays), (32, 16, b.sumFields fun x => popcount 32 x.chans),
    (48, 8, b.sumFields fun x => popcount 2 x.lanterns), (56, 8, b.degradedFields), (64, 32, b.sumFields (·.granules)), (96, 16, b.wafer.mapGen)]

/-! ### Entering a stage -/

/-- DONE (R22, R31, R512): READY, the ready map, a trip that boot flash recorded; a module that has not joined a domain is its own. -/
def Block.startupDone (b : Block) : Block :=
  let b0 : Block := { b with boot := { b.boot with ready := true } }
  let b1 := b0.raise 0x0910 0xFF 0xFF b.readyMap
  let b2 := b1.raiseIf (decide (b.degradedFields ≠ 0)) 0x0912 0xFF 0xFF b.readyMap
  let b3 := match b2.modu.tripNote with
    | some (f, t) =>
      let x := ((((b2.fset F.tripRecordField f).fset F.tripRecordTempC t).fset F.tripRecordValid 1).bump F.trips).raise 0x0202 f 0xFF
        (packBits [(0, 8, t), (32, 16, b2.modu.vinMv)])
      { x with modu := { x.modu with tripNote := none } }
    | none => b2
  if b3.yg.domain.joined then b3 else b3.joinDomain b3.moduleId 0

/-- A stage begins. -/
def Block.beginStage (b : Block) (k : Nat) : Block :=
  let b1 : Block := { b with boot := { b.boot with stage := k, hold := decide (k = 4 ∨ k = 6) } }
  match k with
  | 4 | 6 => (b1.raise 0x0902 0xFF 0xFF k).raiseIf b1.boot.bringup 0x0903 0xFF 0xFF k
  | 7 =>
    ({ b1 with boot := { b1.boot with running := true, en := { b1.boot.en with yilgil := true } } } : Block).startPorts
  | 8 => { b1 with wafer := { b1.wafer with fields := (List.range 96).map fun f => (f, { FieldSt.init with state := 1 }) }, rat := { b1.rat with testing := 1 } }
  | 10 => b1.startupDone
  | _ => b1

/-! ### COMMIT (R164, R480) -/

/-- The DEBUG_UNLOCK or FUSE_COMMIT bits of an image are cleared. -/
def clearUnlock (m : Sparse Byte) : Sparse Byte := sset defaultImage m 578 0
def setCommit (m : Sparse Byte) (mask : Nat) : Sparse Byte :=
  (List.range 12).foldl (fun m i => sset defaultImage m (580 + i) (BitVec.ofNat 8 (bitsOf mask (8 * i) 8))) m
-- Log entry 52 (DEDUCED).
def clearCommit (m : Sparse Byte) : Sparse Byte := setCommit m 0

-- Log entry 171 (DEDUCED).
/-- A consent event with no proposal (R490). -/
def Block.storeEvent (b : Block) (code value : Nat) : Block := b.raise code 0xFF 0xFF (packBits [(0, 32, b.camp.counter), (96, 32, value)])

-- Log entry 52 (DEDUCED).
/-- A field's soft-repair list is copied into the fuse map, and cleared. -/
def Block.commitField (b : Block) (f : Nat) : Block :=
  let x := b.integField f
  b.setInteg f { x with fused := x.fused ++ x.soft.take 64, soft := [] }

-- Log entries 170 (DEDUCED), 171 (DEDUCED).
def Block.stageCommit (b : Block) : Block :=
  let fs := (List.range 96).filter (bitAt (fuseCommitMask b.camp.live))
  let b1 := if fs.all b.fuseFits then (fs.foldl (fun b f => b.commitField f) b).storeEvent 0x0715 fs.length else b.storeEvent 0x0716 0
  { b1 with camp := { b1.camp.stored (clearCommit b1.camp.store) with live := clearCommit b1.camp.live }, boot := { b1.boot with fuseCommit := false } }

-- Log entry 230 (DESIGN CHOICE).
/-- Power is lost: a commit in progress keeps what has verified, and leaves the other fields' lists and FUSE_COMMIT bits for the next wafer
reset (R539). -/
def Block.powerLost (b : Block) : Block :=
  if b.boot.stage = 1 ∧ ((List.range 96).filter (bitAt (fuseCommitMask b.camp.live))).all b.fuseFits = true then
    let done := (List.range 96).filter fun f => bitAt (fuseCommitMask b.camp.live) f && bitAt (Config.verified b.free).toNat f
    let left := packBits (((List.range 96).filter fun f => bitAt (fuseCommitMask b.camp.live) f && !done.contains f).map fun f => (f, 1, 1))
    let b1 := done.foldl (fun b f => b.commitField f) b.tick
    { b1 with camp := { b1.camp.stored (setCommit b1.camp.store left) with live := setCommit b1.camp.live left } }
  else b

/-! ### FUSE (R163, R473) -/

-- Log entry 52 (DEDUCED).
def Block.stageFuse (b : Block) (w : StageWork) : Block :=
  let store := if w.newerBad then b.camp.older else b.camp.store
  let live := if w.campBad then [] else store
  let guar := (List.range 16).foldl (fun m c => sset guarDefault m c (campGuarantee live c)) b.dram.guar
  let b1 : Block := { b with camp := { b.camp with live := live, store := store }, dram := { b.dram with guar := guar }, integ := { b.integ with storeOk := !w.repairBad } }
  let b2 := if w.campBad then b1.storeEvent 0x0714 0 else b1
  if w.repairBad then
    ({ b2 with integ := { b2.integ with fields := (b2.integ.fields.map fun kv => (kv.1, { kv.2 with soft := [] })).filter fun kv => decide (kv.2 ≠ IntegField.init) } } : Block).raise
      0x0108 0xFF 0xFF 0
  else b2

/-! ### BOOT (R489) -/

-- Log entry 151 (DEDUCED).
/-- Try the slots in order; a refused image is reported. -/
def Block.trySlots (b : Block) : List Nat → Block
  | [] => b.halt 3 1 0xFF
  | s :: r =>
    let x := sget (fun _ => FwSlot.init) b.boot.slots s
    if x.signed = true ∧ minSvn b.camp.live ≤ x.svn then { b with boot := { b.boot with slot := s, fwSvn := x.svn, fwRunning := true } }
    else Block.trySlots (b.storeEvent 0x0720 x.svn) r

/-! ### FABRIC (R43, R50, R61, R82) -/

/-- Has every ordered pair of working routers a route? -/
def allRoutes (k : Sparse Nat) : Bool :=
  let up := (List.range 104).filter fun s => siteKind k s ≠ 3
  up.all fun a => up.all fun c => (route k a c).isSome

-- Log entry 162 (DESIGN CHOICE).
def Block.stageFabric (b : Block) (w : StageWork) : Block :=
  if allRoutes b.wafer.kinds then
    { b with
      fab := { b.fab with routesOk := true, time := 0 }
      rat := { b.rat with desks := (List.range 96).map fun f => (f, { Desk.init with floor := w.floors.getD f 64 }) }
      boot := { b.boot with en := { b.boot.en with fabric := true } } }
  else b.halt 5 2 0xFF

/-! ### TRAIN (R139, R162) -/

/-- The address at which a row starts. -/
def rowAddr (f chan bank row : Nat) : Nat := dramBase + f * 2 ^ 36 + row * 2 ^ 20 + chan * 2 ^ 15 + (bank / 4) * 2 ^ 7 + (bank % 4) * 2 ^ 9

-- Log entry 50 (DEDUCED).
/-- A candidate takes a spare; a DRAM row without one retires its frame, and a bit-column without one stays in service. -/
def Block.applyCand (b : Block) (f : Nat) (c : Cand) : Block :=
  let x := b.integField f
  if x.noSpare c.mem c.unit c.bank = false then b.addSoft f ⟨c.mem, c.unit, c.bank, c.place, false⟩
  else
    let b1 := if c.mem = 0 then b.addSoft f ⟨0, c.unit, c.bank, c.place, true⟩ else b
    b1.raise 0x0107 f 0xFF (integPayload c.mem 0 0 c.unit 0 (if c.mem = 0 then rowAddr f c.unit c.bank c.place else 0))

-- Log entry 53 (DEDUCED).
/-- The repairs of a field: from the fuse map, from the store, and the candidates. -/
def Block.repairField (b : Block) (f : Nat) : Block :=
  let b1 := (b.integField f).cands.foldl (fun b c => b.applyCand f c) b
  let x := b1.integField f
  let b2 := b1.setInteg f { x with cands := [] }
  let n := x.fused.length + x.soft.length
  let rows := ((x.fused ++ x.soft).filter fun r => !r.retired && decide (r.mem = 0)).foldl
    (fun m r => supd (fun _ => 0) m (bankKey f r.unit r.bank) (· + 1)) b2.dram.rowsUsed
  ({ b2 with dram := { b2.dram with rowsUsed := rows }, integ := { b2.integ with storeEntries := b2.integ.storeEntries + x.soft.length } } : Block).raiseIf
    (decide (n ≠ 0)) 0x0106 f 0xFF (integPayload 0 0 0 0 n 0)

-- Log entry 198 (DESIGN CHOICE).
/-- A channel trains: at most 4 lanes are remapped; one that needs more, or whose stack is dark, is left out. -/
def Block.trainChan (b : Block) (f n : Nat) (bad : List Nat) : Block :=
  let ok := decide (bad.length ≤ 4) && decide ((b.stack f).state ≠ 4)
  b.setChan f n { ChanSt.init with state := if ok then 1 else 3, spared := if ok then bad else [] }

-- Log entry 50 (DEDUCED).
def Block.stageTrain (b : Block) (w : StageWork) : Block :=
  let b1 := (b.integ.fields.map (·.1)).foldl (fun b f => b.repairField f) b
  let bad (f n : Nat) : List Nat := ((w.lanes.find? fun x => x.1 == f && x.2.1 == n).map (·.2.2)).getD []
  let b2 := (List.range 96).foldl (fun b f => (List.range 32).foldl (fun b n => b.trainChan f n (bad f n)) b) b1
  ({ b2 with boot := { b2.boot with en := { b2.boot.en with dram := true } } } : Block).noteCapacity

/-! ### TEST (R20 to R24) -/

/-- The failed cores of a pod, and how many the pod's good spare sites replace. -/
def podFails (t : FieldTest) (p : Nat) : List Nat := (List.range 72).map (72 * p + ·) |>.filter t.cores.contains
-- Log entry 197 (DESIGN CHOICE).
def sparesBound (t : FieldTest) (p : Nat) : Nat := min (podFails t p).length (3 - t.spares.getD p 0)

-- Log entry 197 (DESIGN CHOICE).
/-- The cores left out: in each pod those beyond its spares. -/
def lostCores (t : FieldTest) : List Nat := (List.range 4).flatMap fun p => (podFails t p).drop (sparesBound t p)

/-- Which mandatory units failed, as FIELD_FAILED reports them. -/
def unitsFailed (t : FieldTest) : Nat := t.units % 16 + (if t.units / 16 % 8 = 0 then 0 else 16) + (if t.lanterns % 4 = 3 then 32 else 0)

def clearBits (w mask bad : Nat) : Nat := packBits ((List.range w).map fun i => (i, 1, if bitAt mask i && !bitAt bad i then 1 else 0))

-- Log entry 160 (DEDUCED).
/-- What the test found of a field. -/
def Block.testedField (b : Block) (t : FieldTest) : FieldSt :=
  let f := t.field
  let chans := (List.range 32).filter fun n => (b.chan f n).state ≠ 3
  let x : FieldSt :=
    { state := 2
      cores := (lostCores t).foldl (fun m i => setBit m i false) (2 ^ 288 - 1)
      arrays := clearBits 12 (2 ^ 12 - 1) t.arrays
      banks := clearBits 24 (2 ^ 24 - 1) t.banks
      chans := packBits (chans.map fun n => (n, 1, 1))
      granules := sumOf (chans.map fun n => 32768 - b.retiredIn f n)
      lanterns := clearBits 2 3 t.lanterns
      units := packBits [(0, 1, if bitAt t.units 3 then 0 else 1), (1, 1, if bitAt t.units 2 then 0 else 1), (2, 1, if bitAt t.units 1 then 0 else 1),
        (3, 3, clearBits 3 7 (t.units / 16))]
      sparesUsed := packBits ((List.range 4).map fun p => (2 * p, 2, sparesBound t p))
      statusGen := 0 }
  let whole := decide (lostCores t = []) && decide (x.arrays = 2 ^ 12 - 1) && decide (x.banks = 2 ^ 24 - 1) && decide (chans.length = 32) && decide (x.lanterns = 3)
  { x with state := if unitsFailed t ≠ 0 then 4 else if whole then 2 else 3 }

/-- What a stage found of a field; nothing fails where nothing is listed. -/
def testOf (w : StageWork) (f : Nat) : FieldTest := (w.tests.find? fun t => t.field == f).getD ⟨f, [], [], 0, 0, 0, 0⟩

-- Log entries 160 (DEDUCED), 162 (DESIGN CHOICE).
def Block.stageTest (b : Block) (w : StageWork) : Block :=
  let fields := (List.range 96).map fun f => (f, b.testedField (testOf w f))
  let b1 : Block := { b with wafer := { b.wafer with fields := fields, edges := w.edges.foldl (fun m k => setBit m k false) (2 ^ 36 - 1) } }
  let bad := (List.range 96).filter fun f => unitsFailed (testOf w f) ≠ 0
  let b2 := bad.foldl (fun b f => b.raise 0x0913 f 0xFF (packBits [(0, 7, fieldSite b.wafer.kinds f), (8, 8, unitsFailed (testOf w f))])) b1
  match bad with
  | [] => b2
  | f :: _ => ({ b2 with boot := { b2.boot with failed := true } } : Block).halt 8 3 f

/-! ### The end of a stage -/

-- Log entry 162 (DESIGN CHOICE).
/-- The end of a wafer reset's ramp-down (R82, R187): the cellar's read counts are saved. -/
def Block.stageRamp (b : Block) : Block :=
  (List.range 8).foldl (fun b k =>
    let b1 := readCountSaveEff k b
    if (b.cc k).state = 1 then { b1 with cellar := { b1.cellar with savedClean := setBit b1.cellar.savedClean k true } } else b1) b

-- Log entry 161 (DEDUCED).
/-- What a stage does by its end. -/
def Block.stageWork (b : Block) (k : Nat) (w : StageWork) : Block :=
  match k with
  | 0 => b.stageRamp
  | 1 => b.stageCommit
  | 2 => b.stageFuse w
  | 3 => b.trySlots [b.boot.active, 1 - b.boot.active]
  | 5 => b.stageFabric w
  | 7 => b.stageTrain w
  | 8 => b.stageTest w
  | 9 => { b with
      boot := { b.boot with en := { b.boot.en with sram := true, integ := true, service := true } }
      integ := { b.integ with weedFrom := b.fab.time } }
  | _ => b

/-- STAGE_TIME_US, and STARTUP_US without holds. -/
def Block.recordStage (b : Block) (k us : Nat) : Block :=
  { b with boot := { b.boot with
      stageUs := sset (fun _ => 0) b.boot.stageUs k us, startupUs := if k = 4 ∨ k = 6 then b.boot.startupUs else satTo 32 (b.boot.startupUs + us) } }

/-- Is H0's PERST_N holding the wafer at the end of its ramp-down (R514)? -/
def Block.perstHolds (b : Block) : Bool := bitAt b.modu.perst 0 && decide (b.boot.cause = 4)

-- Log entry 159 (DEDUCED).
/-- The fields are reset and the next stage begins: COMMIT or FUSE. -/
def Block.leaveRamp (b : Block) : Block :=
  let b1 := b.wiped false
  b1.beginStage (b1.nextStage 0)

/-- Does a stage wait for the desks: RAMP_DOWN until they are at their floors (R82), TEST until its ramp has come back (R522)? -/
def Block.stageRamping (b : Block) (k : Nat) : Bool :=
  match k with
  | 0 => b.boot.en.fabric && !b.atFloors
  | 8 => decide (b.rat.testing ≠ 0)
  | _ => false

/-- STARTUP_STAGE_DONE: the stage in progress finishes: the next begins, or start-up halts. A hold ends by BOOT_CONTINUE. -/
def startupStageDoneEff (w : StageWork) (b : Block) : Block :=
  let k := b.boot.stage
  if b.modu.pwrGood = false ∨ 10 ≤ k ∨ b.boot.hold = true ∨ b.boot.ramped = true ∨ b.stageRamping k = true then b
  else
    let b1 := (b.stageWork k w).recordStage k w.us
    if b1.boot.stage = 15 then b1
    else if k = 0 then (if b1.perstHolds then { b1 with boot := { b1.boot with ramped := true } } else b1.leaveRamp)
    else b1.beginStage (b1.nextStage k)

-- Log entry 18 (DEDUCED).
/-- BOOT_CONTINUE: FN 0 writes BOOT_CTRL; CONTINUE leaves the hold in force, which lasted `us`. -/
def bootContinueEff (fn value us : Nat) (b : Block) : Block :=
  b.barWrite fn 0x100008 fun b =>
    if bitAt value 0 = true ∧ b.boot.hold = true then
      let k := b.boot.stage
      let b1 := ({ b with boot := { b.boot with hold := false } } : Block).recordStage k us
      b1.beginStage (b1.nextStage k)
    else b

/-! ### Starting a reset (R483, R520, R538) -/

-- Log entry 169 (DEDUCED).
/-- A proposal is discarded; a change that is applying stands in the store (R483). -/
def Block.discardProposal (b : Block) : Block :=
  if b.camp.state = 1 ∨ b.camp.state = 2 then b.rejectProposal 6 else { b with camp := { b.camp with lastResult := 0 } }

/-- Is a grant in force anywhere? -/
def Block.anyGrant (b : Block) : Bool := b.rat.desks.any fun kv => decide (kv.2.grants ≠ [])

-- Log entries 159 (DEDUCED), 170 (DEDUCED).
/-- A wafer reset starts: at RAMP_DOWN, or at FUSE where it restarts a start-up without a grant in force. A pending debug unlock opens
bring-up mode, a pending fuse commit is executed. -/
def Block.startWaferReset (b : Block) (cause : Nat) : Block :=
  if b.modu.pwrGood = false then b
  else
    let restart := decide (b.boot.stage < 10) && !b.anyGrant
    let unlock := debugUnlock b.camp.live
    let commit := decide (fuseCommitMask b.camp.live ≠ 0)
    let b1 := b.discardProposal.bump F.waferResets
    let b2 : Block := { b1 with
      camp := { (if unlock then b1.camp.stored (clearUnlock b1.camp.store) else b1.camp) with live := clearUnlock b1.camp.live, resets := [] }
      boot := { b1.boot with
        stage := 0, hold := false, ramped := false, err := 0, cause := cause, bringup := unlock, fuseCommit := commit, stageUs := [], startupUs := 0, ready := false
        failed := false } }
    let b3 := b2.toController 0x0907 cause
    if restart then (if b3.perstHolds then { b3 with boot := { b3.boot with ramped := true } } else (b3.wiped false).beginStage 2)
    else (List.range 4).foldl (fun b p => b.portReset p) { b3 with rat := b3.rat.rampDown }

/-- A cold reset, once the rails are up: start-up begins at FUSE. -/
def Block.startCold (b : Block) (cause : Nat) : Block :=
  let b1 := b.powerLost.discardProposal.wiped true
  (({ b1 with boot := { b1.boot with cause := cause } } : Block).toController 0x0907 cause).beginStage 2

/-- RESET_CTRL: a write with GO and KEY 0xA5C3 starts a wafer reset. -/
def resetCtrlEff (fn value : Nat) (b : Block) : Block :=
  b.barWrite fn 0x100000 fun b => if bitAt value 0 = true ∧ bitsOf value 16 16 = 0xA5C3 then b.startWaferReset 5 else b

-- Log entry 161 (DEDUCED).
/-- FW_STOPPED: the heartbeat has not advanced for 100 ms: resident firmware has stopped. -/
def fwStoppedEff (b : Block) : Block :=
  if b.boot.fwRunning then
    ({ b with boot := { b.boot with fwRunning := false } } : Block).raise 0x0906 0xFF 0xFF (packBits [(32, 32, b.boot.heartbeat)])
  else b

end Sys2Proof.Machine
end

