-- ==== Sys2Proof/Machine/Module.lean ====
section
/-! DEFINITION. The module (R494 to R518): the input and its rails, power-on and power-off, the shunt, cooling, the logic sensors, throttle
and trip, and the sideband; and the management controller's power commands (R503, R513, R520). -/
namespace Sys2Proof.Machine

/-- Raise a module event (R518). -/
def Block.modEvent (b : Block) (code source temp pct index watts value : Nat) : Block :=
  b.raise code source 0xFF (packBits [(0, 8, temp), (8, 7, pct), (16, 4, index), (32, 16, b.modu.vinMv), (48, 16, watts), (64, 32, value)])

/-! ### Power-on and power-off (R501, R503) -/

/-- The rails are up and PWR_GOOD asserts (R501): the input as measured, every field stage running, no trip latched. -/
def ModulePart.on (p : ModulePart) (vin iin pin aux vcore : Nat) : ModulePart :=
  { Block.reset.modu with
    vinMv := vin, iinDa := iin, pinW := pin, auxW := aux, pwrGood := true, auxOk := true, contactor := true, stages := 2 ^ 96 - 1
    vcoreMv := (List.range 96).map fun f => (f, vcore), tripNote := p.tripNote }

-- Log entry 165 (DEDUCED).
/-- A cold reset: every rail has gone down and comes back (R501, R520). -/
def Block.coldReset (b : Block) (cause vin iin pin aux vcore : Nat) : Block :=
  (({ b with modu := b.modu.on vin iin pin aux vcore } : Block).startCold cause)

-- Log entry 167 (DEDUCED).
/-- POWER_ON: VIN has reached 46.0 V. -/
def powerOnEff (vin iin pin aux vcore : Nat) (b : Block) : Block := if vin < 46000 then b else b.coldReset 1 vin iin pin aux vcore

/-- The rails fall: nothing but what a cold reset keeps survives. VAUX stays up while VIN is present. -/
def Block.railsDown (b : Block) : Block :=
  let b1 := b.powerLost.discardProposal.wiped true
  { b1 with
    boot := { b1.boot with mgmt := b.boot.mgmt, alert := b.boot.alert, eid := b.boot.eid }
    modu := { b1.modu with pwrGood := false, stages := 0, contactor := b1.modu.trip, vcoreMv := [], auxOk := decide (40000 ≤ b1.modu.vinMv), underVolt := false, offRamp := false } }

-- Log entry 166 (DEDUCED).
/-- A power-off (R503): PWR_GOOD deasserts, the ration master ramps the wafer down, and at the floors the rails fall. -/
def Block.powerOff (b : Block) : Block :=
  if b.modu.pwrGood = false then b
  else if b.boot.en.fabric = true ∧ b.atFloors = false then { b with modu := { b.modu with pwrGood := false, offRamp := true }, rat := b.rat.rampDown }
  else b.railsDown.send .powerOff

/-- The end of a power-off's ramp-down. -/
def Block.rampedOff (b : Block) : Block := if b.modu.offRamp = true ∧ b.atFloors = true then b.railsDown.send .powerOff else b

/-- PLDM_POWER_OFF. -/
def pldmPowerOffEff (b : Block) : Block := b.powerOff

-- Log entry 167 (DEDUCED).
/-- PLDM_POWER_CYCLE: a cold reset; without an input of 46.0 V the rails stay down. -/
def pldmPowerCycleEff (vcore : Nat) (b : Block) : Block :=
  if b.modu.vinMv < 46000 then b.powerOff else b.coldReset 2 b.modu.vinMv b.modu.iinDa b.modu.pinW b.modu.auxW vcore

/-- PLDM_WAFER_RESET. -/
def pldmWaferResetEff (b : Block) : Block := b.startWaferReset 3

/-- PLDM_EVENT_FETCH: the oldest held event is fetched; ALERT_N stays low while one remains (R513). -/
def pldmEventFetchEff (b : Block) : Block :=
  match b.boot.mgmt with
  | [] => b
  | e :: r => ({ b with boot := { b.boot with mgmt := r, alert := !r.isEmpty } } : Block).send (.mctp 1 e.code (bytesOfNat 32 e.bits))

/-! ### The input (R497, R499, R504, R505) -/

/-- INPUT_UNDERVOLT: VIN is below 46.0 V. -/
def inputUndervoltEff (vin : Nat) (b : Block) : Block :=
  if 46000 ≤ vin ∨ b.modu.pwrGood = false then b
  else
    let b1 : Block := { b with modu := { b.modu with vinMv := vin, underVolt := true } }
    if b.modu.underVolt then b1 else (b1.bump F.uvEvents).modEvent 0x0203 0xFF 0 0 0 0 0

/-- INPUT_RECOVER: VIN has reached 46.5 V. -/
def inputRecoverEff (vin : Nat) (b : Block) : Block :=
  if vin < 46500 ∨ b.modu.pwrGood = false then b else { b with modu := { b.modu with vinMv := vin, underVolt := false } }

/-- UNDERVOLT_POWER_OFF: VIN has stayed below 44.0 V for 100 µs. -/
def undervoltPowerOffEff (vin : Nat) (b : Block) : Block :=
  if 44000 ≤ vin then b else ({ b with modu := { b.modu with vinMv := vin } } : Block).powerOff

/-- The shunt engages. -/
def Block.shuntOn (b : Block) (watts : Nat) : Block :=
  (({ b with modu := { b.modu with shunt := true } } : Block).bump F.shuntCatches).modEvent 0x0204 0xFF 0 0 0 watts 0

/-- SHUNT_CATCH: the input current has fallen faster than 460 A/ms. -/
def shuntCatchEff (watts : Nat) (b : Block) : Block := if b.modu.pwrGood then b.shuntOn watts else b

/-- SHUNT_TAPER_END: the shunt has tapered to the load's draw; after a trip the contactor opens. -/
def shuntTaperEndEff (b : Block) : Block :=
  if b.modu.shunt then { b with modu := { b.modu with shunt := false, contactor := b.modu.contactor && !b.modu.trip } } else b

-- Log entries 163 (DEDUCED), 164 (DEDUCED).
/-- POWER_OVER: the input over 10 ms: its average power and current, and the largest change of current in 1 µs. -/
def powerOverEff (watts iin slew : Nat) (b : Block) : Block :=
  if b.modu.pwrGood = false then b
  else
    let isOver := decide (20000 < watts)
    let b1 := (({ b with modu := { b.modu with pinW := watts, iinDa := iin, powerOver := isOver } } : Block).peak F.modPeakPinPeakW watts).peak F.modPeakSlewPeak slew
    if isOver then (b1.count F.powerOverMs 10).raiseIf (!b.modu.powerOver) 0x0205 0xFF 0xFF (packBits [(32, 16, b.modu.vinMv), (48, 16, watts)]) else b1

/-! ### Cooling (R508) -/

-- Log entry 154 (DEDUCED).
/-- COOLANT_SAMPLE: inlet, outlet and flow. -/
def coolantSampleEff (inlet outlet flow : Nat) (b : Block) : Block :=
  if b.modu.pwrGood = false then b
  else
    let low := decide (flow < 10 * b.fget F.thermConfigFlowMinLpm)
    let hot := decide (b.fget F.thermConfigInletMaxC < inlet)
    let b1 : Block := { b with modu := { b.modu with inletC := inlet, outletC := outlet, flowDlpm := flow, coolantAlarm := low || hot } }
    let b2 := if low then b1.count F.flowLowMs 100 else b1
    if (low || hot) && !b.modu.coolantAlarm then b2.modEvent 0x0206 0xFF inlet 0 (if low then 1 else 2) 0 flow else b2

/-! ### The logic sensors, trip and throttle (R509 to R512) -/

-- Log entry 166 (DEDUCED).
/-- The logic trip: THERM_TRIP_N latches, the rails fall at once, the shunt takes the dropped current; boot flash keeps field and
temperature. -/
def Block.logicTrip (b : Block) (f temp : Nat) : Block :=
  if b.modu.pwrGood || b.modu.offRamp then
    let b1 := ({ b with modu := { b.modu with trip := true, tripNote := some (f, temp), shunt := true } } : Block).railsDown
    b1.send .powerOff
  else b

/-- The hottest field: its temperature, and the lowest such field. -/
def ModulePart.hottest (p : ModulePart) : Nat × Nat :=
  (List.range 96).foldl (fun m f => let t := sget (fun _ => 0) p.logicC f; if m.1 < t then (t, f) else m) (sget (fun _ => 0) p.logicC 0, 0)

/-- LOGIC_THERMAL_SAMPLE: the highest reading of each field's sensors. -/
def logicThermalSampleEff (temps : List Nat) (b : Block) : Block :=
  if b.modu.pwrGood = false ∧ b.modu.offRamp = false then b
  else
    let pairs := (List.range 96).map fun f => (f, temps.getD f (sget (fun _ => 0) b.modu.logicC f) % 256)
    let logic := pairs.foldl (fun m x => sset (fun _ => 0) m x.1 x.2) b.modu.logicC
    let cool := pairs.all fun x => decide (x.2 ≤ 100)
    let b1 := pairs.foldl (fun b x => b.peak (F.fieldThermPeakC x.1) x.2) b
    let b2 : Block := { b1 with modu := { b1.modu with
      logicC := logic, coolSince := if cool = false then 0 else if b.modu.coolSince = 0 then b.fab.time + 1 else b.modu.coolSince } }
    let top := b2.modu.hottest
    if 115 ≤ top.1 then b2.logicTrip top.2 top.1 else b2

/-- LOGIC_SENSORS_SILENT: a field's sensors have not reported for 100 µs. -/
def logicSensorsSilentEff (f : Nat) (b : Block) : Block := b.logicTrip f 0

/-- The logic source changes: LOGIC_THROTTLE where it leaves or returns to 100, and RATION_THROTTLE by what it does to the wafer. -/
def Block.setLogicPct (b : Block) (pct : Nat) : Block :=
  let top := b.modu.hottest
  let b1 : Block := { b with modu := { b.modu with logicPct := pct, lastStep := b.fab.time } }
  let b2 := if (b.modu.logicPct = 100 ∧ pct ≠ 100) ∨ (b.modu.logicPct ≠ 100 ∧ pct = 100) then b1.modEvent 0x0201 top.2 top.1 pct 0 0 0 else b1
  if b.boot.en.fabric then b2.throttleEvent b else b2

/-- LOGIC_THROTTLE_STEP: a step is due: down by 10 every 1 ms while a field is at 105 °C or above; up by 10 every 10 ms once every field
has been at or below 100 °C for 10 ms. -/
def logicThrottleStepEff (b : Block) : Block :=
  let p := b.modu
  let hot := decide (105 ≤ p.hottest.1)
  let due (ms : Nat) : Bool := !b.boot.en.fabric || decide (p.lastStep + 1000000 * ms ≤ b.fab.time)
  let cool := decide (p.coolSince ≠ 0) && (!b.boot.en.fabric || decide (p.coolSince - 1 + 10000000 ≤ b.fab.time))
  if p.pwrGood = false then b
  else if hot then (if p.logicPct ≤ 30 ∨ (p.logicPct < 100 ∧ due 1 = false) then b else b.setLogicPct (max 30 (p.logicPct - 10)))
  else if cool = true ∧ p.logicPct < 100 ∧ due 10 = true then b.setLogicPct (min 100 (p.logicPct + 10))
  else b

/-! ### The sideband (R514 to R516) -/

-- Log entry 179 (DESIGN CHOICE).
/-- PERST_ASSERT: an accepted assertion is a port reset; of H0, while H0_PERST_WAFER is 1, a wafer reset. -/
def perstAssertEff (p : Nat) (b : Block) : Block :=
  if b.modu.pwrGood = false ∨ bitAt b.modu.perst p = true then b
  else
    let b1 : Block := { b with modu := { b.modu with perst := setBit b.modu.perst p true } }
    let b2 := if (b1.portSt p).up then b1.leaveL0 p 0 else b1.portReset p
    if p = 0 ∧ b.fget F.hostConfigH0PerstWafer = 1 then b2.startWaferReset 4 else b2

/-- PERST_DEASSERT: an accepted deassertion; start-up begins where the wafer waits for H0's. -/
def perstDeassertEff (p : Nat) (b : Block) : Block :=
  if bitAt b.modu.perst p = false then b
  else
    let b1 : Block := { b with modu := { b.modu with perst := setBit b.modu.perst p false, perstStuck := setBit b.modu.perstStuck p false } }
    if p = 0 ∧ b.boot.ramped = true then b1.leaveRamp else b1

-- Log entry 163 (DEDUCED).
/-- PERST_STUCK: 10 s of continuous assertion; raised once, through the management controller. -/
def perstStuckEff (p : Nat) (b : Block) : Block :=
  if bitAt b.modu.perst p = false ∨ bitAt b.modu.perstStuck p = true then b
  else ({ b with modu := { b.modu with perstStuck := setBit b.modu.perstStuck p true } } : Block).toController 0x0208
    (packBits [(16, 4, p), (32, 16, b.modu.vinMv)])

-- Log entry 179 (DESIGN CHOICE).
/-- PERST_GLITCH: a pulse shorter than 10 µs. -/
def perstGlitchEff (b : Block) : Block := if b.modu.pwrGood then b.bump F.perstGlitches else b

/-- The FORCE source changes. -/
def Block.setForce (b : Block) (on : Bool) : Block :=
  let b1 : Block := { b with modu := { b.modu with force := on, forceSince := b.fab.time, forceHeld := 0 } }
  if b.boot.en.fabric then b1.throttleEvent b else b1

-- Log entry 179 (DESIGN CHOICE).
/-- FORCE_THROTTLE_ASSERT: an assertion held for 100 µs. -/
def forceThrottleAssertEff (b : Block) : Block := if b.modu.pwrGood = false ∨ b.modu.force = true then b else b.setForce true

/-- FORCE_THROTTLE_DEASSERT: a deassertion held for 100 µs. -/
def forceThrottleDeassertEff (b : Block) : Block := if b.modu.force then b.setForce false else b

/-- The whole seconds of the present assertion. -/
def Block.forceSeconds (b : Block) : Nat := ((b.fab.time - b.modu.forceSince) / 1000000000).toNat

-- Log entry 163 (DEDUCED).
/-- FORCE_THROTTLE_HELD: another whole 60 s of an accepted assertion has passed. -/
def forceThrottleHeldEff (b : Block) : Block :=
  let n := b.modu.forceHeld + 60
  if b.modu.force = true ∧ n ≤ b.forceSeconds then ({ b with modu := { b.modu with forceHeld := n } } : Block).modEvent 0x0207 0xFF 0 0 0 0 n else b

-- Log entry 179 (DESIGN CHOICE).
/-- FORCE_THROTTLE_GLITCH: an edge that does not hold. -/
def forceThrottleGlitchEff (b : Block) : Block := if b.modu.pwrGood then b.bump F.ftGlitches else b

/-! ### Field power stages (R517) -/

-- Log entry 166 (DEDUCED).
/-- A field's stage stops (R517): its logic draws nothing any more, and its desk with it; the shunt takes the drop of the input. -/
def Block.fieldPowerless (b : Block) (f : Nat) : Block :=
  ({ b with modu := { b.modu with stages := setBit b.modu.stages f false } } : Block).setDesk f Desk.init

-- Log entry 166 (DEDUCED).
/-- FIELD_STAGE_FAULT: rail 1 VCORE stops the field's whole stage; another rail stops VMEM alone. The stack goes DARK with CAUSE 3, and the
shunt catches `watts`. -/
def fieldStageFaultEff (f rail watts : Nat) (b : Block) : Block :=
  if b.modu.pwrGood = false ∨ bitAt b.modu.stages f = false ∨ rail = 0 ∨ 3 < rail then b
  else
    let b1 := if rail = 1 then b.fieldPowerless f else b
    let b2 := (b1.shuntOn watts).modEvent 0x0209 f 0 0 rail 0 0
    if (b2.stack f).state = 4 then b2
    else if b2.boot.en.dram then stackFaultEff f true b2
    else b2.stackDark f 3 0

end Sys2Proof.Machine
end

