-- ==== Sys2Proof/Machine/Debug.lean ====
section
/-! DEFINITION. Chapter 21: the debug aperture of BAR4 (R546, R547) and its capture buffer (R548, R550). BAR4 offsets stand at
0x4000_0000 plus their offset where a read's answer or a register is named. -/
namespace Sys2Proof.Machine

/-- BAR4 stands above BAR0 in the numbers that the model gives offsets. -/
def bar4 : Nat := 0x40000000

/-- DBG_BASE (R550). -/
def Block.dbgBase (b : Block) : Nat := b.fget F.dbgBaseLo * 2 ^ 27 + b.fget F.dbgBaseHi * 2 ^ 32

/-- The access of a window: a load or store of camp 0 by no thread (R547). -/
def debugOp (poison : Bool) : MemOp :=
  ⟨0, none, 0, 0, .read, [], 0, poison, .none, 0, false, 0, false, [], false, 0, none, 0, 0, false, 0⟩

-- Log entry 23 (DEDUCED).
/-- Is the block behind a physical window enabled (R528, R547)? -/
def Block.windowReady (b : Block) (p : Nat) : Bool :=
  match memOf p with
  | 0 => b.boot.en.dram
  | 1 => b.boot.en.sram
  | _ => b.boot.en.fabric

-- Log entries 15 (DEDUCED), 21 (DEDUCED).
/-- The bytes that a window access names must lie within one aligned 8-byte word. -/
def inEight (off len : Nat) : Bool := decide (0 < len) && decide (off % 8 + len ≤ 8)

/-- A read through the window at a target that is there and enabled: poison answers all ones, sticks and is counted. -/
def Block.windowRead (b : Block) (fn off a len : Nat) : Block :=
  let b1 := (b.checkSeg (debugOp false) a len).lookUp (debugOp false) a
  let r := b1.readSeg a len
  if r.2 then
    ((b1.fset F.dbgStatusPoison 1).bump F.dbgPoisonReads).send (.readData fn (bar4 + off) (2 ^ (8 * len) - 1))
  else b1.send (.readData fn (bar4 + off) r.1)

-- Log entries 21 (DEDUCED), 22 (DEDUCED).
/-- An access at window offset `off` (R547). -/
def Block.windowAccess (b : Block) (fn off len : Nat) (write : Bool) (data : Nat) : Block :=
  let answer0 (b : Block) : Block := if write then b else b.send (.readData fn (bar4 + off) 0)
  let a := b.dbgBase + off
  if (inEight off len) = false then (if write then b else b.send (.tlpStatus fn 2))
  else match place a with
    | .local_ _ _ _ | .sram _ _ _ | .dram _ _ =>
      if b.windowReady a = false then answer0 (b.bump F.dbgNotReady)
      else if write then b.writeSeg (debugOp false) a len (data % 2 ^ (8 * len))
      else b.windowRead fn off a len
    | _ => answer0 (b.bump F.dbgBadTarget)

-- Log entries 21 (DEDUCED), 24 (DESIGN CHOICE).
/-- A read of the capture buffer: 128 bytes an entry (R548). -/
def Block.captureRead (b : Block) (fn off len : Nat) : Block :=
  if (inEight off len) = false then b.send (.tlpStatus fn 2)
  else
    let o := off - 0x8000000
    b.send (.readData fn (bar4 + off) (bitsOf (sget (fun _ => 0) b.dbg.capture (o / 128)) (8 * (o % 128)) (8 * len)))

/-- BAR4 decodes for camp 0 in bring-up mode; any other access is refused and counted (R382, R546). -/
def Block.bar4Access (b : Block) (fn off : Nat) (write : Bool) (f : Block → Block) : Block :=
  b.tlp fn fun b =>
    if b.mayDebug fn then f b
    else if write then b.bump F.deniedWrites
    else (b.bump F.deniedReads).send (.readData fn (bar4 + off) 0)

/-- DBG_CAPTURE_WRITE: capture restarts at entry 0 (R550). -/
def dbgCaptureWriteEff (fn value : Nat) (b : Block) : Block :=
  b.bar4Access fn 0xFFFF00C true fun b =>
    let b1 := b.writeWord 0x4ffff00c (BitVec.ofNat 32 value)
    { b1 with dbg := { b1.dbg with next := 0 } }

end Sys2Proof.Machine
end

