-- ==== Sys2Proof/Machine/Live.lean ====
section
/-! DEFINITION. What the read-only fields of the registers read (the RO rows of the register tables, R32 to R550), computed from the
state that they report. A word's writable fields stand in the bank; a read gives both. -/
namespace Sys2Proof.Machine

def flag (c : Bool) : Nat := if c then 1 else 0

/-- Microseconds since a time, stopping at the top of 16 bits. -/
def Block.ageUs (b : Block) (t : Nat) : Nat := satTo 16 ((b.fab.time - t) / 1000)

/-! ### Identity and maps (R32, R33) -/

def Block.countKind (b : Block) (k : Nat) : Nat := kindsBelow b.wafer.kinds k 104

/-- SITE_MAP (R33). -/
def Block.siteMap (b : Block) (s : Nat) : Nat :=
  packBits [(0, 8, siteField b.wafer.kinds s), (8, 3, siteKind b.wafer.kinds s), (12, 4, siteRow s), (16, 4, siteCol s), (20, 1, flag (isEdge s)),
    (24, 1, flag ((List.range 24).any fun k => edgeSite k == s)), (25, 1, flag ((List.range 4).any fun k => edgeSite (24 + k) == s)),
    (26, 1, flag ((List.range 8).any fun k => edgeSite (28 + k) == s))]

/-- GLOBAL_STATUS (R32). -/
def Block.globalStatus (b : Block) : Nat :=
  packBits [(0, 1, flag b.boot.ready), (1, 1, flag (b.boot.ready && decide (b.degradedFields ≠ 0))), (2, 1, flag b.boot.failed), (16, 16, b.wafer.mapGen)]

def Block.liveIdentity (b : Block) (off : Nat) : Nat :=
  if off = 0x0 then 0x04521F2B
  else if off = 0x4 then packBits [(0, 8, b.wafer.stepping), (8, 8, 2)]
  else if off = 0x8 then bitsOf b.wafer.serial 0 32
  else if off = 0xC then bitsOf b.wafer.serial 32 32
  else if off = 0x10 then packBits [(0, 8, b.countKind 0), (8, 8, b.countKind 1), (16, 8, b.countKind 2), (24, 8, b.countKind 3)]
  else if off = 0x14 then packBits [(0, 16, b.sumFields fun x => popcount 288 x.cores), (16, 16, b.sumFields fun x => popcount 12 x.arrays)]
  else if off = 0x18 then
    packBits [(0, 16, b.sumFields fun x => popcount 32 x.chans), (16, 8, b.sumFields fun x => popcount 2 x.lanterns), (24, 8, b.sumFields fun x => bitsOf x.units 0 1)]
  else if off = 0x1C then b.sumFields (·.granules)
  else if off = 0x20 then b.globalStatus
  else if 0x100 ≤ off ∧ off < 0x2A0 then b.siteMap ((off - 0x100) / 4)
  else if 0x300 ≤ off ∧ off < 0x480 then
    let s := fieldSite b.wafer.kinds ((off - 0x300) / 4)
    packBits [(0, 7, s), (12, 4, siteRow s), (16, 4, siteCol s)]
  else if 0x500 ≤ off ∧ off < 0x590 then
    let k := (off - 0x500) / 4
    packBits [(0, 7, edgeSite k), (8, 8, edgeField b k), (31, 1, flag (bitAt b.wafer.edges k))]
  else 0

/-! ### Boot, consent, rations, fabric (R542, R491, R492, R85, R58, R59) -/

/-- STARTUP and reset words. -/
def Block.liveBoot (b : Block) (o : Nat) : Nat :=
  if o = 0xC then
    packBits [(0, 4, b.boot.stage), (4, 1, flag b.boot.hold), (5, 1, flag b.boot.bringup), (6, 1, b.boot.slot), (8, 4, b.boot.err), (16, 16, b.boot.fwSvn)]
  else if o = 0x10 then b.boot.cause
  else if o = 0x14 then satTo 32 b.boot.startupUs
  else if o = 0x18 then satTo 32 b.boot.heartbeat
  else if o = 0x24 then packBits [(0, 4, b.boot.lastCamp), (4, 2, b.boot.lastCause), (16, 16, satTo 16 b.boot.lastMs)]
  else if 0x40 ≤ o ∧ o < 0x6C then satTo 32 (sget (fun _ => 0) b.boot.stageUs ((o - 0x40) / 4))
  else 0

-- Log entry 147 (DEDUCED).
def Block.liveConsent (b : Block) (o : Nat) : Nat :=
  if o = 0x4 then b.consentStatus
  else if o = 0x8 then b.camp.counter % 2 ^ 32
  else if o = 0xC then b.windowLeft
  else if o = 0x10 then bitsOf b.camp.nonce 0 32
  else if o = 0x14 then bitsOf b.camp.nonce 32 32
  else if 0x20 ≤ o ∧ o < 0x40 then bitsOf b.camp.digest (8 * (o - 0x20)) 32
  else if o = 0x84 then packBits ((List.range 16).map fun c => (c, 1, flag (b.resetting c)))
  else if 0x1000 ≤ o ∧ o < 0x1000 + imageLen then imgField b.camp.live (o - 0x1000) 4
  else if 0x3000 ≤ o ∧ o < 0x3000 + imageLen then imgField b.camp.stage (o - 0x3000) 4
  else 0

def Block.liveRation (b : Block) (o : Nat) : Nat :=
  if o = 0xC then packBits [(0, 7, b.throttlePct), (8, 1, flag (decide (b.modu.logicPct < 100))), (9, 1, flag b.modu.force)]
  else if o = 0x10 then
    packBits [(0, 18, b.waferLevel), (18, 5, 26 - b.lentUp), (23, 1, flag b.boot.en.fabric),
      (24, 1, flag (b.rat.desks.any fun kv => b.deskRamps kv.1)), (25, 1, flag (b.rat.desks.any fun kv => b.deskOver kv.1))]
  else 0

/-- The longest route of the module, and the ordered pairs that a waypoint carries (R58). -/
def Block.routeTotals (b : Block) : Nat × Nat :=
  if b.fab.routesOk then
    (List.range 104).foldl (fun m s => (List.range 104).foldl (fun m t =>
      match route b.wafer.kinds s t with
      | some (h, w) => (max m.1 h, m.2 + if w = 0x7F then 0 else 1)
      | none => m) m) (0, 0)
  else (0, 0)

/-- The routers that keep time: every site but the HOLEs. -/
def Block.routers (b : Block) : List Nat := (List.range 104).filter fun s => siteKind b.wafer.kinds s ≠ 3

def Block.unlockedRouters (b : Block) : Nat := (b.routers.filter fun s => !(b.siteSt s).locked).length

def Block.liveFabric (b : Block) (o : Nat) : Nat :=
  if o = 0x4 then packBits [(0, 1, flag b.boot.en.fabric), (1, 1, flag b.fab.routesOk), (8, 8, b.routeTotals.1), (16, 16, b.routeTotals.2)]
  else if o = 0xC then b.routeResult
  else if o = 0x18 then
    packBits [(0, 1, flag (b.boot.en.fabric && decide (b.unlockedRouters = 0))), (8, 7, fieldSite b.wafer.kinds 0), (16, 8, b.fab.spread),
      (24, 8, if b.boot.en.fabric then b.unlockedRouters else 0)]
  else if 0x100 ≤ o ∧ o < 0x140 then (b.stepSt ((o - 0x100) / 4)).token
  else if 0x1000 ≤ o ∧ o < 0x1680 ∧ o % 16 = 12 then
    let s := (o - 0x1000) / 16
    packBits [(0, 16, toTwos 16 (b.siteSt s).offset), (16, 16, b.ageUs (b.siteSt s).lastSync)]
  else 0

/-! ### Memory, integrity, the cellar (R113, R114, R146, R169, R192, R193) -/

-- Log entry 172 (DEDUCED).
def Block.liveTier (b : Block) (o : Nat) : Nat :=
  let f := (o - 0x1000) / 0x40
  if o = 0x8 then packBits [(0, 1, flag b.tierOn), (16, 16, if b.tierOn then b.dirSize / 2048 else 0)]
  else if 0x18 ≤ o ∧ o < 0x28 then
    match b.queried with
    | some (g, n) => bitsOf (b.dirEntry g n).bits (8 * (o - 0x18)) 32
    | none => if o = 0x24 ∧ b.tier.asked = true then 0x80000000 else 0
  else if o < 0x1000 ∨ 0x2800 ≤ o then 0
  else if o % 0x40 = 0x28 then ((b.fieldDir f).filter fun e => decide (e.2.state ≠ 0)).length
  else if o % 0x40 = 0x2C then ((b.fieldDir f).filter fun e => decide (e.2.state = 4)).length
  else if o % 0x40 = 0x30 then b.sramHeld f
  else 0

/-- How many stacks are in a state. -/
def Block.stacksIn (b : Block) (x : Nat) : Nat := ((List.range 96).filter fun f => decide ((b.stack f).state = x)).length

/-- The hottest stack, ties to the lower field. -/
def Block.hottestStack (b : Block) : Nat × Nat :=
  (List.range 96).foldl (fun m f => if m.1 < (b.stack f).temp then ((b.stack f).temp, f) else m) ((b.stack 0).temp, 0)

def Block.liveDram (b : Block) (o : Nat) : Nat :=
  if o = 0x8 then packBits [(0, 1, flag b.boot.en.dram), (8, 8, b.hottestStack.1), (16, 8, b.hottestStack.2)]
  else if o = 0xC then packBits [(0, 7, b.stacksIn 1), (8, 7, b.stacksIn 2), (16, 7, b.stacksIn 3), (24, 7, b.stacksIn 4)]
  else if 0x100 ≤ o ∧ o < 0x180 ∧ o % 8 = 0 then campGuarantee b.camp.live ((o - 0x100) / 8) % 2 ^ 9
  else 0

-- Log entry 53 (DEDUCED).
def Block.liveInteg (b : Block) (o : Nat) : Nat :=
  if o = 0x8 then flag b.boot.en.integ
  else if o = 0xC then packBits [(0, 16, b.integ.storeEntries), (31, 1, flag b.integ.storeOk)]
  else if o = 0x24 then packBits [(2, 1, flag (decide (b.integ.flipErr ≠ 0))), (4, 4, b.integ.flipErr)]
  else if o = 0x64 then b.candResult 0
  else if o = 0x68 then b.candResult 1
  else 0

/-- The blocks of a controller's channels, as listed. -/
def Block.ccBlocks (b : Block) (k : Nat) : List PBlock := (b.cellar.blocks.filter fun kv => decide (kv.1 / 20480 / 16 = k)).map (·.2)

def Block.liveCellar (b : Block) (o : Nat) : Nat :=
  let k := (o - 0x1000) / 0x100
  if o = 0x8 then
    packBits [(0, 1, flag b.cellar.mounted), (1, 1, flag b.cellar.unclean), (8, 8, packBits ((List.range 8).map fun k => (k, 1, flag (decide ((b.cc k).state = 1))))),
      (16, 11, b.cellar.images.length)]
  else if o = 0xC then b.freeExtents
  else if o = 0x14 then flag (b.image? (b.fget F.imageQueryImageId)).isSome
  else if o = 0x18 then b.damageResult
  else if 0x40 ≤ o ∧ o < 0x80 then b.imageRecord ((o - 0x40) / 4)
  else if o < 0x1000 ∨ 0x1800 ≤ o then 0
  else match o % 0x100 with
    | 0x0 => packBits [(0, 2, (b.cc k).state), (8, 8, b.hostField k), (16, 16, (b.cc k).chans)]
    | 0x4 => packBits [(0, 8, (b.cc k).temp), (16, 1, flag (b.cc k).paused)]
    | 0x8 =>
      packBits [(0, 13, ((List.range 16).map fun j => b.poolSize (16 * k + j)).foldl min 4096),
        (16, 16, ((b.ccBlocks k).filter fun x => decide (x.use = 3)).length)]
    | 0xC => packBits [(0, 16, ((b.ccBlocks k).map (·.erases)).foldl max 0), (16, 16, sumOf ((b.ccBlocks k).map (·.erases)) / (16 * 20480))]
    | 0x24 =>
      packBits [(0, 16, satTo 16 (b.ccQueued k).length),
        (16, 16, satTo 16 (b.cellar.relocs.filter fun r => decide (r.chan / 16 = k) && decide (r.target = 0)).length)]
    | _ => 0

/-! ### Cores, arrays, pages, sampling, serving (R230, R231, R250, R278, R279, R299, R323, R347, R371) -/

/-- The cores of a field that run a JOB or a kernel: from its start until it leaves (R231). -/
def Block.busyCores (b : Block) (f : Nat) : Nat :=
  let js := b.tc.jobs.filter fun j => decide (2 ≤ j.phase) && !(j.kernel && b.kernelOver j)
  ((List.range 288).filter fun c => js.any fun j => j.names f c).length

def Block.wideCores (b : Block) (f : Nat) : Nat := ((List.range 288).filter fun c => b.holds f (wideAsker c)).length

-- Log entry 174 (DEDUCED).
def Block.liveCores (b : Block) (o : Nat) : Nat :=
  if o = 0x4 then packBits [(0, 1, flag b.boot.en.service), (8, 9, b.jobsRunning)]
  else if o = 0x4004 then flag b.boot.en.service
  else if 0x1000 ≤ o ∧ o < 0x1C00 ∧ o % 0x20 = 0 then
    packBits [(0, 9, b.busyCores ((o - 0x1000) / 0x20)), (16, 9, b.wideCores ((o - 0x1000) / 0x20))]
  else 0

/-- The arrays held on the wafer. -/
def Block.heldArrays (b : Block) : Nat :=
  sumOf ((List.range 96).map fun f => ((List.range 12).filter fun n => b.arrHolder f n ≠ 0).length)

/-- The page of the query, where it has no error: its PTE, its field and its record. -/
def Block.queriedPage (b : Block) : Option (Nat × Nat × Option PageEnt) :=
  match b.slotModel (b.fget F.pageQuery0Slot) with
  | some m =>
    if b.pageErr = 0 then
      let f := m.pageField (b.fget F.pageQuery0Pair) (b.fget F.pageQuery1Page)
      let v := b.pte (b.fget F.pageQuery0Slot) (b.fget F.pageQuery0Pair) (b.fget F.pageQuery1Page)
      some (b.pteShown f v, f, if pteStands v then b.pageAt f (pteFrame v) else none)
    else none
  | none => none

/-- A field's pages that a test selects. -/
def Block.countPages (b : Block) (f : Nat) (t : PageEnt → Bool) : Nat :=
  (b.page.pages.filter fun kv => decide (kv.1 / 2 ^ 20 = f) && match kv.2 with
    | some p => t p
    | none => false).length

-- Log entry 173 (DEDUCED).
def Block.livePages (b : Block) (o : Nat) : Nat :=
  let f := (o - 0x1000) / 0x40
  if o = 0x10 then packBits [(0, 1, flag b.boot.en.service), (8, 24, b.page.index.length)]
  else if o = 0x1C then (b.queriedPage.map (·.1)).getD 0
  else if o = 0x20 then
    match b.queriedPage with
    | some (_, g, p) => packBits [(0, 8, g), (16, 16, satTo 16 ((p.map (·.refcnt)).getD 0))]
    | none => 0
  else if o = 0x24 then packBits [(0, 16, ((b.queriedPage.bind (·.2.2)).map (·.holes)).getD 0), (28, 3, b.pageErr)]
  else if o < 0x1000 ∨ 0x2800 ≤ o then 0
  else match o % 0x40 with
    | 0x0 => (b.fieldPool f).1 % 2 ^ 20
    | 0x4 => (b.fieldPool f).2 % 2 ^ 20
    | 0x8 => b.countPages f fun p => p.kind == 5
    | 0xC => b.countPages f fun p => decide (1 < p.refcnt)
    | 0x10 =>
      let size := (b.serve.models.map Model.trayBytes).foldl max 0
      packBits [(0, 16, (b.fieldTrays f).length), (16, 16, if size = 0 then 0 else satTo 16 (b.trayRoom f / size))]
    | _ => 0

def Block.liveSampling (b : Block) (o : Nat) : Nat :=
  if o = 0x4 then flag b.boot.en.service
  else if o = 0x18 then b.rngOut
  else if o = 0x1C then b.rngGumbel
  else 0

-- Log entry 176 (DEDUCED).
/-- SLOT_RESULT0 to SLOT_RESULT4 of the queried slot. -/
def Block.slotResult (b : Block) (i : Nat) : Nat :=
  match b.slot? (b.fget F.slotQuerySlot) with
  | none => 0
  | some s => match i with
    | 0 => packBits [(0, 3, s.state), (4, 2, ((b.request? s.camp s.seq).map (·.cls)).getD 0), (8, 4, s.camp), (12, 1, flag s.skip)]
    | 1 => s.seq
    | 2 => s.t % 2 ^ 24
    | 3 => s.gen % 2 ^ 24
    | _ => packBits [(0, 16, satTo 16 s.deferred), (16, 8, satTo 8 s.preempts)]

-- Log entry 174 (DEDUCED).
def Block.liveServing (b : Block) (o : Nat) : Nat :=
  if o = 0x4 then packBits [(0, 1, flag (b.boot.en.service && b.boot.fwRunning)), (8, 17, b.serve.slots.length)]
  else if 0x14 ≤ o ∧ o < 0x28 then b.slotResult ((o - 0x14) / 4)
  else if 0x100 ≤ o ∧ o < 0x500 then b.servingWord ((o - 0x100) / 0x40) ((o - 0x100) % 0x40 / 4)
  else if 0x800 ≤ o ∧ o < 0xA00 then b.phaseWord ((o - 0x800) / 0x20) ((o - 0x800) % 0x20 / 4)
  else 0

/-! ### Rings, host link, domain, module (R435, R436, R398, R466, R467, R519) -/

def Block.liveRing (b : Block) (o : Nat) : Nat :=
  let s := b.ringSt ((o - 0x10000) / 0x40)
  if o = 0 then (b.ring.rings.filter fun kv => kv.2.enabled).length % 2 ^ 13
  else if o < 0x10000 ∨ 0x50000 ≤ o then 0
  else if o % 0x40 = 0x1C then packBits [(0, 16, s.head), (16, 16, s.tail)]
  else if o % 0x40 = 0x20 then
    packBits [(0, 1, flag s.enabled), (1, 1, flag s.stopped), (2, 1, flag s.phase), (3, 1, flag s.full), (4, 4, s.cfgErr)]
  else 0

/-- PORT_STATUS of a host port. -/
def Block.portStatus (b : Block) (p : Nat) : Nat :=
  let x := b.portSt p
  packBits [(0, 1, flag x.up), (1, 1, flag x.flit), (4, 3, x.speed), (8, 6, x.width), (16, 5, x.ltssm), (24, 4, if x.vfEnable then x.numVfs else 0),
    (28, 4, ((List.range 8).filter fun i => (b.ideSt p i).state == 1).length)]

/-- FN_STATUS. -/
def Block.fnStatus (b : Block) (fn : Nat) : Nat :=
  packBits [(0, 1, flag (b.fnMapped fn)), (1, 1, flag (b.fnExists fn)), (4, 4, b.fnCamp fn), (8, 1, flag (b.fnSt fn).bme), (9, 1, flag (b.fnSt fn).d3),
    (10, 1, flag (b.fnFlrCamp fn)), (11, 1, flag (b.fnSt fn).campResetting)]

-- Log entry 174 (DEDUCED).
def Block.liveHost (b : Block) (o : Nat) : Nat :=
  if o = 0x4 then packBits ((List.range 4).map fun p => (p, 1, flag (b.portSt p).up))
  else if 0x100 ≤ o ∧ o < 0x200 ∧ o % 0x40 = 0 then b.portStatus ((o - 0x100) / 0x40)
  else if 0x1000 ≤ o ∧ o < 0x1400 ∧ o % 0x10 = 0 then b.fnStatus ((o - 0x1000) / 0x10)
  else 0

-- Log entry 133 (DEDUCED).
/-- PORT_STATE of a Yilgil port. -/
def Block.ygPortState (b : Block) (p : Nat) : Nat :=
  let x := b.port p
  packBits [(0, 3, x.state),
    (4, 5, if x.state = 3 then packBits ((List.range 4).map fun k => (x.carrier k, 1, 1)) else 0),
    (9, 3, x.spareFor), (12, 3, bundleOf p), (16, 8, x.peer), (24, 5, x.peerPort)]

/-- The ports of a bundle that are UP. -/
def Block.bundleUp (b : Block) (k : Nat) : Nat := ((List.range 4).filter fun i => decide ((b.port (4 * k + i)).state = 3)).length

def Block.liveDomain (b : Block) (o : Nat) : Nat :=
  let d := b.yg.domain
  let p := (o - 0x1000) / 0x40
  if o = 0xC then
    packBits [(0, 1, flag b.boot.en.yilgil), (1, 1, flag d.locked), (2, 1, flag b.domainBad), (8, 8, b.moduleId), (16, 8, d.root),
      (24, 5, sumOf ((List.range 6).map b.bundleUp))]
  else if o = 0x10 then bitsOf (toTwos 64 d.offset) 0 32
  else if o = 0x14 then bitsOf (toTwos 64 d.offset) 32 32
  else if o = 0x18 then bitsOf b.domainTime 0 32
  else if o = 0x1C then bitsOf b.domainTime 32 32
  else if o = 0x20 then packBits [(0, 16, toTwos 16 d.skew), (16, 16, if d.joined then b.ageUs d.lastMsg else 0)]
  else if o = 0x24 then packBits ((List.range 6).map fun k => (3 * k, 3, b.bundleUp k))
  else if o < 0x1000 ∨ 0x1600 ≤ o then 0
  else match o % 0x40 with
    | 0x0 => b.ygPortState p
    | 0x4 => packBits [(0, 16, (b.port p).delay), (16, 16, if (b.port p).state = 4 then satTo 16 (((b.port p).retryAt - b.fab.time) / 1000000) else 0)]
    | 0x8 => (b.port p).eye
    | _ => 0

/-- FIELD_THERM of a field, without its peak. -/
def Block.fieldTherm (b : Block) (f : Nat) : Nat :=
  packBits [(0, 8, sget (fun _ => 0) b.modu.logicC f), (16, 12, sget (fun _ => 0) b.modu.vcoreMv f), (31, 1, flag (bitAt b.modu.stages f))]

-- Log entry 174 (DEDUCED).
def Block.liveModule (b : Block) (o : Nat) : Nat :=
  let m := b.modu
  if o = 0x0 then packBits [(0, 16, m.vinMv), (16, 16, m.iinDa)]
  else if o = 0x4 then packBits [(0, 16, m.pinW), (16, 16, m.auxW)]
  else if o = 0xC then
    packBits [(0, 1, flag m.pwrGood), (1, 1, flag (decide (46000 ≤ m.vinMv))), (2, 1, flag m.auxOk), (8, 8, popcount 96 m.stages), (16, 1, flag m.shunt)]
  else if o = 0x14 then packBits [(0, 8, m.hottest.1), (8, 8, m.hottest.2), (16, 7, m.logicPct)]
  else if o = 0x18 then packBits [(0, 8, m.inletC), (8, 8, m.outletC), (16, 16, m.flowDlpm)]
  else if o = 0x1C then
    packBits [(0, 4, m.perst), (4, 1, flag m.force), (5, 1, flag m.trip), (6, 1, flag m.pwrGood), (7, 1, flag b.boot.alert),
      (16, 16, if m.force then satTo 16 b.forceSeconds else 0)]
  else if 0x100 ≤ o ∧ o < 0x280 then b.fieldTherm ((o - 0x100) / 4)
  else 0

/-! ### Field windows (R34, R86, R147, R148, R170, R251, R324, R549) -/

/-- The status sub-block (R34); the counts and masks of a field in RESET or TESTING read 0 (R30). -/
def Block.liveField (b : Block) (f o : Nat) : Nat :=
  let x := b.fieldSt f
  if o = 0x0 then packBits [(0, 8, f), (8, 7, fieldSite b.wafer.kinds f), (24, 3, x.state)]
  else if o = 0x4 then packBits [(0, 9, x.shown (popcount 288 x.cores)), (16, 12, x.shown x.arrays)]
  else if o = 0x8 then
    packBits [(0, 2, x.shown x.lanterns), (2, 6, x.shown x.units), (16, 8, x.shown x.sparesUsed)]
  else if o = 0xC then x.shown x.banks % 2 ^ 24
  else if o = 0x10 then x.shown x.chans % 2 ^ 32
  else if o = 0x14 then x.shown x.granules % 2 ^ 21
  else if o = 0x18 then x.statusGen % 2 ^ 16
  else if 0x20 ≤ o ∧ o < 0x44 then bitsOf (x.shown x.cores) (8 * (o - 0x20)) 32
  else 0

/-- The rations of a class in force at a desk: its grants, and what its waiting requests have been handed (R66). -/
def Desk.classLevel (d : Desk) (c : Nat) : Nat :=
  sumGrants (d.grants.filter fun g => g.cls == c) + sumOf ((d.queue.filter fun q => q.cls == c).map fun q => min q.amount q.handed)

def Block.liveDesk (b : Block) (f o : Nat) : Nat :=
  let d := b.desk f
  if o = 0x4 then d.floor
  else if o = 0x8 then packBits [(0, 11, d.level), (16, 11, b.effCeiling f)]
  else if o = 0xC then
    packBits [(0, 8, satTo 8 d.queue.length), (8, 5, satTo 5 (d.up.length + d.down.length + d.matchUp.length + d.matchDown.length)), (16, 1, flag (b.deskOver f)),
      (17, 1, flag (decide (d.taper + d.caught ≠ 0))), (18, 1, flag (b.deskRamps f))]
  else if o = 0x10 then packBits [(0, 11, d.classLevel 0), (16, 11, d.classLevel 1)]
  else if o = 0x14 then packBits [(0, 11, d.classLevel 2), (16, 11, d.taper)]
  else if o = 0x18 then d.ballast % 2 ^ 10
  else 0

def Block.liveStack (b : Block) (f o : Nat) : Nat :=
  let s := b.stack f
  if o = 0x0 then packBits [(0, 3, s.state), (8, 8, s.temp), (24, 2, s.cause)]
  else if o = 0xC then satTo 16 s.graceUs
  else if o = 0x14 then packBits [(0, 24, (b.test f).errors), (31, 1, flag (b.test f).scanDone)]
  else if o = 0x1C then packBits [(0, 4, (b.test f).rowsLeft), (30, 1, flag (b.test f).err), (31, 1, flag (b.test f).done)]
  else if o < 0x100 ∨ 0x900 ≤ o then 0
  else
    let n := (o - 0x100) / 0x40
    let c := b.chan f n
    if o % 0x40 = 0 then
      packBits [(0, 2, if c.state = 1 ∧ b.fab.time < c.quiet then 2 else c.state), (2, 1, flag (b.bursting f (n / 8))), (3, 3, c.spared.length), (8, 4, c.owed)]
    else if o % 0x40 = 4 then packBits ((List.range 4).map fun i => (8 * i, 8, c.spared.getD i 0xFF))
    else 0

def Block.liveSram (b : Block) (f o : Nat) : Nat :=
  if o = 0x8 then
    packBits [(0, 1, flag b.boot.en.sram), (8, 5, ((List.range 24).filter fun k => b.bankReady f k && decide (b.bankMode f k = 1)).length)]
  else 0

-- Log entry 174 (DEDUCED).
/-- The elements that wait at a field's DMA engine: those in slots that wait for their grant, those that wait for a slot, and moves that have
not started. -/
def Block.dmaQueued (b : Block) (f : Nat) : Nat :=
  let isMove (w : SlotWork) : Bool := match w with | .move _ => true | _ => false
  ((List.range 32).filter fun i => match b.slotUse f i with | some u => !isMove u.work && b.waits f (dmaSlot i) | none => false).length +
  (b.host.slotQueue.filter fun x => x.1 == f && !isMove x.2.work).length + (b.tier.moves.filter fun m => m.field == f && !m.running).length

-- Log entry 174 (DEDUCED).
def Block.liveDma (b : Block) (f o : Nat) : Nat :=
  if o = 0 then packBits [(0, 16, satTo 16 (b.dmaQueued f)), (16, 6, ((List.range 32).filter fun i => b.covers f (dmaSlot i) 8).length)] else 0

/-- The words of array n of a field (R251). -/
def Block.liveArray (b : Block) (f n o : Nat) : Nat :=
  match o with
  | 0x0 => bitsOf (b.arrStatus f n) 0 32
  | 0x4 => bitsOf (b.arrStatus f n) 32 32
  | 0x8 =>
    let gs := (b.desk f).grants.filter fun g => decide (g.who.unit = 0x140 + n)
    packBits [(0, 4, b.arrCamp f n), (4, 2, b.arrHolder f n), (6, 1, flag (gs.any (·.standing))), (8, 6, sumOf (gs.map (·.amount)))]
  | _ => 0

def Block.liveWeeder (b : Block) (f o : Nat) : Nat :=
  let x := b.integField f
  if o = 0x30 then (b.weeder f 0).lapMs % 2 ^ 32
  else if o = 0x34 then (b.weeder f 1).lapMs % 2 ^ 32
  else if o = 0x38 then (b.weeder f 2).lapMs % 2 ^ 32
  else if o = 0x40 then packBits [(0, 6, x.cands.length), (16, 7, min 64 x.soft.length)]
  else if o = 0x44 then packBits [(0, 9, x.poisonList.length), (31, 1, flag x.poisonFull)]
  else 0

/-- The shard rows queued at a field's sampling unit. -/
def Block.suQueued (b : Block) (f : Nat) : Nat := (b.samp.rows.filter fun x => x.queued.contains f).length

def Block.liveWindow (b : Block) (f o : Nat) : Nat :=
  match o / 0x10000 with
  | 0 => b.liveField f o
  | 1 => b.liveDesk f (o % 0x10000)
  | 2 => b.liveStack f (o % 0x10000)
  | 3 => b.liveSram f (o % 0x10000)
  | 4 => b.liveDma f (o % 0x10000)
  | 5 => if o % 0x10000 < 0xC0 then b.liveArray f (o % 0x10000 / 0x10) (o % 0x10) else 0
  | 6 => if o % 0x10000 = 0 then packBits [(0, 16, satTo 16 (b.suQueued f)), (16, 14, b.rowBuffer / 1024)] else 0
  | _ => b.liveWeeder f (o % 0x10000)

/-! ### The whole map -/

/-- The control page of BAR4 (R550). -/
def Block.liveDebug (b : Block) (o : Nat) : Nat :=
  if o = 0x8 then 2 * flag (decide (b.fget F.dbgCaptureKind ≠ 0))
  else if o = 0x10 then b.dbg.next
  else 0

/-- What the read-only fields of the word at an offset read; 0 where it has none. -/
def Block.live (b : Block) (off : Nat) : Nat :=
  if off < 0x100000 then b.liveIdentity off
  else if off < 0x200000 then b.liveBoot (off - 0x100000)
  else if off < 0x300000 then b.liveConsent (off - 0x200000)
  else if off < 0x400000 then b.liveRation (off - 0x300000)
  else if off < 0x500000 then b.liveFabric (off - 0x400000)
  else if off < 0x600000 then b.liveTier (off - 0x500000)
  else if off < 0x700000 then b.liveDram (off - 0x600000)
  else if off < 0x800000 then b.liveInteg (off - 0x700000)
  else if off < 0x900000 then b.liveCellar (off - 0x800000)
  else if off < 0x980000 then b.liveCores (off - 0x900000)
  else if off < 0xA00000 then
    (if off = 0x980004 then packBits [(0, 1, flag b.boot.en.service), (16, 11, b.heldArrays)] else 0)
  else if off < 0xB00000 then b.livePages (off - 0xA00000)
  else if off < 0xC00000 then b.liveSampling (off - 0xB00000)
  else if off < 0xD00000 then b.liveServing (off - 0xC00000)
  else if off < 0xD80000 then b.liveRing (off - 0xD00000)
  else if off < 0xDC0000 then b.liveHost (off - 0xD80000)
  else if off < 0xE00000 then 0
  else if off < 0xF00000 then b.liveDomain (off - 0xE00000)
  else if off < 0x1000000 then b.liveModule (off - 0xF00000)
  else if off < 0x4000000 then b.liveWindow ((off - 0x1000000) / 0x80000) ((off - 0x1000000) % 0x80000)
  else if 0x4FFFF000 ≤ off ∧ off < 0x50000000 then b.liveDebug (off - 0x4FFFF000)
  else 0

/-- Is it one of the four words of a HOLE site (R59)? -/
def Block.holeWord (b : Block) (off : Nat) : Bool :=
  decide (0x401000 ≤ off) && decide (off < 0x401680) && decide (siteKind b.wafer.kinds ((off - 0x401000) / 16) = 3)

/-- What a word reads to a function that may read it: its own copy of a function-local word, WAFER_TIME at the router of the function's host
port (R58), else the bank and what is live. -/
def Block.readWord (b : Block) (fn off : Nat) : Nat :=
  if isLocal off then b.readLocal fn off
  else if off = 0x400010 ∨ off = 0x400014 then bitsOf (b.routerTime (edgeSite (24 + fn / 16))) (8 * (off - 0x400010)) 32
  else if b.holeWord off then 0
  else ((regWord b.regs off).toNat ||| b.live off) % 2 ^ 32

end Sys2Proof.Machine
end

