-- ==== Sys2Proof/Machine/RegWrite.lean ====
section
/-! DEFINITION. BAR0 and BAR4 as functions reach them: reads of up to 8 bytes (R2, R3, R545), writes of whole words (R2, R4, R7, R545),
refusals (R380, R382), and what a written register does. -/
namespace Sys2Proof.Machine

/-! ### Reads -/

/-- The high word that a function has latched for the 64-bit register whose low word is at `off`. -/
def Block.latched (b : Block) (fn off : Nat) : Option W32 := sget (fun _ => none) b.latch (latchKey fn off)

/-- Latch the high word of a 64-bit register for a function (R3). -/
def Block.latchHigh (b : Block) (fn off : Nat) : Block :=
  { b with latch := sset (fun _ => none) b.latch (latchKey fn off) (some (BitVec.ofNat 32 (b.readWord fn (off + 4)))) }

-- Log entry 19 (DESIGN CHOICE).
/-- One word read by a function that may read it: the low word of a 64-bit register latches the high one; the high word is the latched one
where there is one (R3). -/
def Block.readOne (b : Block) (fn off : Nat) : Nat × Block :=
  if wideRegs.contains off then (b.readWord fn off, b.latchHigh fn off)
  else if wideRegs.contains (off - 4) then
    match b.latched fn (off - 4) with
    | some w => (w.toNat, b)
    | none => (b.readWord fn off, b)
  else (b.readWord fn off, b)

-- Log entry 19 (DESIGN CHOICE).
/-- The words that a read of at most 8 bytes within an aligned 8 touches, in turn, and its bytes (R2). -/
def readSpan (one : Nat → Block → Nat × Block) (off len : Nat) (b : Block) : Nat × Block :=
  let first := off / 4 * 4
  let r := one first b
  if off % 4 + len ≤ 4 then (bitsOf r.1 (8 * (off % 4)) (8 * len), r.2)
  else
    let q := one (first + 4) r.2
    (bitsOf (r.1 + 2 ^ 32 * q.1) (8 * (off % 4)) (8 * len), q.2)

/-- One word of BAR0 read: a refused read gives 0 and is counted (R380). -/
def Block.barRead (fn off : Nat) (b : Block) : Nat × Block :=
  if b.mayRead fn off then b.readOne fn off else (0, b.bump F.deniedReads)

-- Log entries 15 (DEDUCED), 19 (DESIGN CHOICE).
/-- LOW_WORD_READ: a function reads `len` bytes of BAR0 at an offset; a read that crosses an aligned 8-byte boundary receives Completer
Abort (R2, R545). -/
def lowWordReadEff (fn off len : Nat) (b : Block) : Block :=
  b.tlp fn fun b =>
    if inEight off len then
      let r := readSpan (fun o b => Block.barRead fn o b) off len b
      r.2.send (.readData fn off r.1)
    else b.send (.tlpStatus fn 2)

/-! ### Writes -/

-- Log entry 20 (DEDUCED).
/-- A word of BAR0 without a command of its own is written; some words have effects beyond their fields: WAFER_CAP changes the throttle
(R79), FAULT_INFO clears the whole fault log (R230), MAX_ENTRIES_K trims the index (R9). -/
def Block.plainWrite (b : Block) (off : Nat) (v : W32) : Block :=
  let b1 := b.writeWord off v
  if off = 0x300000 then b1.throttleEvent b
  else if off = 0x900040 then [0x900044, 0x900048, 0x90004C, 0x900050].foldl (fun b o => b.writeWord o v) b1
  else if off = 0xA0000C then b1.trimIndex b1.indexMax b1.page.index.length
  else b1

/-- CONSENT_CTRL.OP (R491): the operation is taken and OP reads 0. -/
def consentCtrl (fn op : Nat) (b : Block) : Block :=
  match op with
  | 1 => consentCopyEff false fn b
  | 2 => proposeEff false fn b
  | 3 => countersignEff false fn [] b
  | 4 => consentAbortEff false fn b
  | _ => b.barWrite fn 0x200000 fun b => b

/-- A function-local word: a vector that loses its mask with a pending bit sends its message (R389). -/
def localWrite (fn off : Nat) (v : W32) (b : Block) : Block :=
  b.barWrite fn off fun b =>
    if off < 0xDC8000 ∧ off % 16 = 12 ∧ v.getLsbD 0 = false then msixUnmaskEff fn ((off - 0xDC0000) / 16) b else b.writeLocal fn off v

-- Log entry 18 (DEDUCED).
/-- A write of one aligned word of BAR0 by a function, with what the register does. BOOT_CTRL has a command of its own, which brings the
length of the hold. -/
def Block.regWrite (fn off : Nat) (v : W32) (b : Block) : Block :=
  let n := v.toNat
  let f := (off - 0x1000000) / 0x80000
  if isLocal off then localWrite fn off v b
  else if off = 0x100000 then resetCtrlEff fn n b
  else if off = 0x100008 then b.barWrite fn off fun b => b
  else if off = 0x200000 then consentCtrl fn (n % 8) b
  else if off = 0x200080 then campResetCmdEff fn n b
  else if 0x203000 ≤ off ∧ off < 0x203000 + imageLen then writeStageEff false fn (off - 0x203000) (bytesOfNat 4 n) b
  else if off = 0x700024 then flipArmEff fn n b
  else if 0xD10000 ≤ off ∧ off < 0xD50000 ∧ off % 0x40 = 0xC then
    (if bitAt n 0 then ringEnableEff fn ((off - 0xD10000) / 0x40) n b else ringDisableEff fn ((off - 0xD10000) / 0x40) n b)
  else if 0x1000000 ≤ off ∧ off % 0x80000 = 0x20010 then marginScanEff fn f n b
  else if 0x1000000 ≤ off ∧ off % 0x80000 = 0x20018 then (if bitAt n 24 then softRowRepairEff fn f n b else repairQueryEff fn f n b)
  else if wideWritable.contains off then b.barWrite fn off fun b => b.stageLow fn off v
  else if wideWritable.contains (off - 4) then b.barWrite fn off fun b => b.applyHigh fn (off - 4) v
  else b.barWrite fn off fun b => b.plainWrite off v

-- Log entry 17 (DEDUCED).
/-- The enabled bytes of a TLP within its aligned 8 bytes. -/
def byteLanes (off len be : Nat) : Nat := (be % 2 ^ len) <<< (off % 8)

-- Log entry 17 (DEDUCED).
/-- Does a TLP cover every byte of every word that it touches (R2)? -/
def wholeWords (lanes : Nat) : Bool := [0, 15].contains (lanes % 16) && [0, 15].contains (lanes / 16 % 16)

-- Log entries 15 (DEDUCED), 17 (DEDUCED).
/-- REGISTER_WRITE: a write TLP of `len` bytes at an offset of BAR0 with byte enables `be` (bit i: byte i of the TLP). Partial, long and
crossing writes are dropped and counted (R2, R545); otherwise each word is written in turn, the lower first. -/
def registerWriteEff (fn off len be data : Nat) (b : Block) : Block :=
  b.tlp fn fun b =>
    let lanes := byteLanes off len be
    let base := off / 8 * 8
    let word (i : Nat) : W32 := BitVec.ofNat 32 (bitsOf (data <<< (8 * (off % 8))) (32 * i) 32)
    if (inEight off len && wholeWords lanes) = false then b.bump F.partialWrites
    else
      let b1 := if lanes % 16 = 15 then Block.regWrite fn base (word 0) b else b
      if lanes / 16 % 16 = 15 then Block.regWrite fn (base + 4) (word 1) b1 else b1

/-- The low word of a writable 64-bit register is held in staging (R4). -/
def lowWordWriteEff (fn off value : Nat) (b : Block) : Block :=
  if wideWritable.contains off = false then b
  else if off < bar4 then b.barWrite fn off fun b => b.stageLow fn off (BitVec.ofNat 32 value)
  else b.bar4Access fn (off - bar4) true fun b => b.stageLow fn off (BitVec.ofNat 32 value)

/-- The high word of a writable 64-bit register is applied with the staged low word, or with the low word as it stands (R4). -/
def highWordWriteEff (fn off value : Nat) (b : Block) : Block :=
  if wideWritable.contains (off - 4) = false then b
  else if off < bar4 then b.barWrite fn off fun b => b.applyHigh fn (off - 4) (BitVec.ofNat 32 value)
  else b.bar4Access fn (off - bar4) true fun b => b.applyHigh fn (off - 4) (BitVec.ofNat 32 value)

/-! ### BAR4 -/

/-- A word of the control page is written (R550). -/
def Block.pageWrite (fn off : Nat) (v : W32) (b : Block) : Block :=
  if off = 0x4FFFF000 then b.stageLow fn off v
  else if off = 0x4FFFF004 then b.applyHigh fn 0x4FFFF000 v
  else if off = 0x4FFFF00C then { b.writeWord off v with dbg := { b.dbg with next := 0 } }
  else b.writeWord off v

-- Log entry 21 (DEDUCED).
/-- An access of the control page. -/
def Block.pageAccess (b : Block) (fn off len : Nat) (write : Bool) (data : Nat) : Block :=
  if inEight off len = false then (if write then b else b.send (.tlpStatus fn 2))
  else if write = false then
    let r := readSpan (fun o b => b.readOne fn o) (bar4 + off) len b
    r.2.send (.readData fn (bar4 + off) r.1)
  else if off % 4 ≠ 0 ∨ len % 4 ≠ 0 then b
  else
    let b1 := Block.pageWrite fn (bar4 + off) (BitVec.ofNat 32 data) b
    if len = 8 then Block.pageWrite fn (bar4 + off + 4) (BitVec.ofNat 32 (data / 2 ^ 32)) b1 else b1

-- Log entry 22 (DEDUCED).
/-- DBG_WINDOW_ACCESS: a function reads or writes `len` bytes of BAR4 (R546): the window, the capture buffer, or the control page. -/
def dbgWindowAccessEff (fn off len : Nat) (write : Bool) (data : Nat) (b : Block) : Block :=
  b.bar4Access fn off write fun b =>
    if off < 0x8000000 then b.windowAccess fn off len write data
    else if off < 0x9000000 then (if write then b else b.captureRead fn off len)
    else if 0xFFFF000 ≤ off then b.pageAccess fn off len write data
    else if write then b
    else b.send (.readData fn (bar4 + off) 0)

end Sys2Proof.Machine
end

