-- ==== Sys2Proof/Machine/Time.lean ====
section
/-! DEFINITION. RATION_TICK: one µs of WAFER_TIME (R50, R63), and what the rest of the wafer does in it. -/
namespace Sys2Proof.Machine

-- Log entry 9 (DESIGN CHOICE).
/-- What a field counts in a µs: time in SIMMER (R147), its threads' stalls at SETVL (R231), an element waiting for its grant (R549). -/
def Block.tickField (b : Block) (f : Nat) : Block :=
  let b1 := if (b.stack f).state = 2 then b.bump (F.simmerUs f) else b
  let stalls := (b.tc.threads.filter fun kv => decide (keyField kv.1 = f) && kv.2.wait.isWide).length
  let b2 := if stalls = 0 then b1 else b1.count (F.wideStallUs f) stalls
  if (b.desk f).queue.any fun r => r.who.unit == 0x211 then b2.bump (F.dmaRationWaitUs f) else b2

-- Log entry 9 (DESIGN CHOICE).
/-- What happens once a ms: the firmware's heartbeat (R542) and the throttled time (R510). -/
def Block.tickMs (b : Block) : Block :=
  let b1 : Block := if b.boot.fwRunning then { b with boot := { b.boot with heartbeat := b.boot.heartbeat + 1 } } else b
  if b.modu.logicPct < 100 then b1.bump F.throttleMs else b1

-- Log entry 9 (DESIGN CHOICE).
/-- A camp whose plan increase has settled starts the step that waited for it, and completes its PHASE (R336, R353). -/
def Block.tickCamp (b : Block) (c : Nat) : Block :=
  if (b.rat.plans.any fun x => x.1 == c) || b.trayCopies c then b
  else (if (b.phaseSt c).ramping then b.openStep c else b).finishPhase c

-- Log entries 9 (DESIGN CHOICE), 163 (DEDUCED).
/-- RATION_TICK. -/
def rationTickEff (b : Block) : Block :=
  if b.boot.en.fabric = false then b
  else
    let b1 := (b.refill.rationTickDesks.runKernels.tickWaits b.tier.waits).lateSteps b.tier.waits
    let b2 := (b1.payAllGranted.runUnits).tickParts
    let b3 := b2.tickArrays b2.arr
    let b4 := (List.range 96).foldl (fun b f => b.tickField f) b3
    let b5 := if b4.fab.time / 1000000 ≠ b.fab.time / 1000000 then b4.tickMs else b4
    ((List.range 16).foldl (fun b c => b.tickCamp c) b5).rampedOff

end Sys2Proof.Machine
end

