-- ==== Sys2Proof/Machine/Meanings.lean ====
section
/-! DEFINITION. The meaning of every command: its effect on the block, the queue untouched. -/
namespace Sys2Proof.Machine

-- Log entry 7 (DESIGN CHOICE).
/-- Run an effect on the block; the queue stays as it is. -/
def onBlock (s : State) (f : Block → Block) : Host.Outcome State Fault Refusal := .next { s with blk := f s.blk }

/-- REGISTER_WRITE (R7). -/
def execRegisterWrite (fn : Nat) (off : Nat) (len : Nat) (be : Nat) (data : Nat) (s : State) : Host.Outcome State Fault Refusal :=
  onBlock s (registerWriteEff fn off len be data)

/-- LOW_WORD_READ (R3). -/
def execLowWordRead (fn : Nat) (off : Nat) (len : Nat) (s : State) : Host.Outcome State Fault Refusal :=
  onBlock s (lowWordReadEff fn off len)

/-- HIGH_WORD_WRITE (R4). -/
def execHighWordWrite (fn : Nat) (off : Nat) (value : Nat) (s : State) : Host.Outcome State Fault Refusal :=
  onBlock s (highWordWriteEff fn off value)

/-- LOW_WORD_WRITE (R4). -/
def execLowWordWrite (fn : Nat) (off : Nat) (value : Nat) (s : State) : Host.Outcome State Fault Refusal :=
  onBlock s (lowWordWriteEff fn off value)

/-- FLIT_RECEIVE (R38). -/
def execFlitReceive (site : Nat) (port : Nat) (cls : Nat) (leg : Nat) (err : Nat) (flit : Nat) (room : Bool) (s : State) : Host.Outcome State Fault Refusal :=
  onBlock s (flitReceiveEff site port cls leg err flit room)

/-- ROUTE_QUERY (R58). -/
def execRouteQuery (fn : Nat) (value : Nat) (s : State) : Host.Outcome State Fault Refusal :=
  onBlock s (routeQueryEff fn value)

/-- TIME_SYNC (R50). -/
def execTimeSync (offsets : List (Nat × Int)) (s : State) : Host.Outcome State Fault Refusal :=
  onBlock s (timeSyncEff offsets)

/-- TIME_UNLOCKED (R51). -/
def execTimeUnlocked (site : Nat) (s : State) : Host.Outcome State Fault Refusal :=
  onBlock s (timeUnlockedEff site)

/-- LINK_HEARTBEAT (R54). -/
def execLinkHeartbeat (site : Nat) (port : Nat) (acked : Bool) (s : State) : Host.Outcome State Fault Refusal :=
  onBlock s (linkHeartbeatEff site port acked)

/-- FABRIC_STALL (R54). -/
def execFabricStall (site : Nat) (port : Nat) (cls : Nat) (leg : Nat) (s : State) : Host.Outcome State Fault Refusal :=
  onBlock s (fabricStallEff site port cls leg)

/-- STEP_TOKEN_RECEIVE (R52). -/
def execStepTokenReceive (c : Nat) (f : Nat) (work : StepWork) (experts : List Announcement) (s : State) : Host.Outcome State Fault Refusal :=
  onBlock s (stepTokenReceiveEff c f work experts)

/-- STEP_DONE (R52). -/
def execStepDone (c : Nat) (f : Nat) (unitsDone : Bool) (s : State) : Host.Outcome State Fault Refusal :=
  onBlock s (stepDoneEff c f unitsDone)

/-- STEP_BOUNDARY (R330). -/
def execStepBoundary (c : Nat) (plan : List (Nat × Nat × Nat × Nat × Nat)) (drops : List (Nat × Nat × Nat × Nat)) (s : State) : Host.Outcome State Fault Refusal :=
  onBlock s (stepBoundaryEff c plan drops)

/-- RATION_REQUEST (R70). -/
def execRationRequest (f : Nat) (unit : Nat) (thread : Nat) (sub : Nat) (cls : Nat) (camp : Nat) (amount : Nat) (standing : Bool) (s : State) : Host.Outcome State Fault Refusal :=
  onBlock s (rationRequestEff f unit thread sub cls camp amount standing)

/-- RATION_TICK (R63). -/
def execRationTick (s : State) : Host.Outcome State Fault Refusal :=
  onBlock s (rationTickEff)

/-- RATION_RELEASE (R66). -/
def execRationRelease (f : Nat) (unit : Nat) (thread : Nat) (sub : Nat) (s : State) : Host.Outcome State Fault Refusal :=
  onBlock s (rationReleaseEff f unit thread sub)

/-- LOAN_EXPIRY (R64). -/
def execLoanExpiry (f : Nat) (s : State) : Host.Outcome State Fault Refusal :=
  onBlock s (loanExpiryEff f)

/-- RATION_STARVED (R74). -/
def execRationStarved (f : Nat) (unit : Nat) (thread : Nat) (sub : Nat) (s : State) : Host.Outcome State Fault Refusal :=
  onBlock s (rationStarvedEff f unit thread sub)

/-- UNPLANNED_DROP (R69). -/
def execUnplannedDrop (f : Nat) (unit : Nat) (thread : Nat) (sub : Nat) (s : State) : Host.Outcome State Fault Refusal :=
  onBlock s (unplannedDropEff f unit thread sub)

/-- CAMP_IDLE_HOLD (R331). -/
def execCampIdleHold (c : Nat) (s : State) : Host.Outcome State Fault Refusal :=
  onBlock s (campIdleHoldEff c)

/-- WIDE_HOLD_EXPIRY (R209). -/
def execWideHoldExpiry (f : Nat) (core : Nat) (s : State) : Host.Outcome State Fault Refusal :=
  onBlock s (wideHoldExpiryEff f core)

/-- ARRAY_HOLD_EXPIRY (R243). -/
def execArrayHoldExpiry (f : Nat) (n : Nat) (s : State) : Host.Outcome State Fault Refusal :=
  onBlock s (arrayHoldExpiryEff f n)

/-- BURST_IDLE_EXPIRY (R123). -/
def execBurstIdleExpiry (f : Nat) (p : Nat) (s : State) : Host.Outcome State Fault Refusal :=
  onBlock s (burstIdleExpiryEff f p)

/-- MEMORY_ACCESS (R216). -/
def execMemoryAccess (id : Nat) (errs : List (Nat × Nat)) (checks : List (Nat × Nat)) (dirMiss : Bool) (s : State) : Host.Outcome State Fault Refusal :=
  onBlock s (memoryAccessEff id errs checks dirMiss)

/-- MOVE_START (R98). -/
def execMoveStart (f : Nat) (g : Nat) (dst : Nat) (slot : Nat) (s : State) : Host.Outcome State Fault Refusal :=
  onBlock s (moveStartEff f g dst slot)

/-- MOVE_SWITCH (R98). -/
def execMoveSwitch (f : Nat) (g : Nat) (hostData : Nat) (s : State) : Host.Outcome State Fault Refusal :=
  onBlock s (moveSwitchEff f g hostData)

/-- MOVE_OLD_FRAME_FREE (R98). -/
def execMoveOldFrameFree (f : Nat) (tier : Nat) (n : Nat) (s : State) : Host.Outcome State Fault Refusal :=
  onBlock s (moveOldFrameFreeEff f tier n)

/-- EXPERT_READY_REPORT (R104). -/
def execExpertReadyReport (c : Nat) (layer : Nat) (expert : Nat) (f : Nat) (s : State) : Host.Outcome State Fault Refusal :=
  onBlock s (expertReadyReportEff c layer expert f)

/-- SUBSTITUTE_DEADLINE (R104). -/
def execSubstituteDeadline (c : Nat) (layer : Nat) (expert : Nat) (s : State) : Host.Outcome State Fault Refusal :=
  onBlock s (substituteDeadlineEff c layer expert)

/-- TIER_LATE (R105). -/
def execTierLate (f : Nat) (c : Nat) (n : Nat) (step : Bool) (key : Nat) (s : State) : Host.Outcome State Fault Refusal :=
  onBlock s (tierLateEff f c n step key)

/-- HINT_MAP (R431). -/
def execHintMap (camp : Nat) (seq : Nat) (frames : List Nat) (s : State) : Host.Outcome State Fault Refusal :=
  onBlock s (hintMapEff camp seq frames)

/-- HINT_UNMAP (R94). -/
def execHintUnmap (camp : Nat) (seq : Nat) (s : State) : Host.Outcome State Fault Refusal :=
  onBlock s (hintUnmapEff camp seq)

/-- HINT_SET (R96). -/
def execHintSet (camp : Nat) (seq : Nat) (s : State) : Host.Outcome State Fault Refusal :=
  onBlock s (hintSetEff camp seq)

/-- DIR_QUERY (R113). -/
def execDirQuery (fn : Nat) (value : Nat) (s : State) : Host.Outcome State Fault Refusal :=
  onBlock s (dirQueryEff fn value)

/-- REFRESH_DUE (R121). -/
def execRefreshDue (f : Nat) (n : Nat) (s : State) : Host.Outcome State Fault Refusal :=
  onBlock s (refreshDueEff f n)

/-- STACK_THERMAL_SAMPLE (R135). -/
def execStackThermalSample (f : Nat) (temp : Nat) (queued : List Nat) (s : State) : Host.Outcome State Fault Refusal :=
  onBlock s (stackThermalSampleEff f temp queued)

/-- GRACE_END (R136). -/
def execGraceEnd (f : Nat) (s : State) : Host.Outcome State Fault Refusal :=
  onBlock s (graceEndEff f)

/-- STACK_FAULT (R137). -/
def execStackFault (f : Nat) (supply : Bool) (s : State) : Host.Outcome State Fault Refusal :=
  onBlock s (stackFaultEff f supply)

/-- MARGIN_SCAN (R141). -/
def execMarginScan (fn : Nat) (f : Nat) (value : Nat) (s : State) : Host.Outcome State Fault Refusal :=
  onBlock s (marginScanEff fn f value)

/-- MARGIN_SCAN_DONE (R147). -/
def execMarginScanDone (f : Nat) (errors : Nat) (s : State) : Host.Outcome State Fault Refusal :=
  onBlock s (marginScanDoneEff f errors)

/-- REPAIR_QUERY (R141). -/
def execRepairQuery (fn : Nat) (f : Nat) (value : Nat) (s : State) : Host.Outcome State Fault Refusal :=
  onBlock s (repairQueryEff fn f value)

/-- SOFT_ROW_REPAIR (R141). -/
def execSoftRowRepair (fn : Nat) (f : Nat) (value : Nat) (s : State) : Host.Outcome State Fault Refusal :=
  onBlock s (softRowRepairEff fn f value)

/-- ZERO_FILL_DONE (R155). -/
def execZeroFillDone (f : Nat) (tier : Nat) (n : Nat) (s : State) : Host.Outcome State Fault Refusal :=
  onBlock s (zeroFillDoneEff f tier n)

/-- WEEDER_READ (R156). -/
def execWeederRead (f : Nat) (mem : Nat) (pattern : Nat) (check : Nat) (s : State) : Host.Outcome State Fault Refusal :=
  onBlock s (weederReadEff f mem pattern check)

/-- WEEDER_LAP_SLOW (R157). -/
def execWeederLapSlow (f : Nat) (mem : Nat) (s : State) : Host.Outcome State Fault Refusal :=
  onBlock s (weederLapSlowEff f mem)

/-- FLIP_ARM (R165). -/
def execFlipArm (fn : Nat) (value : Nat) (s : State) : Host.Outcome State Fault Refusal :=
  onBlock s (flipArmEff fn value)

/-- CAND_QUERY (R169). -/
def execCandQuery (fn : Nat) (value : Nat) (s : State) : Host.Outcome State Fault Refusal :=
  onBlock s (candQueryEff fn value)

/-- INSTALL_CREATE (R176). -/
def execInstallCreate (camp : Nat) (seq : Nat) (s : State) : Host.Outcome State Fault Refusal :=
  onBlock s (installCreateEff camp seq)

/-- INSTALL_WRITE (R177). -/
def execInstallWrite (camp : Nat) (seq : Nat) (s : State) : Host.Outcome State Fault Refusal :=
  onBlock s (installWriteEff camp seq)

/-- INSTALL_SEAL (R176). -/
def execInstallSeal (camp : Nat) (seq : Nat) (s : State) : Host.Outcome State Fault Refusal :=
  onBlock s (installSealEff camp seq)

/-- INSTALL_ERASE (R176). -/
def execInstallErase (camp : Nat) (seq : Nat) (s : State) : Host.Outcome State Fault Refusal :=
  onBlock s (installEraseEff camp seq)

/-- UNIT_PROGRAM_DONE (R177). -/
def execUnitProgramDone (u : Nat) (ok : Bool) (s : State) : Host.Outcome State Fault Refusal :=
  onBlock s (unitProgramDoneEff u ok)

/-- CELLAR_READ_COMPLETE (R178). -/
def execCellarReadComplete (chan : Nat) (retries : Nat) (outcome : Nat) (bits : Nat) (pct : Nat) (s : State) : Host.Outcome State Fault Refusal :=
  onBlock s (cellarReadCompleteEff chan retries outcome bits pct)

/-- RELOCATION_START (R181). -/
def execRelocationStart (chan : Nat) (l : Nat) (s : State) : Host.Outcome State Fault Refusal :=
  onBlock s (relocationStartEff chan l)

/-- RELOCATION_SWITCH (R181). -/
def execRelocationSwitch (chan : Nat) (l : Nat) (ok : Bool) (s : State) : Host.Outcome State Fault Refusal :=
  onBlock s (relocationSwitchEff chan l ok)

/-- BLOCK_ERASE (R181). -/
def execBlockErase (chan : Nat) (p : Nat) (ok : Bool) (s : State) : Host.Outcome State Fault Refusal :=
  onBlock s (blockEraseEff chan p ok)

/-- CELLAR_THERMAL_SAMPLE (R184). -/
def execCellarThermalSample (k : Nat) (temp : Nat) (s : State) : Host.Outcome State Fault Refusal :=
  onBlock s (cellarThermalSampleEff k temp)

/-- CELLAR_MOUNTED (R187). -/
def execCellarMounted (k : Nat) (chans : Nat) (ms : Nat) (s : State) : Host.Outcome State Fault Refusal :=
  onBlock s (cellarMountedEff k chans ms)

/-- READ_COUNT_SAVE (R187). -/
def execReadCountSave (k : Nat) (s : State) : Host.Outcome State Fault Refusal :=
  onBlock s (readCountSaveEff k)

/-- CELLAR_CC_DARK (R189). -/
def execCellarCcDark (k : Nat) (chan : Nat) (s : State) : Host.Outcome State Fault Refusal :=
  onBlock s (cellarCcDarkEff k chan)

/-- IMAGE_QUERY (R192). -/
def execImageQuery (fn : Nat) (value : Nat) (s : State) : Host.Outcome State Fault Refusal :=
  onBlock s (imageQueryEff fn value)

/-- JOB (R196). -/
def execJob (camp : Nat) (seq : Nat) (s : State) : Host.Outcome State Fault Refusal :=
  onBlock s (jobEff camp seq)

/-- JOB_LAUNCH (R197). -/
def execJobLaunch (camp : Nat) (seq : Nat) (s : State) : Host.Outcome State Fault Refusal :=
  onBlock s (jobLaunchEff camp seq)

/-- JOB_START (R198). -/
def execJobStart (camp : Nat) (seq : Nat) (s : State) : Host.Outcome State Fault Refusal :=
  onBlock s (jobStartEff camp seq)

/-- JOB_COMPLETE (R199). -/
def execJobComplete (camp : Nat) (seq : Nat) (s : State) : Host.Outcome State Fault Refusal :=
  onBlock s (jobCompleteEff camp seq)

/-- WATCHDOG (R226). -/
def execWatchdog (camp : Nat) (seq : Nat) (s : State) : Host.Outcome State Fault Refusal :=
  onBlock s (watchdogEff camp seq)

/-- REGFILE_PARITY (R224). -/
def execRegfileParity (t : Nat) (s : State) : Host.Outcome State Fault Refusal :=
  onBlock s (regfileParityEff t)

/-- LOAD_RETURN (R221). -/
def execLoadReturn (id : Nat) (s : State) : Host.Outcome State Fault Refusal :=
  onBlock s (loadReturnEff id)

/-- WRITE_ACK (R214). -/
def execWriteAck (id : Nat) (s : State) : Host.Outcome State Fault Refusal :=
  onBlock s (writeAckEff id)

/-- ALU (R201). -/
def execAlu (t : Nat) (s : State) : Host.Outcome State Fault Refusal :=
  onBlock s (aluEff t)

/-- ADDI (R207). -/
def execAddi (t : Nat) (s : State) : Host.Outcome State Fault Refusal :=
  onBlock s (addiEff t)

/-- ANDI (R207). -/
def execAndi (t : Nat) (s : State) : Host.Outcome State Fault Refusal :=
  onBlock s (andiEff t)

/-- ORI (R207). -/
def execOri (t : Nat) (s : State) : Host.Outcome State Fault Refusal :=
  onBlock s (oriEff t)

/-- XORI (R207). -/
def execXori (t : Nat) (s : State) : Host.Outcome State Fault Refusal :=
  onBlock s (xoriEff t)

/-- SHI (R201). -/
def execShi (t : Nat) (s : State) : Host.Outcome State Fault Refusal :=
  onBlock s (shiEff t)

/-- LIQ (R207). -/
def execLiq (t : Nat) (s : State) : Host.Outcome State Fault Refusal :=
  onBlock s (liqEff t)

/-- CMP (R208). -/
def execCmp (t : Nat) (s : State) : Host.Outcome State Fault Refusal :=
  onBlock s (cmpEff t)

/-- FPU (R201). -/
def execFpu (t : Nat) (s : State) : Host.Outcome State Fault Refusal :=
  onBlock s (fpuEff t)

/-- PLOG (R208). -/
def execPlog (t : Nat) (s : State) : Host.Outcome State Fault Refusal :=
  onBlock s (plogEff t)

/-- LD (R220). -/
def execLd (t : Nat) (s : State) : Host.Outcome State Fault Refusal :=
  onBlock s (ldEff t)

/-- ST (R220). -/
def execSt (t : Nat) (s : State) : Host.Outcome State Fault Refusal :=
  onBlock s (stEff t)

/-- VLD (R203). -/
def execVld (t : Nat) (s : State) : Host.Outcome State Fault Refusal :=
  onBlock s (vldEff t)

/-- VST (R203). -/
def execVst (t : Nat) (s : State) : Host.Outcome State Fault Refusal :=
  onBlock s (vstEff t)

/-- VLDS (R207). -/
def execVlds (t : Nat) (s : State) : Host.Outcome State Fault Refusal :=
  onBlock s (vldsEff t)

/-- VSTS (R207). -/
def execVsts (t : Nat) (s : State) : Host.Outcome State Fault Refusal :=
  onBlock s (vstsEff t)

/-- ATOM (R212). -/
def execAtom (t : Nat) (s : State) : Host.Outcome State Fault Refusal :=
  onBlock s (atomEff t)

/-- MADD (R213). -/
def execMadd (t : Nat) (s : State) : Host.Outcome State Fault Refusal :=
  onBlock s (maddEff t)

/-- BR (R207). -/
def execBr (t : Nat) (s : State) : Host.Outcome State Fault Refusal :=
  onBlock s (brEff t)

/-- CALL (R207). -/
def execCall (t : Nat) (s : State) : Host.Outcome State Fault Refusal :=
  onBlock s (callEff t)

/-- JR (R207). -/
def execJr (t : Nat) (s : State) : Host.Outcome State Fault Refusal :=
  onBlock s (jrEff t)

/-- VOP (R208). -/
def execVop (t : Nat) (s : State) : Host.Outcome State Fault Refusal :=
  onBlock s (vopEff t)

/-- VOPS (R204). -/
def execVops (t : Nat) (s : State) : Host.Outcome State Fault Refusal :=
  onBlock s (vopsEff t)

/-- VRED (R205). -/
def execVred (t : Nat) (s : State) : Host.Outcome State Fault Refusal :=
  onBlock s (vredEff t)

/-- VCMP (R207). -/
def execVcmp (t : Nat) (s : State) : Host.Outcome State Fault Refusal :=
  onBlock s (vcmpEff t)

/-- SMUP (R210). -/
def execSmup (t : Nat) (s : State) : Host.Outcome State Fault Refusal :=
  onBlock s (smupEff t)

/-- VADDM (R213). -/
def execVaddm (t : Nat) (s : State) : Host.Outcome State Fault Refusal :=
  onBlock s (vaddmEff t)

/-- SETVL (R202). -/
def execSetvl (t : Nat) (s : State) : Host.Outcome State Fault Refusal :=
  onBlock s (setvlEff t)

/-- RATION_REQ (R76). -/
def execRationReq (t : Nat) (s : State) : Host.Outcome State Fault Refusal :=
  onBlock s (rationReqEff t)

/-- RATION_REL (R76). -/
def execRationRel (t : Nat) (s : State) : Host.Outcome State Fault Refusal :=
  onBlock s (rationRelEff t)

/-- FENCE (R214). -/
def execFence (t : Nat) (s : State) : Host.Outcome State Fault Refusal :=
  onBlock s (fenceEff t)

/-- ARR_PUT (R239). -/
def execArrPut (t : Nat) (s : State) : Host.Outcome State Fault Refusal :=
  onBlock s (arrPutEff t)

/-- ARR_RUN (R239). -/
def execArrRun (t : Nat) (s : State) : Host.Outcome State Fault Refusal :=
  onBlock s (arrRunEff t)

/-- ARR_ABORT (R240). -/
def execArrAbort (t : Nat) (s : State) : Host.Outcome State Fault Refusal :=
  onBlock s (arrAbortEff t)

/-- ARR_STAT (R248). -/
def execArrStat (t : Nat) (s : State) : Host.Outcome State Fault Refusal :=
  onBlock s (arrStatEff t)

/-- ARR_WAIT (R239). -/
def execArrWait (t : Nat) (s : State) : Host.Outcome State Fault Refusal :=
  onBlock s (arrWaitEff t)

/-- CSRR (R215). -/
def execCsrr (t : Nat) (s : State) : Host.Outcome State Fault Refusal :=
  onBlock s (csrrEff t)

/-- CSRW (R215). -/
def execCsrw (t : Nat) (s : State) : Host.Outcome State Fault Refusal :=
  onBlock s (csrwEff t)

/-- TBAR (R208). -/
def execTbar (t : Nat) (s : State) : Host.Outcome State Fault Refusal :=
  onBlock s (tbarEff t)

/-- YIELD (R208). -/
def execYield (t : Nat) (s : State) : Host.Outcome State Fault Refusal :=
  onBlock s (yieldEff t)

/-- PCHK (R223). -/
def execPchk (t : Nat) (s : State) : Host.Outcome State Fault Refusal :=
  onBlock s (pchkEff t)

/-- END (R199). -/
def execEndCmd (t : Nat) (s : State) : Host.Outcome State Fault Refusal :=
  onBlock s (endCmdEff t)

/-- LOAD_TILE (R238). -/
def execLoadTile (f : Nat) (n : Nat) (s : State) : Host.Outcome State Fault Refusal :=
  onBlock s (loadTileEff f n)

/-- SWAP (R238). -/
def execSwap (f : Nat) (n : Nat) (s : State) : Host.Outcome State Fault Refusal :=
  onBlock s (swapEff f n)

/-- STREAM (R238). -/
def execStream (f : Nat) (n : Nat) (s : State) : Host.Outcome State Fault Refusal :=
  onBlock s (streamEff f n)

/-- DRAIN (R238). -/
def execDrain (f : Nat) (n : Nat) (s : State) : Host.Outcome State Fault Refusal :=
  onBlock s (drainEff f n)

/-- CHAIN (R238). -/
def execChain (f : Nat) (n : Nat) (s : State) : Host.Outcome State Fault Refusal :=
  onBlock s (chainEff f n)

/-- ARRAY_END (R238). -/
def execArrayEnd (f : Nat) (n : Nat) (s : State) : Host.Outcome State Fault Refusal :=
  onBlock s (arrayEndEff f n)

/-- ARRAY_NOP (R237). -/
def execArrayNop (f : Nat) (n : Nat) (s : State) : Host.Outcome State Fault Refusal :=
  onBlock s (arrayNopEff f n)

/-- SHIFT_COMPLETE (R242). -/
def execShiftComplete (f : Nat) (n : Nat) (s : State) : Host.Outcome State Fault Refusal :=
  onBlock s (shiftCompleteEff f n)

/-- ABORT_COMPLETE (R240). -/
def execAbortComplete (f : Nat) (n : Nat) (s : State) : Host.Outcome State Fault Refusal :=
  onBlock s (abortCompleteEff f n)

/-- ARRAY_STALL (R249). -/
def execArrayStall (f : Nat) (n : Nat) (s : State) : Host.Outcome State Fault Refusal :=
  onBlock s (arrayStallEff f n)

/-- DMA_ELEMENT_DONE (R560). -/
def execDmaElementDone (f : Nat) (slot : Nat) (w : DmaWork) (s : State) : Host.Outcome State Fault Refusal :=
  onBlock s (dmaElementDoneEff f slot w)

/-- PAGE_WALK (R266). -/
def execPageWalk (f : Nat) (slot : Nat) (pair : Nat) (first : Nat) (last : Nat) (core : Nat) (off : Nat) (s : State) : Host.Outcome State Fault Refusal :=
  onBlock s (pageWalkEff f slot pair first last core off)

/-- PAGE_QUERY (R278). -/
def execPageQuery (fn : Nat) (word : Nat) (value : Nat) (s : State) : Host.Outcome State Fault Refusal :=
  onBlock s (pageQueryEff fn word value)

/-- PARTIAL_ARRIVE (R287). -/
def execPartialArrive (c : Nat) (slot : Nat) (pair : Nat) (pos : Nat) (src : Nat) (lvl : Nat) (idx : Nat) (s : State) : Host.Outcome State Fault Refusal :=
  onBlock s (partialArriveEff c slot pair pos src lvl idx)

/-- RING_PIECE (R291). -/
def execRingPiece (c : Nat) (f : Nat) (slot : Nat) (layer : Nat) (row : Nat) (src : Nat) (pages : List RingPage) (s : State) : Host.Outcome State Fault Refusal :=
  onBlock s (ringPieceEff c f slot layer row src pages)

/-- SAMPLE_ROW (R306). -/
def execSampleRow (c : Nat) (f : Nat) (slot : Nat) (pos : Nat) (logits : List Nat) (poison : Bool) (s : State) : Host.Outcome State Fault Refusal :=
  onBlock s (sampleRowEff c f slot pos logits poison)

/-- MERGE_RECORD (R308). -/
def execMergeRecord (c : Nat) (slot : Nat) (pos : Nat) (pass : Nat) (lvl : Nat) (idx : Nat) (s : State) : Host.Outcome State Fault Refusal :=
  onBlock s (mergeRecordEff c slot pos pass lvl idx)

/-- PASS2_START (R307). -/
def execPass2Start (c : Nat) (slot : Nat) (pos : Nat) (f : Nat) (s : State) : Host.Outcome State Fault Refusal :=
  onBlock s (pass2StartEff c slot pos f)

/-- GENERATOR_TEST (R323). -/
def execGeneratorTest (fn : Nat) (off : Nat) (value : Nat) (s : State) : Host.Outcome State Fault Refusal :=
  onBlock s (generatorTestEff fn off value)

/-- GENERATE (R328). -/
def execGenerate (camp : Nat) (seq : Nat) (tokens : List Nat) (readBad : Nat) (s : State) : Host.Outcome State Fault Refusal :=
  onBlock s (generateEff camp seq tokens readBad)

/-- FORK_GROUP (R354). -/
def execForkGroup (camp : Nat) (seq : Nat) (tokens : List Nat) (readBad : Nat) (s : State) : Host.Outcome State Fault Refusal :=
  onBlock s (forkGroupEff camp seq tokens readBad)

/-- SCORE (R356). -/
def execScore (camp : Nat) (seq : Nat) (tokens : List Nat) (readBad : Nat) (s : State) : Host.Outcome State Fault Refusal :=
  onBlock s (scoreEff camp seq tokens readBad)

/-- CANCEL (R342). -/
def execCancel (camp : Nat) (seq : Nat) (s : State) : Host.Outcome State Fault Refusal :=
  onBlock s (cancelEff camp seq)

/-- SET_POLICY (R432). -/
def execSetPolicy (camp : Nat) (seq : Nat) (s : State) : Host.Outcome State Fault Refusal :=
  onBlock s (setPolicyEff camp seq)

/-- FENCE_DESCRIPTOR (R432). -/
def execFenceDescriptor (camp : Nat) (seq : Nat) (s : State) : Host.Outcome State Fault Refusal :=
  onBlock s (fenceDescriptorEff camp seq)

/-- STATS (R432). -/
def execStats (camp : Nat) (seq : Nat) (s : State) : Host.Outcome State Fault Refusal :=
  onBlock s (statsEff camp seq)

/-- SLOT_QUERY (R347). -/
def execSlotQuery (fn : Nat) (value : Nat) (s : State) : Host.Outcome State Fault Refusal :=
  onBlock s (slotQueryEff fn value)

/-- PHASE (R350). -/
def execPhase (camp : Nat) (seq : Nat) (table : List Nat) (readBad : Nat) (s : State) : Host.Outcome State Fault Refusal :=
  onBlock s (phaseEff camp seq table readBad)

/-- PHASE_DRAIN_LIMIT (R350). -/
def execPhaseDrainLimit (c : Nat) (s : State) : Host.Outcome State Fault Refusal :=
  onBlock s (phaseDrainLimitEff c)

/-- REFRESH (R362). -/
def execRefresh (camp : Nat) (seq : Nat) (covered : Bool) (s : State) : Host.Outcome State Fault Refusal :=
  onBlock s (refreshEff camp seq covered)

/-- REFRESH_COMPLETE (R365). -/
def execRefreshComplete (camp : Nat) (seq : Nat) (own : List RefreshTile) (scales : List RefreshScale) (gathered : List GatheredTile) (failure : Option RefreshFail) (s : State) : Host.Outcome State Fault Refusal :=
  onBlock s (refreshCompleteEff camp seq own scales gathered failure)

/-- LOAD_MODEL (R552). -/
def execLoadModel (camp : Nat) (seq : Nat) (m : ModelSpec) (s : State) : Host.Outcome State Fault Refusal :=
  onBlock s (loadModelEff camp seq m)

/-- UNLOAD_MODEL (R97). -/
def execUnloadModel (camp : Nat) (seq : Nat) (s : State) : Host.Outcome State Fault Refusal :=
  onBlock s (unloadModelEff camp seq)

/-- COPY (R430). -/
def execCopy (camp : Nat) (seq : Nat) (s : State) : Host.Outcome State Fault Refusal :=
  onBlock s (copyEff camp seq)

/-- HOST_LINK_UP (R373). -/
def execHostLinkUp (p : Nat) (speed : Nat) (width : Nat) (flit : Bool) (s : State) : Host.Outcome State Fault Refusal :=
  onBlock s (hostLinkUpEff p speed width flit)

/-- HOST_LINK_DOWN (R395). -/
def execHostLinkDown (p : Nat) (ltssm : Nat) (s : State) : Host.Outcome State Fault Refusal :=
  onBlock s (hostLinkDownEff p ltssm)

/-- FUNCTION_LEVEL_RESET (R394). -/
def execFunctionLevelReset (fn : Nat) (s : State) : Host.Outcome State Fault Refusal :=
  onBlock s (functionLevelResetEff fn)

/-- VF_ENABLE_CLEAR (R394). -/
def execVfEnableClear (p : Nat) (s : State) : Host.Outcome State Fault Refusal :=
  onBlock s (vfEnableClearEff p)

/-- HOT_RESET (R395). -/
def execHotReset (p : Nat) (disable : Bool) (s : State) : Host.Outcome State Fault Refusal :=
  onBlock s (hotResetEff p disable)

/-- HOST_READ_COMPLETION (R386). -/
def execHostReadCompletion (w : HostRead) (status : Nat) (addr : Nat) (data : Nat) (s : State) : Host.Outcome State Fault Refusal :=
  onBlock s (hostReadCompletionEff w status addr data)

/-- HOST_READ_TIMEOUT (R386). -/
def execHostReadTimeout (w : HostRead) (addr : Nat) (s : State) : Host.Outcome State Fault Refusal :=
  onBlock s (hostReadTimeoutEff w addr)

/-- BAR_WRITE_POISONED (R385). -/
def execBarWritePoisoned (fn : Nat) (s : State) : Host.Outcome State Fault Refusal :=
  onBlock s (barWritePoisonedEff fn)

/-- MSIX_HOLDOFF (R389). -/
def execMsixHoldoff (fn : Nat) (v : Nat) (s : State) : Host.Outcome State Fault Refusal :=
  onBlock s (msixHoldoffEff fn v)

/-- MSIX_UNMASK (R389). -/
def execMsixUnmask (fn : Nat) (v : Nat) (s : State) : Host.Outcome State Fault Refusal :=
  onBlock s (msixUnmaskEff fn v)

/-- IDE_CHECK_FAIL (R392). -/
def execIdeCheckFail (p : Nat) (strm : Nat) (s : State) : Host.Outcome State Fault Refusal :=
  onBlock s (ideCheckFailEff p strm)

/-- DOORBELL (R403). -/
def execDoorbell (fn : Nat) (off : Nat) (idx : Nat) (covers : Bool) (s : State) : Host.Outcome State Fault Refusal :=
  onBlock s (doorbellEff fn off idx covers)

/-- RING_ENABLE (R402). -/
def execRingEnable (fn : Nat) (k : Nat) (value : Nat) (s : State) : Host.Outcome State Fault Refusal :=
  onBlock s (ringEnableEff fn k value)

/-- RING_DISABLE (R402). -/
def execRingDisable (fn : Nat) (k : Nat) (value : Nat) (s : State) : Host.Outcome State Fault Refusal :=
  onBlock s (ringDisableEff fn k value)

/-- DESCRIPTOR_FETCH (R406). -/
def execDescriptorFetch (fn : Nat) (i : Nat) (raw : Nat) (s : State) : Host.Outcome State Fault Refusal :=
  onBlock s (descriptorFetchEff fn i raw)

/-- RECORD_WRITE (R408). -/
def execRecordWrite (fn : Nat) (i : Nat) (s : State) : Host.Outcome State Fault Refusal :=
  onBlock s (recordWriteEff fn i)

/-- YG_LANE_REQUEST (R444). -/
def execYgLaneRequest (p : Nat) (s : State) : Host.Outcome State Fault Refusal :=
  onBlock s (ygLaneRequestEff p)

/-- YG_PORT_UP (R444). -/
def execYgPortUp (p : Nat) (peer : Nat) (peerPort : Nat) (shape : Nat) (delay : Nat) (eye : Nat) (lane : Nat) (hits : Nat) (s : State) : Host.Outcome State Fault Refusal :=
  onBlock s (ygPortUpEff p peer peerPort shape delay eye lane hits)

/-- YG_TRAIN_RETRY (R444). -/
def execYgTrainRetry (p : Nat) (s : State) : Host.Outcome State Fault Refusal :=
  onBlock s (ygTrainRetryEff p)

/-- YG_RETRAIN (R445). -/
def execYgRetrain (p : Nat) (cause : Nat) (lane : Nat) (s : State) : Host.Outcome State Fault Refusal :=
  onBlock s (ygRetrainEff p cause lane)

/-- YG_PORT_HELD (R446). -/
def execYgPortHeld (p : Nat) (s : State) : Host.Outcome State Fault Refusal :=
  onBlock s (ygPortHeldEff p)

/-- YG_HOLD_END (R446). -/
def execYgHoldEnd (p : Nat) (s : State) : Host.Outcome State Fault Refusal :=
  onBlock s (ygHoldEndEff p)

/-- CODEWORD_RECEIVE (R441). -/
def execCodewordReceive (p : Nat) (seq : Nat) (replay : Bool) (good : Bool) (corrected : List Nat) (flits : List Nat) (s : State) : Host.Outcome State Fault Refusal :=
  onBlock s (codewordReceiveEff p seq replay good corrected flits)

/-- LINK_FLIT (R440). -/
def execLinkFlit (p : Nat) (room : Bool) (s : State) : Host.Outcome State Fault Refusal :=
  onBlock s (linkFlitEff p room)

/-- YILGIL_PACKET (R442). -/
def execYilgilPacket (p : Nat) (msg : YgMsg) (room : Bool) (s : State) : Host.Outcome State Fault Refusal :=
  onBlock s (yilgilPacketEff p msg room)

/-- DOMAIN_TIME_MESSAGE (R453). -/
def execDomainTimeMessage (root : Nat) (offset : Int) (s : State) : Host.Outcome State Fault Refusal :=
  onBlock s (domainTimeMessageEff root offset)

/-- DOMAIN_UNLOCKED (R454). -/
def execDomainUnlocked (s : State) : Host.Outcome State Fault Refusal :=
  onBlock s (domainUnlockedEff)

/-- COLL_QUEUE_ENTRY (R458). -/
def execCollQueueEntry (c : Nat) (f : Nat) (s : State) : Host.Outcome State Fault Refusal :=
  onBlock s (collQueueEntryEff c f)

/-- COLL_PART_COMPLETE (R455). -/
def execCollPartComplete (part : Nat) (slot : Nat) (failed : Nat) (others : List CollSource) (data : CollData) (s : State) : Host.Outcome State Fault Refusal :=
  onBlock s (collPartCompleteEff part slot failed others data)

/-- COLL_LATE (R459). -/
def execCollLate (part : Nat) (rank : Nat) (field : Nat) (s : State) : Host.Outcome State Fault Refusal :=
  onBlock s (collLateEff part rank field)

/-- COLL_ABORT_MESSAGE (R459). -/
def execCollAbortMessage (c : Nat) (id : Nat) (f : Nat) (rank : Nat) (field : Nat) (sender : Nat) (s : State) : Host.Outcome State Fault Refusal :=
  onBlock s (collAbortMessageEff c id f rank field sender)

/-- COLL_SETTLE (R459). -/
def execCollSettle (c : Nat) (id : Nat) (s : State) : Host.Outcome State Fault Refusal :=
  onBlock s (collSettleEff c id)

/-- CONSENT_COPY (R475). -/
def execConsentCopy (mc : Bool) (fn : Nat) (s : State) : Host.Outcome State Fault Refusal :=
  onBlock s (consentCopyEff mc fn)

/-- WRITE_STAGE (R475). -/
def execWriteStage (mc : Bool) (fn : Nat) (off : Nat) (data : List Nat) (s : State) : Host.Outcome State Fault Refusal :=
  onBlock s (writeStageEff mc fn off data)

/-- PROPOSE (R475). -/
def execPropose (mc : Bool) (fn : Nat) (s : State) : Host.Outcome State Fault Refusal :=
  onBlock s (proposeEff mc fn)

/-- COUNTERSIGN (R477). -/
def execCountersign (mc : Bool) (fn : Nat) (data : List Nat) (s : State) : Host.Outcome State Fault Refusal :=
  onBlock s (countersignEff mc fn data)

/-- CONSENT_ABORT (R477). -/
def execConsentAbort (mc : Bool) (fn : Nat) (s : State) : Host.Outcome State Fault Refusal :=
  onBlock s (consentAbortEff mc fn)

/-- GET_STATUS (R485). -/
def execGetStatus (s : State) : Host.Outcome State Fault Refusal :=
  onBlock s (getStatusEff)

/-- READ_IMAGE (R485). -/
def execReadImage (image : Nat) (off : Nat) (len : Nat) (s : State) : Host.Outcome State Fault Refusal :=
  onBlock s (readImageEff image off len)

/-- CONSENT_WINDOW_EXPIRY (R477). -/
def execConsentWindowExpiry (s : State) : Host.Outcome State Fault Refusal :=
  onBlock s (consentWindowExpiryEff)

/-- CONSENT_APPLY (R479). -/
def execConsentApply (storeOk : Bool) (s : State) : Host.Outcome State Fault Refusal :=
  onBlock s (consentApplyEff storeOk)

/-- CAMP_RESET_CMD (R481). -/
def execCampResetCmd (fn : Nat) (value : Nat) (s : State) : Host.Outcome State Fault Refusal :=
  onBlock s (campResetCmdEff fn value)

/-- CAMP_RESET_DONE (R533). -/
def execCampResetDone (c : Nat) (s : State) : Host.Outcome State Fault Refusal :=
  onBlock s (campResetDoneEff c)

/-- CAMP_RESET_STUCK (R535). -/
def execCampResetStuck (c : Nat) (s : State) : Host.Outcome State Fault Refusal :=
  onBlock s (campResetStuckEff c)

/-- MCTP_CONTROL (R484). -/
def execMctpControl (typ : Nat) (cmd : Nat) (arg : Nat) (s : State) : Host.Outcome State Fault Refusal :=
  onBlock s (mctpControlEff typ cmd arg)

/-- PLDM_GET_SENSOR (R486). -/
def execPldmGetSensor (kind : Nat) (f : Nat) (s : State) : Host.Outcome State Fault Refusal :=
  onBlock s (pldmGetSensorEff kind f)

/-- PLDM_SET_WAFER_CAP (R486). -/
def execPldmSetWaferCap (value : Nat) (s : State) : Host.Outcome State Fault Refusal :=
  onBlock s (pldmSetWaferCapEff value)

/-- PLDM_FIRMWARE_UPDATE (R486). -/
def execPldmFirmwareUpdate (signed : Bool) (svn : Nat) (s : State) : Host.Outcome State Fault Refusal :=
  onBlock s (pldmFirmwareUpdateEff signed svn)

/-- PLDM_POWER_OFF (R503). -/
def execPldmPowerOff (s : State) : Host.Outcome State Fault Refusal :=
  onBlock s (pldmPowerOffEff)

/-- PLDM_POWER_CYCLE (R520). -/
def execPldmPowerCycle (vcore : Nat) (s : State) : Host.Outcome State Fault Refusal :=
  onBlock s (pldmPowerCycleEff vcore)

/-- PLDM_WAFER_RESET (R520). -/
def execPldmWaferReset (s : State) : Host.Outcome State Fault Refusal :=
  onBlock s (pldmWaferResetEff)

/-- GET_DIGESTS (R487). -/
def execGetDigests (doe : Bool) (s : State) : Host.Outcome State Fault Refusal :=
  onBlock s (getDigestsEff doe)

/-- GET_CERTIFICATE (R487). -/
def execGetCertificate (doe : Bool) (off : Nat) (len : Nat) (s : State) : Host.Outcome State Fault Refusal :=
  onBlock s (getCertificateEff doe off len)

/-- CHALLENGE (R487). -/
def execChallenge (doe : Bool) (s : State) : Host.Outcome State Fault Refusal :=
  onBlock s (challengeEff doe)

/-- GET_MEASUREMENTS (R488). -/
def execGetMeasurements (doe : Bool) (index : Nat) (s : State) : Host.Outcome State Fault Refusal :=
  onBlock s (getMeasurementsEff doe index)

/-- KEY_EXCHANGE (R487). -/
def execKeyExchange (doe : Bool) (port : Nat) (s : State) : Host.Outcome State Fault Refusal :=
  onBlock s (keyExchangeEff doe port)

/-- FINISH (R487). -/
def execFinish (doe : Bool) (port : Nat) (s : State) : Host.Outcome State Fault Refusal :=
  onBlock s (finishEff doe port)

/-- POWER_ON (R501). -/
def execPowerOn (vin : Nat) (iin : Nat) (pin : Nat) (aux : Nat) (vcore : Nat) (s : State) : Host.Outcome State Fault Refusal :=
  onBlock s (powerOnEff vin iin pin aux vcore)

/-- INPUT_UNDERVOLT (R504). -/
def execInputUndervolt (vin : Nat) (s : State) : Host.Outcome State Fault Refusal :=
  onBlock s (inputUndervoltEff vin)

/-- INPUT_RECOVER (R504). -/
def execInputRecover (vin : Nat) (s : State) : Host.Outcome State Fault Refusal :=
  onBlock s (inputRecoverEff vin)

/-- UNDERVOLT_POWER_OFF (R505). -/
def execUndervoltPowerOff (vin : Nat) (s : State) : Host.Outcome State Fault Refusal :=
  onBlock s (undervoltPowerOffEff vin)

/-- SHUNT_CATCH (R499). -/
def execShuntCatch (watts : Nat) (s : State) : Host.Outcome State Fault Refusal :=
  onBlock s (shuntCatchEff watts)

/-- POWER_OVER (R497). -/
def execPowerOver (watts : Nat) (iin : Nat) (slew : Nat) (s : State) : Host.Outcome State Fault Refusal :=
  onBlock s (powerOverEff watts iin slew)

/-- COOLANT_SAMPLE (R508). -/
def execCoolantSample (inlet : Nat) (outlet : Nat) (flow : Nat) (s : State) : Host.Outcome State Fault Refusal :=
  onBlock s (coolantSampleEff inlet outlet flow)

/-- LOGIC_THERMAL_SAMPLE (R509). -/
def execLogicThermalSample (temps : List Nat) (s : State) : Host.Outcome State Fault Refusal :=
  onBlock s (logicThermalSampleEff temps)

/-- LOGIC_THROTTLE_STEP (R510). -/
def execLogicThrottleStep (s : State) : Host.Outcome State Fault Refusal :=
  onBlock s (logicThrottleStepEff)

/-- LOGIC_SENSORS_SILENT (R511). -/
def execLogicSensorsSilent (f : Nat) (s : State) : Host.Outcome State Fault Refusal :=
  onBlock s (logicSensorsSilentEff f)

/-- PERST_ASSERT (R514). -/
def execPerstAssert (p : Nat) (s : State) : Host.Outcome State Fault Refusal :=
  onBlock s (perstAssertEff p)

/-- PERST_DEASSERT (R514). -/
def execPerstDeassert (p : Nat) (s : State) : Host.Outcome State Fault Refusal :=
  onBlock s (perstDeassertEff p)

/-- PERST_STUCK (R518). -/
def execPerstStuck (p : Nat) (s : State) : Host.Outcome State Fault Refusal :=
  onBlock s (perstStuckEff p)

/-- FORCE_THROTTLE_ASSERT (R515). -/
def execForceThrottleAssert (s : State) : Host.Outcome State Fault Refusal :=
  onBlock s (forceThrottleAssertEff)

/-- FORCE_THROTTLE_DEASSERT (R515). -/
def execForceThrottleDeassert (s : State) : Host.Outcome State Fault Refusal :=
  onBlock s (forceThrottleDeassertEff)

/-- FORCE_THROTTLE_HELD (R516). -/
def execForceThrottleHeld (s : State) : Host.Outcome State Fault Refusal :=
  onBlock s (forceThrottleHeldEff)

/-- FIELD_STAGE_FAULT (R517). -/
def execFieldStageFault (f : Nat) (rail : Nat) (watts : Nat) (s : State) : Host.Outcome State Fault Refusal :=
  onBlock s (fieldStageFaultEff f rail watts)

/-- RESET_CTRL (R542). -/
def execResetCtrl (fn : Nat) (value : Nat) (s : State) : Host.Outcome State Fault Refusal :=
  onBlock s (resetCtrlEff fn value)

/-- STARTUP_STAGE_DONE (R522). -/
def execStartupStageDone (w : StageWork) (s : State) : Host.Outcome State Fault Refusal :=
  onBlock s (startupStageDoneEff w)

/-- BOOT_CONTINUE (R525). -/
def execBootContinue (fn : Nat) (value : Nat) (us : Nat) (s : State) : Host.Outcome State Fault Refusal :=
  onBlock s (bootContinueEff fn value us)

/-- FW_STOPPED (R541). -/
def execFwStopped (s : State) : Host.Outcome State Fault Refusal :=
  onBlock s (fwStoppedEff)

/-- DBG_WINDOW_ACCESS (R547). -/
def execDbgWindowAccess (fn : Nat) (off : Nat) (len : Nat) (write : Bool) (data : Nat) (s : State) : Host.Outcome State Fault Refusal :=
  onBlock s (dbgWindowAccessEff fn off len write data)

/-- DBG_CAPTURE_WRITE (R550). -/
def execDbgCaptureWrite (fn : Nat) (value : Nat) (s : State) : Host.Outcome State Fault Refusal :=
  onBlock s (dbgCaptureWriteEff fn value)

/-- STREAM_DONE (R242). -/
def execStreamDone (f : Nat) (n : Nat) (s : State) : Host.Outcome State Fault Refusal :=
  onBlock s (streamDoneEff f n)

/-- DRAIN_DONE (R242). -/
def execDrainDone (f : Nat) (n : Nat) (s : State) : Host.Outcome State Fault Refusal :=
  onBlock s (drainDoneEff f n)

/-- YG_TRAINING_FAILED (R444). -/
def execYgTrainingFailed (p : Nat) (cause : Nat) (found : Nat) (s : State) : Host.Outcome State Fault Refusal :=
  onBlock s (ygTrainingFailedEff p cause found)

/-- CONFIGURATION_REQUEST (R376). -/
def execConfigurationRequest (fn : Nat) (req : CfgReq) (s : State) : Host.Outcome State Fault Refusal :=
  onBlock s (configurationRequestEff fn req)

/-- IDE_KM (R392). -/
def execIdeKm (p : Nat) (strm : Nat) (lo : Nat) (hi : Nat) (s : State) : Host.Outcome State Fault Refusal :=
  onBlock s (ideKmEff p strm lo hi)

/-- HOST_LINK_RECOVERY (R397). -/
def execHostLinkRecovery (p : Nat) (replays : Nat) (corr : Nat) (s : State) : Host.Outcome State Fault Refusal :=
  onBlock s (hostLinkRecoveryEff p replays corr)

/-- PLDM_EVENT_FETCH (R513). -/
def execPldmEventFetch (s : State) : Host.Outcome State Fault Refusal :=
  onBlock s (pldmEventFetchEff)

/-- SHUNT_TAPER_END (R511). -/
def execShuntTaperEnd (s : State) : Host.Outcome State Fault Refusal :=
  onBlock s (shuntTaperEndEff)

/-- PERST_GLITCH (R514). -/
def execPerstGlitch (s : State) : Host.Outcome State Fault Refusal :=
  onBlock s (perstGlitchEff)

/-- FORCE_THROTTLE_GLITCH (R515). -/
def execForceThrottleGlitch (s : State) : Host.Outcome State Fault Refusal :=
  onBlock s (forceThrottleGlitchEff)

end Sys2Proof.Machine
end

