-- ==== Sys2Proof/Machine/Dispatch.lean ====
section
/-! DEFINITION. One arm per command: a direct call of its meaning. -/
namespace Sys2Proof.Machine

def exec (i : Instr) (s : State) : Host.Outcome State Fault Refusal :=
  match i with
  | .registerWrite fn off len be data => Sys2Proof.Machine.execRegisterWrite fn off len be data s
  | .lowWordRead fn off len => Sys2Proof.Machine.execLowWordRead fn off len s
  | .highWordWrite fn off value => Sys2Proof.Machine.execHighWordWrite fn off value s
  | .lowWordWrite fn off value => Sys2Proof.Machine.execLowWordWrite fn off value s
  | .flitReceive site port cls leg err flit room => Sys2Proof.Machine.execFlitReceive site port cls leg err flit room s
  | .routeQuery fn value => Sys2Proof.Machine.execRouteQuery fn value s
  | .timeSync offsets => Sys2Proof.Machine.execTimeSync offsets s
  | .timeUnlocked site => Sys2Proof.Machine.execTimeUnlocked site s
  | .linkHeartbeat site port acked => Sys2Proof.Machine.execLinkHeartbeat site port acked s
  | .fabricStall site port cls leg => Sys2Proof.Machine.execFabricStall site port cls leg s
  | .stepTokenReceive c f work experts => Sys2Proof.Machine.execStepTokenReceive c f work experts s
  | .stepDone c f unitsDone => Sys2Proof.Machine.execStepDone c f unitsDone s
  | .stepBoundary c plan drops => Sys2Proof.Machine.execStepBoundary c plan drops s
  | .rationRequest f unit thread sub cls camp amount standing => Sys2Proof.Machine.execRationRequest f unit thread sub cls camp amount standing s
  | .rationTick => Sys2Proof.Machine.execRationTick s
  | .rationRelease f unit thread sub => Sys2Proof.Machine.execRationRelease f unit thread sub s
  | .loanExpiry f => Sys2Proof.Machine.execLoanExpiry f s
  | .rationStarved f unit thread sub => Sys2Proof.Machine.execRationStarved f unit thread sub s
  | .unplannedDrop f unit thread sub => Sys2Proof.Machine.execUnplannedDrop f unit thread sub s
  | .campIdleHold c => Sys2Proof.Machine.execCampIdleHold c s
  | .wideHoldExpiry f core => Sys2Proof.Machine.execWideHoldExpiry f core s
  | .arrayHoldExpiry f n => Sys2Proof.Machine.execArrayHoldExpiry f n s
  | .burstIdleExpiry f p => Sys2Proof.Machine.execBurstIdleExpiry f p s
  | .memoryAccess id errs checks dirMiss => Sys2Proof.Machine.execMemoryAccess id errs checks dirMiss s
  | .moveStart f g dst slot => Sys2Proof.Machine.execMoveStart f g dst slot s
  | .moveSwitch f g hostData => Sys2Proof.Machine.execMoveSwitch f g hostData s
  | .moveOldFrameFree f tier n => Sys2Proof.Machine.execMoveOldFrameFree f tier n s
  | .expertReadyReport c layer expert f => Sys2Proof.Machine.execExpertReadyReport c layer expert f s
  | .substituteDeadline c layer expert => Sys2Proof.Machine.execSubstituteDeadline c layer expert s
  | .tierLate f c n step key => Sys2Proof.Machine.execTierLate f c n step key s
  | .hintMap camp seq frames => Sys2Proof.Machine.execHintMap camp seq frames s
  | .hintUnmap camp seq => Sys2Proof.Machine.execHintUnmap camp seq s
  | .hintSet camp seq => Sys2Proof.Machine.execHintSet camp seq s
  | .dirQuery fn value => Sys2Proof.Machine.execDirQuery fn value s
  | .refreshDue f n => Sys2Proof.Machine.execRefreshDue f n s
  | .stackThermalSample f temp queued => Sys2Proof.Machine.execStackThermalSample f temp queued s
  | .graceEnd f => Sys2Proof.Machine.execGraceEnd f s
  | .stackFault f supply => Sys2Proof.Machine.execStackFault f supply s
  | .marginScan fn f value => Sys2Proof.Machine.execMarginScan fn f value s
  | .marginScanDone f errors => Sys2Proof.Machine.execMarginScanDone f errors s
  | .repairQuery fn f value => Sys2Proof.Machine.execRepairQuery fn f value s
  | .softRowRepair fn f value => Sys2Proof.Machine.execSoftRowRepair fn f value s
  | .zeroFillDone f tier n => Sys2Proof.Machine.execZeroFillDone f tier n s
  | .weederRead f mem pattern check => Sys2Proof.Machine.execWeederRead f mem pattern check s
  | .weederLapSlow f mem => Sys2Proof.Machine.execWeederLapSlow f mem s
  | .flipArm fn value => Sys2Proof.Machine.execFlipArm fn value s
  | .candQuery fn value => Sys2Proof.Machine.execCandQuery fn value s
  | .installCreate camp seq => Sys2Proof.Machine.execInstallCreate camp seq s
  | .installWrite camp seq => Sys2Proof.Machine.execInstallWrite camp seq s
  | .installSeal camp seq => Sys2Proof.Machine.execInstallSeal camp seq s
  | .installErase camp seq => Sys2Proof.Machine.execInstallErase camp seq s
  | .unitProgramDone u ok => Sys2Proof.Machine.execUnitProgramDone u ok s
  | .cellarReadComplete chan retries outcome bits pct => Sys2Proof.Machine.execCellarReadComplete chan retries outcome bits pct s
  | .relocationStart chan l => Sys2Proof.Machine.execRelocationStart chan l s
  | .relocationSwitch chan l ok => Sys2Proof.Machine.execRelocationSwitch chan l ok s
  | .blockErase chan p ok => Sys2Proof.Machine.execBlockErase chan p ok s
  | .cellarThermalSample k temp => Sys2Proof.Machine.execCellarThermalSample k temp s
  | .cellarMounted k chans ms => Sys2Proof.Machine.execCellarMounted k chans ms s
  | .readCountSave k => Sys2Proof.Machine.execReadCountSave k s
  | .cellarCcDark k chan => Sys2Proof.Machine.execCellarCcDark k chan s
  | .imageQuery fn value => Sys2Proof.Machine.execImageQuery fn value s
  | .job camp seq => Sys2Proof.Machine.execJob camp seq s
  | .jobLaunch camp seq => Sys2Proof.Machine.execJobLaunch camp seq s
  | .jobStart camp seq => Sys2Proof.Machine.execJobStart camp seq s
  | .jobComplete camp seq => Sys2Proof.Machine.execJobComplete camp seq s
  | .watchdog camp seq => Sys2Proof.Machine.execWatchdog camp seq s
  | .regfileParity t => Sys2Proof.Machine.execRegfileParity t s
  | .loadReturn id => Sys2Proof.Machine.execLoadReturn id s
  | .writeAck id => Sys2Proof.Machine.execWriteAck id s
  | .alu t => Sys2Proof.Machine.execAlu t s
  | .addi t => Sys2Proof.Machine.execAddi t s
  | .andi t => Sys2Proof.Machine.execAndi t s
  | .ori t => Sys2Proof.Machine.execOri t s
  | .xori t => Sys2Proof.Machine.execXori t s
  | .shi t => Sys2Proof.Machine.execShi t s
  | .liq t => Sys2Proof.Machine.execLiq t s
  | .cmp t => Sys2Proof.Machine.execCmp t s
  | .fpu t => Sys2Proof.Machine.execFpu t s
  | .plog t => Sys2Proof.Machine.execPlog t s
  | .ld t => Sys2Proof.Machine.execLd t s
  | .st t => Sys2Proof.Machine.execSt t s
  | .vld t => Sys2Proof.Machine.execVld t s
  | .vst t => Sys2Proof.Machine.execVst t s
  | .vlds t => Sys2Proof.Machine.execVlds t s
  | .vsts t => Sys2Proof.Machine.execVsts t s
  | .atom t => Sys2Proof.Machine.execAtom t s
  | .madd t => Sys2Proof.Machine.execMadd t s
  | .br t => Sys2Proof.Machine.execBr t s
  | .call t => Sys2Proof.Machine.execCall t s
  | .jr t => Sys2Proof.Machine.execJr t s
  | .vop t => Sys2Proof.Machine.execVop t s
  | .vops t => Sys2Proof.Machine.execVops t s
  | .vred t => Sys2Proof.Machine.execVred t s
  | .vcmp t => Sys2Proof.Machine.execVcmp t s
  | .smup t => Sys2Proof.Machine.execSmup t s
  | .vaddm t => Sys2Proof.Machine.execVaddm t s
  | .setvl t => Sys2Proof.Machine.execSetvl t s
  | .rationReq t => Sys2Proof.Machine.execRationReq t s
  | .rationRel t => Sys2Proof.Machine.execRationRel t s
  | .fence t => Sys2Proof.Machine.execFence t s
  | .arrPut t => Sys2Proof.Machine.execArrPut t s
  | .arrRun t => Sys2Proof.Machine.execArrRun t s
  | .arrAbort t => Sys2Proof.Machine.execArrAbort t s
  | .arrStat t => Sys2Proof.Machine.execArrStat t s
  | .arrWait t => Sys2Proof.Machine.execArrWait t s
  | .csrr t => Sys2Proof.Machine.execCsrr t s
  | .csrw t => Sys2Proof.Machine.execCsrw t s
  | .tbar t => Sys2Proof.Machine.execTbar t s
  | .yield t => Sys2Proof.Machine.execYield t s
  | .pchk t => Sys2Proof.Machine.execPchk t s
  | .endCmd t => Sys2Proof.Machine.execEndCmd t s
  | .loadTile f n => Sys2Proof.Machine.execLoadTile f n s
  | .swap f n => Sys2Proof.Machine.execSwap f n s
  | .stream f n => Sys2Proof.Machine.execStream f n s
  | .drain f n => Sys2Proof.Machine.execDrain f n s
  | .chain f n => Sys2Proof.Machine.execChain f n s
  | .arrayEnd f n => Sys2Proof.Machine.execArrayEnd f n s
  | .arrayNop f n => Sys2Proof.Machine.execArrayNop f n s
  | .shiftComplete f n => Sys2Proof.Machine.execShiftComplete f n s
  | .abortComplete f n => Sys2Proof.Machine.execAbortComplete f n s
  | .arrayStall f n => Sys2Proof.Machine.execArrayStall f n s
  | .dmaElementDone f slot w => Sys2Proof.Machine.execDmaElementDone f slot w s
  | .pageWalk f slot pair first last core off => Sys2Proof.Machine.execPageWalk f slot pair first last core off s
  | .pageQuery fn word value => Sys2Proof.Machine.execPageQuery fn word value s
  | .partialArrive c slot pair pos src lvl idx => Sys2Proof.Machine.execPartialArrive c slot pair pos src lvl idx s
  | .ringPiece c f slot layer row src pages => Sys2Proof.Machine.execRingPiece c f slot layer row src pages s
  | .sampleRow c f slot pos logits poison => Sys2Proof.Machine.execSampleRow c f slot pos logits poison s
  | .mergeRecord c slot pos pass lvl idx => Sys2Proof.Machine.execMergeRecord c slot pos pass lvl idx s
  | .pass2Start c slot pos f => Sys2Proof.Machine.execPass2Start c slot pos f s
  | .generatorTest fn off value => Sys2Proof.Machine.execGeneratorTest fn off value s
  | .generate camp seq tokens readBad => Sys2Proof.Machine.execGenerate camp seq tokens readBad s
  | .forkGroup camp seq tokens readBad => Sys2Proof.Machine.execForkGroup camp seq tokens readBad s
  | .score camp seq tokens readBad => Sys2Proof.Machine.execScore camp seq tokens readBad s
  | .cancel camp seq => Sys2Proof.Machine.execCancel camp seq s
  | .setPolicy camp seq => Sys2Proof.Machine.execSetPolicy camp seq s
  | .fenceDescriptor camp seq => Sys2Proof.Machine.execFenceDescriptor camp seq s
  | .stats camp seq => Sys2Proof.Machine.execStats camp seq s
  | .slotQuery fn value => Sys2Proof.Machine.execSlotQuery fn value s
  | .phase camp seq table readBad => Sys2Proof.Machine.execPhase camp seq table readBad s
  | .phaseDrainLimit c => Sys2Proof.Machine.execPhaseDrainLimit c s
  | .refresh camp seq covered => Sys2Proof.Machine.execRefresh camp seq covered s
  | .refreshComplete camp seq own scales gathered failure => Sys2Proof.Machine.execRefreshComplete camp seq own scales gathered failure s
  | .loadModel camp seq m => Sys2Proof.Machine.execLoadModel camp seq m s
  | .unloadModel camp seq => Sys2Proof.Machine.execUnloadModel camp seq s
  | .copy camp seq => Sys2Proof.Machine.execCopy camp seq s
  | .hostLinkUp p speed width flit => Sys2Proof.Machine.execHostLinkUp p speed width flit s
  | .hostLinkDown p ltssm => Sys2Proof.Machine.execHostLinkDown p ltssm s
  | .functionLevelReset fn => Sys2Proof.Machine.execFunctionLevelReset fn s
  | .vfEnableClear p => Sys2Proof.Machine.execVfEnableClear p s
  | .hotReset p disable => Sys2Proof.Machine.execHotReset p disable s
  | .hostReadCompletion w status addr data => Sys2Proof.Machine.execHostReadCompletion w status addr data s
  | .hostReadTimeout w addr => Sys2Proof.Machine.execHostReadTimeout w addr s
  | .barWritePoisoned fn => Sys2Proof.Machine.execBarWritePoisoned fn s
  | .msixHoldoff fn v => Sys2Proof.Machine.execMsixHoldoff fn v s
  | .msixUnmask fn v => Sys2Proof.Machine.execMsixUnmask fn v s
  | .ideCheckFail p strm => Sys2Proof.Machine.execIdeCheckFail p strm s
  | .doorbell fn off idx covers => Sys2Proof.Machine.execDoorbell fn off idx covers s
  | .ringEnable fn k value => Sys2Proof.Machine.execRingEnable fn k value s
  | .ringDisable fn k value => Sys2Proof.Machine.execRingDisable fn k value s
  | .descriptorFetch fn ring raw => Sys2Proof.Machine.execDescriptorFetch fn ring raw s
  | .recordWrite fn ring => Sys2Proof.Machine.execRecordWrite fn ring s
  | .ygLaneRequest p => Sys2Proof.Machine.execYgLaneRequest p s
  | .ygPortUp p peer peerPort shape delay eye lane hits => Sys2Proof.Machine.execYgPortUp p peer peerPort shape delay eye lane hits s
  | .ygTrainRetry p => Sys2Proof.Machine.execYgTrainRetry p s
  | .ygRetrain p cause lane => Sys2Proof.Machine.execYgRetrain p cause lane s
  | .ygPortHeld p => Sys2Proof.Machine.execYgPortHeld p s
  | .ygHoldEnd p => Sys2Proof.Machine.execYgHoldEnd p s
  | .codewordReceive p seq replay good corrected flits => Sys2Proof.Machine.execCodewordReceive p seq replay good corrected flits s
  | .linkFlit p room => Sys2Proof.Machine.execLinkFlit p room s
  | .yilgilPacket p msg room => Sys2Proof.Machine.execYilgilPacket p msg room s
  | .domainTimeMessage root offset => Sys2Proof.Machine.execDomainTimeMessage root offset s
  | .domainUnlocked => Sys2Proof.Machine.execDomainUnlocked s
  | .collQueueEntry c f => Sys2Proof.Machine.execCollQueueEntry c f s
  | .collPartComplete part slot failed others data => Sys2Proof.Machine.execCollPartComplete part slot failed others data s
  | .collLate part rank field => Sys2Proof.Machine.execCollLate part rank field s
  | .collAbortMessage c id f rank field sender => Sys2Proof.Machine.execCollAbortMessage c id f rank field sender s
  | .collSettle c id => Sys2Proof.Machine.execCollSettle c id s
  | .consentCopy mc fn => Sys2Proof.Machine.execConsentCopy mc fn s
  | .writeStage mc fn off data => Sys2Proof.Machine.execWriteStage mc fn off data s
  | .propose mc fn => Sys2Proof.Machine.execPropose mc fn s
  | .countersign mc fn data => Sys2Proof.Machine.execCountersign mc fn data s
  | .consentAbort mc fn => Sys2Proof.Machine.execConsentAbort mc fn s
  | .getStatus => Sys2Proof.Machine.execGetStatus s
  | .readImage image off len => Sys2Proof.Machine.execReadImage image off len s
  | .consentWindowExpiry => Sys2Proof.Machine.execConsentWindowExpiry s
  | .consentApply storeOk => Sys2Proof.Machine.execConsentApply storeOk s
  | .campResetCmd fn value => Sys2Proof.Machine.execCampResetCmd fn value s
  | .campResetDone c => Sys2Proof.Machine.execCampResetDone c s
  | .campResetStuck c => Sys2Proof.Machine.execCampResetStuck c s
  | .mctpControl typ cmd arg => Sys2Proof.Machine.execMctpControl typ cmd arg s
  | .pldmGetSensor kind f => Sys2Proof.Machine.execPldmGetSensor kind f s
  | .pldmSetWaferCap value => Sys2Proof.Machine.execPldmSetWaferCap value s
  | .pldmFirmwareUpdate signed svn => Sys2Proof.Machine.execPldmFirmwareUpdate signed svn s
  | .pldmPowerOff => Sys2Proof.Machine.execPldmPowerOff s
  | .pldmPowerCycle vcore => Sys2Proof.Machine.execPldmPowerCycle vcore s
  | .pldmWaferReset => Sys2Proof.Machine.execPldmWaferReset s
  | .getDigests doe => Sys2Proof.Machine.execGetDigests doe s
  | .getCertificate doe off len => Sys2Proof.Machine.execGetCertificate doe off len s
  | .challenge doe => Sys2Proof.Machine.execChallenge doe s
  | .getMeasurements doe index => Sys2Proof.Machine.execGetMeasurements doe index s
  | .keyExchange doe port => Sys2Proof.Machine.execKeyExchange doe port s
  | .finish doe port => Sys2Proof.Machine.execFinish doe port s
  | .powerOn vin iin pin aux vcore => Sys2Proof.Machine.execPowerOn vin iin pin aux vcore s
  | .inputUndervolt vin => Sys2Proof.Machine.execInputUndervolt vin s
  | .inputRecover vin => Sys2Proof.Machine.execInputRecover vin s
  | .undervoltPowerOff vin => Sys2Proof.Machine.execUndervoltPowerOff vin s
  | .shuntCatch watts => Sys2Proof.Machine.execShuntCatch watts s
  | .powerOver watts iin slew => Sys2Proof.Machine.execPowerOver watts iin slew s
  | .coolantSample inlet outlet flow => Sys2Proof.Machine.execCoolantSample inlet outlet flow s
  | .logicThermalSample temps => Sys2Proof.Machine.execLogicThermalSample temps s
  | .logicThrottleStep => Sys2Proof.Machine.execLogicThrottleStep s
  | .logicSensorsSilent f => Sys2Proof.Machine.execLogicSensorsSilent f s
  | .perstAssert p => Sys2Proof.Machine.execPerstAssert p s
  | .perstDeassert p => Sys2Proof.Machine.execPerstDeassert p s
  | .perstStuck p => Sys2Proof.Machine.execPerstStuck p s
  | .forceThrottleAssert => Sys2Proof.Machine.execForceThrottleAssert s
  | .forceThrottleDeassert => Sys2Proof.Machine.execForceThrottleDeassert s
  | .forceThrottleHeld => Sys2Proof.Machine.execForceThrottleHeld s
  | .fieldStageFault f rail watts => Sys2Proof.Machine.execFieldStageFault f rail watts s
  | .resetCtrl fn value => Sys2Proof.Machine.execResetCtrl fn value s
  | .startupStageDone w => Sys2Proof.Machine.execStartupStageDone w s
  | .bootContinue fn value us => Sys2Proof.Machine.execBootContinue fn value us s
  | .fwStopped => Sys2Proof.Machine.execFwStopped s
  | .dbgWindowAccess fn off len write data => Sys2Proof.Machine.execDbgWindowAccess fn off len write data s
  | .dbgCaptureWrite fn value => Sys2Proof.Machine.execDbgCaptureWrite fn value s
  | .streamDone f n => Sys2Proof.Machine.execStreamDone f n s
  | .drainDone f n => Sys2Proof.Machine.execDrainDone f n s
  | .ygTrainingFailed p cause found => Sys2Proof.Machine.execYgTrainingFailed p cause found s
  | .configurationRequest fn req => Sys2Proof.Machine.execConfigurationRequest fn req s
  | .ideKm p strm lo hi => Sys2Proof.Machine.execIdeKm p strm lo hi s
  | .hostLinkRecovery p replays corr => Sys2Proof.Machine.execHostLinkRecovery p replays corr s
  | .pldmEventFetch => Sys2Proof.Machine.execPldmEventFetch s
  | .shuntTaperEnd => Sys2Proof.Machine.execShuntTaperEnd s
  | .perstGlitch => Sys2Proof.Machine.execPerstGlitch s
  | .forceThrottleGlitch => Sys2Proof.Machine.execForceThrottleGlitch s

end Sys2Proof.Machine
end

