-- ==== Sys2Proof/Machine/Step.lean ====
section
/-! DEFINITION. The step: the command at the front of the queue runs; on an empty queue the block idles (log entry 1). -/
namespace Sys2Proof.Machine

-- Log entries 1 (DESIGN CHOICE), 183 (DESIGN CHOICE).
/-- Take the command at the front of the queue and run it with the queue's rest; idle on an empty queue. -/
def step (s : State) : Host.Outcome State Fault Refusal :=
  match s.pending with
  | [] => .next s
  | c :: cs => exec c { s with pending := cs }

-- Log entry 1 (DESIGN CHOICE).
/-- The state with the command that a word spells in front of its queue; no word of the table spells one, so the state as
it is. -/
def State.withFetchWord (s : State) (nbits w : Nat) : State :=
  match Sys2Proof.decodeTableWord nbits w with
  | some c => { s with pending := c :: s.pending }
  | none => s

end Sys2Proof.Machine
end

