-- ==== Sys2Proof/WellFormed.lean ====
section
/-! DEFINITION. Well-formed commands: every operand lies in the range its unit or its field has. -/
namespace Sys2Proof

/-- Has a kernel cores, threads, an aligned entry in its program, and room for the program and its stacks in local memory (R196)? -/
def KernelWork.wf (k : KernelWork) : Bool :=
  decide (0 < k.cores) && decide (k.cores < 2 ^ 288) && decide (1 ≤ k.threads) && decide (k.threads ≤ 4) && decide (k.arg < 2 ^ 64) &&
  decide (k.entry % 4 = 0) && decide (k.entry < 4 * k.words.length) && decide (k.stackKib ≤ 32) &&
  decide (4 * k.words.length + 1024 * k.threads * k.stackKib ≤ 262144) && k.words.all (fun w => decide (w < 2 ^ 32)) && k.rows.all (fun s => decide (s < 4096))

/-- Is every operand in its range? -/
def Instr.wf (i : Instr) : Bool :=
  match i with
  | .registerWrite fn off len be data => decide (fn < 64) && decide (off < 2 ^ 26) && decide (len < 2 ^ 12) && decide (be < 2 ^ 64) && decide (data < 2 ^ 512)
  | .lowWordRead fn off len => decide (fn < 64) && decide (off < 2 ^ 26) && decide (len < 2 ^ 12)
  | .highWordWrite fn off value => decide (fn < 64) && decide (off < 2 ^ 32) && decide (value < 2 ^ 32)
  | .lowWordWrite fn off value => decide (fn < 64) && decide (off < 2 ^ 32) && decide (value < 2 ^ 32)
  | .flitReceive site port cls leg err flit _ => decide (site < 104) && decide (port < 5) && decide (cls < 4) && decide (leg < 2) && decide (err < 3) && decide (flit < 2 ^ 256)
  | .routeQuery fn value => decide (fn < 64) && decide (value < 2 ^ 32)
  | .timeSync _ => true
  | .timeUnlocked site => decide (site < 104)
  | .linkHeartbeat site port _ => decide (site < 104) && decide (port < 5)
  | .fabricStall site port cls leg => decide (site < 104) && decide (port < 5) && ((decide (cls < 4) && decide (leg < 2)) || (cls == 0xFF && leg == 0xFF))
  | .stepTokenReceive c f work _ => decide (c < 16) && decide (f < 96) && work.kernels.all KernelWork.wf
  | .stepDone c f _ => decide (c < 16) && decide (f < 96)
  | .stepBoundary c _ _ => decide (c < 16)
  | .rationRequest f unit thread sub cls camp amount _ => decide (f < 96) && decide (unit < 1024) && decide (thread < 256) && decide (sub < 64) && decide (cls < 3) && decide (camp < 16) && decide (amount < 2 ^ 16)
  | .rationTick => true
  | .rationRelease f unit thread sub => decide (f < 96) && decide (unit < 1024) && decide (thread < 256) && decide (sub < 64)
  | .loanExpiry f => decide (f < 96)
  | .rationStarved f unit thread sub => decide (f < 96) && decide (unit < 1024) && decide (thread < 256) && decide (sub < 64)
  | .unplannedDrop f unit thread sub => decide (f < 96) && decide (unit < 1024) && decide (thread < 256) && decide (sub < 64)
  | .campIdleHold c => decide (c < 16)
  | .wideHoldExpiry f core => decide (f < 96) && decide (core < 288)
  | .arrayHoldExpiry f n => decide (f < 96) && decide (n < 12)
  | .burstIdleExpiry f p => decide (f < 96) && decide (p < 4)
  | .memoryAccess _ _ _ _ => true
  | .moveStart f g dst slot => decide (f < 96) && decide (g < 2 ^ 25) && decide (dst < 2 ^ 21) && decide (slot < 32)
  | .moveSwitch f g _ => decide (f < 96) && decide (g < 2 ^ 25)
  | .moveOldFrameFree f tier n => decide (f < 96) && decide (tier < 4) && decide (n < 2 ^ 21)
  | .expertReadyReport c _ _ f => decide (c < 16) && decide (f < 96)
  | .substituteDeadline c _ _ => decide (c < 16)
  | .tierLate f c n _ key => decide (f < 96) && decide (c < 16) && decide (n < 2 ^ 16) && decide (key < 2 ^ 32)
  | .hintMap camp seq _ => decide (camp < 16) && decide (seq < 2 ^ 32)
  | .hintUnmap camp seq => decide (camp < 16) && decide (seq < 2 ^ 32)
  | .hintSet camp seq => decide (camp < 16) && decide (seq < 2 ^ 32)
  | .dirQuery fn value => decide (fn < 64) && decide (value < 2 ^ 32)
  | .refreshDue f n => decide (f < 96) && decide (n < 32)
  | .stackThermalSample f temp _ => decide (f < 96) && decide (temp < 256)
  | .graceEnd f => decide (f < 96)
  | .stackFault f _ => decide (f < 96)
  | .marginScan fn f value => decide (fn < 64) && decide (f < 96) && decide (value < 2 ^ 32)
  | .marginScanDone f _ => decide (f < 96)
  | .repairQuery fn f value => decide (fn < 64) && decide (f < 96) && decide (value < 2 ^ 32)
  | .softRowRepair fn f value => decide (fn < 64) && decide (f < 96) && decide (value < 2 ^ 32)
  | .zeroFillDone f tier n => decide (f < 96) && decide (tier < 4) && decide (n < 2 ^ 21)
  | .weederRead f mem pattern check => decide (f < 96) && decide (mem < 3) && decide (pattern < 2 ^ 256) && decide (check < 2 ^ 32)
  | .weederLapSlow f mem => decide (f < 96) && decide (mem < 3)
  | .flipArm fn value => decide (fn < 64) && decide (value < 2 ^ 32)
  | .candQuery fn value => decide (fn < 64) && decide (value < 2 ^ 32)
  | .installCreate camp seq => decide (camp < 16) && decide (seq < 2 ^ 32)
  | .installWrite camp seq => decide (camp < 16) && decide (seq < 2 ^ 32)
  | .installSeal camp seq => decide (camp < 16) && decide (seq < 2 ^ 32)
  | .installErase camp seq => decide (camp < 16) && decide (seq < 2 ^ 32)
  | .unitProgramDone u _ => decide (u < 2 ^ 31)
  | .cellarReadComplete chan retries outcome _ pct => decide (chan < 128) && decide (retries < 9) && decide (outcome < 3) && decide (pct < 128)
  | .relocationStart chan l => decide (chan < 128) && decide (l < 16384)
  | .relocationSwitch chan l _ => decide (chan < 128) && decide (l < 16384)
  | .blockErase chan p _ => decide (chan < 128) && decide (p < 20480)
  | .cellarThermalSample k temp => decide (k < 8) && decide (temp < 256)
  | .cellarMounted k chans _ => decide (k < 8) && decide (chans < 2 ^ 16)
  | .readCountSave k => decide (k < 8)
  | .cellarCcDark k chan => decide (k < 8) && decide (chan < 32)
  | .imageQuery fn value => decide (fn < 64) && decide (value < 2 ^ 32)
  | .job camp seq => decide (camp < 16) && decide (seq < 2 ^ 32)
  | .jobLaunch camp seq => decide (camp < 16) && decide (seq < 2 ^ 32)
  | .jobStart camp seq => decide (camp < 16) && decide (seq < 2 ^ 32)
  | .jobComplete camp seq => decide (camp < 16) && decide (seq < 2 ^ 32)
  | .watchdog camp seq => decide (camp < 16) && decide (seq < 2 ^ 32)
  | .regfileParity t => decide (t < 110592)
  | .loadReturn _ => true
  | .writeAck _ => true
  | .alu t => decide (t < 110592)
  | .addi t => decide (t < 110592)
  | .andi t => decide (t < 110592)
  | .ori t => decide (t < 110592)
  | .xori t => decide (t < 110592)
  | .shi t => decide (t < 110592)
  | .liq t => decide (t < 110592)
  | .cmp t => decide (t < 110592)
  | .fpu t => decide (t < 110592)
  | .plog t => decide (t < 110592)
  | .ld t => decide (t < 110592)
  | .st t => decide (t < 110592)
  | .vld t => decide (t < 110592)
  | .vst t => decide (t < 110592)
  | .vlds t => decide (t < 110592)
  | .vsts t => decide (t < 110592)
  | .atom t => decide (t < 110592)
  | .madd t => decide (t < 110592)
  | .br t => decide (t < 110592)
  | .call t => decide (t < 110592)
  | .jr t => decide (t < 110592)
  | .vop t => decide (t < 110592)
  | .vops t => decide (t < 110592)
  | .vred t => decide (t < 110592)
  | .vcmp t => decide (t < 110592)
  | .smup t => decide (t < 110592)
  | .vaddm t => decide (t < 110592)
  | .setvl t => decide (t < 110592)
  | .rationReq t => decide (t < 110592)
  | .rationRel t => decide (t < 110592)
  | .fence t => decide (t < 110592)
  | .arrPut t => decide (t < 110592)
  | .arrRun t => decide (t < 110592)
  | .arrAbort t => decide (t < 110592)
  | .arrStat t => decide (t < 110592)
  | .arrWait t => decide (t < 110592)
  | .csrr t => decide (t < 110592)
  | .csrw t => decide (t < 110592)
  | .tbar t => decide (t < 110592)
  | .yield t => decide (t < 110592)
  | .pchk t => decide (t < 110592)
  | .endCmd t => decide (t < 110592)
  | .loadTile f n => decide (f < 96) && decide (n < 12)
  | .swap f n => decide (f < 96) && decide (n < 12)
  | .stream f n => decide (f < 96) && decide (n < 12)
  | .drain f n => decide (f < 96) && decide (n < 12)
  | .chain f n => decide (f < 96) && decide (n < 12)
  | .arrayEnd f n => decide (f < 96) && decide (n < 12)
  | .arrayNop f n => decide (f < 96) && decide (n < 12)
  | .shiftComplete f n => decide (f < 96) && decide (n < 12)
  | .abortComplete f n => decide (f < 96) && decide (n < 12)
  | .arrayStall f n => decide (f < 96) && decide (n < 12)
  | .dmaElementDone f slot _ => decide (f < 96) && decide (slot < 32)
  | .pageWalk f slot pair first last core off => decide (f < 96) && decide (slot < 2 ^ 16) && decide (pair < 2 ^ 16) && decide (first < 2 ^ 13) && decide (last < 2 ^ 13) && decide (core < 288) && decide (off < 2 ^ 18)
  | .pageQuery fn word value => decide (fn < 64) && decide (word < 2) && decide (value < 2 ^ 32)
  | .partialArrive c slot pair pos src lvl idx => decide (c < 16) && decide (slot < 2 ^ 16) && decide (pair < 2 ^ 16) && decide (pos < 2 ^ 21) && decide (src < 16) && decide (lvl < 8) && decide (idx < 96)
  | .ringPiece c f slot layer row src _ => decide (c < 16) && decide (f < 96) && decide (slot < 2 ^ 16) && decide (layer < 2 ^ 16) && decide (row < 2 ^ 13) && decide (src < 16)
  | .sampleRow c f slot pos _ _ => decide (c < 16) && decide (f < 96) && decide (slot < 2 ^ 16) && decide (pos < 2 ^ 21)
  | .mergeRecord c slot pos pass lvl idx => decide (c < 16) && decide (slot < 2 ^ 16) && decide (pos < 2 ^ 21) && decide (pass < 4) && decide (lvl < 8) && decide (idx < 96)
  | .pass2Start c slot pos f => decide (c < 16) && decide (slot < 2 ^ 16) && decide (pos < 2 ^ 21) && decide (f < 96)
  | .generatorTest fn off value => decide (fn < 64) && decide (off < 2 ^ 26) && decide (value < 2 ^ 32)
  | .generate camp seq _ readBad => decide (camp < 16) && decide (seq < 2 ^ 32) && decide (readBad < 256)
  | .forkGroup camp seq _ readBad => decide (camp < 16) && decide (seq < 2 ^ 32) && decide (readBad < 256)
  | .score camp seq _ readBad => decide (camp < 16) && decide (seq < 2 ^ 32) && decide (readBad < 256)
  | .cancel camp seq => decide (camp < 16) && decide (seq < 2 ^ 32)
  | .setPolicy camp seq => decide (camp < 16) && decide (seq < 2 ^ 32)
  | .fenceDescriptor camp seq => decide (camp < 16) && decide (seq < 2 ^ 32)
  | .stats camp seq => decide (camp < 16) && decide (seq < 2 ^ 32)
  | .slotQuery fn value => decide (fn < 64) && decide (value < 2 ^ 32)
  | .phase camp seq _ readBad => decide (camp < 16) && decide (seq < 2 ^ 32) && decide (readBad < 256)
  | .phaseDrainLimit c => decide (c < 16)
  | .refresh camp seq _ => decide (camp < 16) && decide (seq < 2 ^ 32)
  | .refreshComplete camp seq _ _ _ _ => decide (camp < 16) && decide (seq < 2 ^ 32)
  | .loadModel camp seq _ => decide (camp < 16) && decide (seq < 2 ^ 32)
  | .unloadModel camp seq => decide (camp < 16) && decide (seq < 2 ^ 32)
  | .copy camp seq => decide (camp < 16) && decide (seq < 2 ^ 32)
  | .hostLinkUp p speed width _ => decide (p < 4) && decide (speed < 8) && decide (width < 64)
  | .hostLinkDown p ltssm => decide (p < 4) && decide (ltssm < 8)
  | .functionLevelReset fn => decide (fn < 64)
  | .vfEnableClear p => decide (p < 4)
  | .hotReset p _ => decide (p < 4)
  | .hostReadCompletion _ status addr _ => decide (status < 5) && decide (addr < 2 ^ 64)
  | .hostReadTimeout _ addr => decide (addr < 2 ^ 64)
  | .barWritePoisoned fn => decide (fn < 64)
  | .msixHoldoff fn v => decide (fn < 64) && decide (v < 2048)
  | .msixUnmask fn v => decide (fn < 64) && decide (v < 2048)
  | .ideCheckFail p strm => decide (p < 4) && decide (strm < 8)
  | .doorbell fn off idx _ => decide (fn < 64) && decide (off < 2 ^ 12) && decide (idx < 2 ^ 16)
  | .ringEnable fn k value => decide (fn < 64) && decide (k < 4096) && decide (value < 2 ^ 32)
  | .ringDisable fn k value => decide (fn < 64) && decide (k < 4096) && decide (value < 2 ^ 32)
  | .descriptorFetch fn i raw => decide (fn < 64) && decide (i < 64) && decide (raw < 2 ^ 1024)
  | .recordWrite fn i => decide (fn < 64) && decide (i < 64)
  | .ygLaneRequest p => decide (p < 24)
  | .ygPortUp p peer peerPort shape delay eye lane hits => decide (p < 24) && decide (peer < 256) && decide (peerPort < 24) && decide (shape < 2 ^ 12) && decide (delay < 2 ^ 16) && decide (eye < 2 ^ 30) && decide (lane < 8) && decide (hits < 2 ^ 32)
  | .ygTrainRetry p => decide (p < 24)
  | .ygRetrain p cause lane => decide (p < 24) && decide (cause < 8) && decide (lane < 8)
  | .ygPortHeld p => decide (p < 24)
  | .ygHoldEnd p => decide (p < 24)
  | .codewordReceive p seq _ _ _ _ => decide (p < 24) && decide (seq < 4096)
  | .linkFlit p _ => decide (p < 24)
  | .yilgilPacket p _ _ => decide (p < 24)
  | .domainTimeMessage root _ => decide (root < 256)
  | .domainUnlocked => true
  | .collQueueEntry c f => decide (c < 16) && decide (f < 96)
  | .collPartComplete _ slot failed _ _ => decide (slot < 32) && decide (failed < 256)
  | .collLate _ rank field => decide (rank < 256) && decide (field < 256)
  | .collAbortMessage c id f rank field sender => decide (c < 16) && decide (id < 2 ^ 32) && decide (f < 96) && decide (rank < 256) && decide (field < 256) && decide (sender < 256)
  | .collSettle c id => decide (c < 16) && decide (id < 2 ^ 32)
  | .consentCopy _ fn => decide (fn < 64)
  | .writeStage _ fn _ _ => decide (fn < 64)
  | .propose _ fn => decide (fn < 64)
  | .countersign _ fn _ => decide (fn < 64)
  | .consentAbort _ fn => decide (fn < 64)
  | .getStatus => true
  | .readImage image _ _ => decide (image < 256)
  | .consentWindowExpiry => true
  | .consentApply _ => true
  | .campResetCmd fn value => decide (fn < 64) && decide (value < 2 ^ 32)
  | .campResetDone c => decide (c < 16)
  | .campResetStuck c => decide (c < 16)
  | .mctpControl typ cmd arg => decide (typ < 256) && decide (cmd < 256) && decide (arg < 256)
  | .pldmGetSensor kind f => decide (kind < 6) && decide (f < 96)
  | .pldmSetWaferCap value => decide (value < 2 ^ 32)
  | .pldmFirmwareUpdate _ svn => decide (svn < 65536)
  | .pldmPowerOff => true
  | .pldmPowerCycle vcore => decide (vcore < 4096)
  | .pldmWaferReset => true
  | .getDigests _ => true
  | .getCertificate _ _ _ => true
  | .challenge _ => true
  | .getMeasurements _ index => decide (index < 256)
  | .keyExchange _ port => decide (port < 4)
  | .finish _ port => decide (port < 4)
  | .powerOn vin iin pin aux vcore => decide (vin < 65536) && decide (iin < 65536) && decide (pin < 65536) && decide (aux < 65536) && decide (vcore < 4096)
  | .inputUndervolt vin => decide (vin < 65536)
  | .inputRecover vin => decide (vin < 65536)
  | .undervoltPowerOff vin => decide (vin < 65536)
  | .shuntCatch watts => decide (watts < 65536)
  | .powerOver watts iin slew => decide (watts < 65536) && decide (iin < 65536) && decide (slew < 65536)
  | .coolantSample inlet outlet flow => decide (inlet < 256) && decide (outlet < 256) && decide (flow < 65536)
  | .logicThermalSample _ => true
  | .logicThrottleStep => true
  | .logicSensorsSilent f => decide (f < 96)
  | .perstAssert p => decide (p < 4)
  | .perstDeassert p => decide (p < 4)
  | .perstStuck p => decide (p < 4)
  | .forceThrottleAssert => true
  | .forceThrottleDeassert => true
  | .forceThrottleHeld => true
  | .fieldStageFault f rail watts => decide (f < 96) && decide (rail < 4) && decide (watts < 65536)
  | .resetCtrl fn value => decide (fn < 64) && decide (value < 2 ^ 32)
  | .startupStageDone _ => true
  | .bootContinue fn value us => decide (fn < 64) && decide (value < 2 ^ 32) && decide (us < 2 ^ 32)
  | .fwStopped => true
  | .dbgWindowAccess fn off len _ data => decide (fn < 64) && decide (off < 2 ^ 28) && decide (len < 2 ^ 12) && decide (data < 2 ^ 512)
  | .dbgCaptureWrite fn value => decide (fn < 64) && decide (value < 2 ^ 32)
  | .streamDone f n => decide (f < 96) && decide (n < 12)
  | .drainDone f n => decide (f < 96) && decide (n < 12)
  | .ygTrainingFailed p cause found => decide (p < 24) && decide (cause < 3) && decide (found < 256)
  | .configurationRequest fn _ => decide (fn < 64)
  | .ideKm p strm lo hi => decide (p < 4) && decide (strm < 8) && decide (lo < 16) && decide (hi < 16)
  | .hostLinkRecovery p _ _ => decide (p < 4)
  | .pldmEventFetch => true
  | .shuntTaperEnd => true
  | .perstGlitch => true
  | .forceThrottleGlitch => true

end Sys2Proof
end

