-- ==== Sys2Proof/Safety.lean ====
section
/-! DEFINITION. The terms that claims use: a safe step, the canonical form of the memories, a thread that may issue a word, a descriptor
whose work may start, a register access that its port takes. -/
namespace Sys2Proof.Machine

/-- The command at the front of the queue answers a next state. -/
def Safe (s : State) : Prop := ∃ t, step s = .next t

-- Log entry 5 (DESIGN CHOICE).
/-- The canonical form of the memories: bytes, poison words, error patterns, cached lines, pseudo-LRU bits. -/
def MemPart.wf (m : MemPart) : Bool :=
  sparseWf (fun _ => 0) m.bytes && sparseWf (fun _ => false) m.poison && sparseWf (fun _ => 0) m.bad && sparseWf (fun _ => none) m.lines &&
    sparseWf (fun _ => 0) m.plru

/-- The block once thread `t` has the issue slot of its core and its fetch has decoded the word at its PC (R151, R195). -/
def AtIssue (b : Block) (t : Nat) : Block := (b.issued t).check (b.fetchAt t) 4

/-- Does thread `t` issue next on its core, and is its word, as its fetch decodes it, a legal word of a row (R195, R201, R206): it holds no
poison, and it is a listed word of the row with legal fields at an aligned PC? -/
def Issues (b : Block) (t : Nat) (row : Nat → Bool) : Bool :=
  let x := AtIssue b t
  let w := x.fetch t
  let th := x.thread t
  decide (b.issuer (keyField t) (keyCore t) = some t) && !x.fetchPoison t && listed w && row w && legal w && shapeFits w th.vl th.ew &&
    decide (th.pc % 4 = 0)

/-- Does an element of `n` bytes run in the field's DMA engine now (R560): one shorter than 4 KiB at once, another in its slot and under the slot's
grant of 8 rations? -/
def Runs (b : Block) (f slot n : Nat) (w : SlotWork) : Bool :=
  decide (n < 4096) || match b.slotUse f slot with
    | some u => decide (u.work = w) && b.covers f (dmaSlot slot) 8
    | none => false

/-- Is `d` the consumed descriptor of a camp and number, with this opcode and its work not started? -/
def Waits (b : Block) (camp seq op : Nat) (d : Desc) : Prop := b.desc? camp seq = some d ∧ d.op = op ∧ d.started = false

/-- Does a TLP of the function reach its BARs (R377, R378, R392)? -/
def Reaches (b : Block) (fn : Nat) : Bool := !b.ideDrops fn && b.fnDecodes fn

/-- May the function write the word of BAR0 with the TLP that reaches it (R380)? -/
def Writes (b : Block) (fn off : Nat) : Bool := Reaches b fn && b.mayWrite fn off

/-- A desk's grants and queue fit each other (R65, R66, R70, R80): a requester holds one grant, and waits for one at most; what a request has got is
not more than its amount; a step of a clock back up is one sixteenth of a grant that its engine holds below full rate. -/
structure Desk.sound (d : Desk) : Prop where
  holders : (d.grants.map (·.who)).Nodup
  waiters : (d.queue.map fun r => (r.who, r.clock)).Nodup
  within : ∀ r ∈ d.queue, r.handed + r.ramped ≤ r.amount
  fresh : ∀ r ∈ d.queue, r.clock = false → ∀ g ∈ d.grants, g.who ≠ r.who
  steps : ∀ r ∈ d.queue, r.clock = true → ∃ g ∈ d.grants, g.who = r.who ∧ g.k < 16 ∧ r.amount = atFraction g.amount (g.k + 1) - g.counted

/-- May the function reach BAR4 now (R382, R546)? -/
def Debugs (b : Block) (fn : Nat) : Bool := Reaches b fn && b.mayDebug fn

end Sys2Proof.Machine

namespace Sys2Proof
open Machine

/-- The function and the BAR0 offset that a command writes, for every command that is a write of BAR0 by a function. -/
def Instr.barWrites (c : Instr) : Option (Nat × Nat) :=
  match c with
  | .registerWrite fn off _ _ _ => some (fn, off)
  | .lowWordWrite fn off _ => if off < Machine.bar4 then some (fn, off) else none
  | .highWordWrite fn off _ => if off < Machine.bar4 then some (fn, off) else none
  | .routeQuery fn _ => some (fn, 0x400008)
  | .dirQuery fn _ => some (fn, 0x500014)
  | .flipArm fn _ => some (fn, 0x700024)
  | .candQuery fn _ => some (fn, 0x700060)
  | .imageQuery fn _ => some (fn, 0x800010)
  | .pageQuery fn word _ => some (fn, if word = 0 then 0xA00014 else 0xA00018)
  | .generatorTest fn off _ => some (fn, off)
  | .slotQuery fn _ => some (fn, 0xC00010)
  | .ringEnable fn k _ => some (fn, (F.ringCtrlEnable k).off)
  | .ringDisable fn k _ => some (fn, (F.ringCtrlEnable k).off)
  | .marginScan fn f _ => some (fn, 0x1020010 + 0x80000 * f)
  | .repairQuery fn f _ => some (fn, 0x1020018 + 0x80000 * f)
  | .softRowRepair fn f _ => some (fn, 0x1020018 + 0x80000 * f)
  | .resetCtrl fn _ => some (fn, 0x100000)
  | .bootContinue fn _ _ => some (fn, 0x100008)
  | .campResetCmd fn _ => some (fn, 0x200080)
  | .consentCopy false fn => some (fn, 0x200000)
  | .writeStage false fn _ _ => some (fn, 0x200000)
  | .propose false fn => some (fn, 0x200000)
  | .countersign false fn _ => some (fn, 0x200000)
  | .consentAbort false fn => some (fn, 0x200000)
  | _ => none

/-- The commands of the consent interface (R474 to R485) but for the application of a change. -/
def Instr.ofConsent (c : Instr) : Bool :=
  match c with
  | .consentCopy .. | .writeStage .. | .propose .. | .countersign .. | .consentAbort .. | .getStatus | .readImage .. | .consentWindowExpiry => true
  | _ => false

/-- The thread whose word a command runs (R201). -/
def Instr.word? (c : Instr) : Option Nat :=
  match c with
  | .alu t | .addi t | .andi t | .ori t | .xori t | .shi t | .liq t | .cmp t | .fpu t | .plog t | .ld t | .st t | .vld t | .vst t | .vlds t | .vsts t
  | .atom t | .madd t | .br t | .call t | .jr t | .vop t | .vops t | .vred t | .vcmp t | .smup t | .vaddm t | .setvl t | .rationReq t | .rationRel t
  | .fence t | .arrPut t | .arrRun t | .arrAbort t | .arrStat t | .arrWait t | .csrr t | .csrw t | .tbar t | .yield t | .pchk t | .endCmd t => some t
  | _ => none

namespace Machine

/-- The block changed in nothing but thread `t`, and there in nothing but the PC, the destination registers named, their poison, and, where `flags`
says so, the sticky flags. -/
def ComputesOnly (b b' : Block) (t : Nat) (g p v : List Nat) (flags : Bool) : Prop :=
  { b' with tc := { b'.tc with threads := b.tc.threads } } = b ∧ (∀ u, u ≠ t → b'.thread u = b.thread u) ∧
  (let x := b.thread t
   let y := b'.thread t
   ({ y with g := x.g, p := x.p, v := x.v, gp := x.gp, pp := x.pp, vp := x.vp, pc := x.pc, fpflags := if flags then x.fpflags else y.fpflags } = x) ∧
   (∀ r, r ∉ g → y.rg r = x.rg r ∧ y.gBad r = x.gBad r) ∧ (∀ r, r ∉ p → y.rp r = x.rp r ∧ y.pBad r = x.pBad r) ∧
   (∀ r, r ∉ v → y.rv r = x.rv r ∧ y.vBad r = x.vBad r))

end Machine

end Sys2Proof
end

