-- ==== Sys2Proof/Certificates/Slice0/Obligations.lean ====
section
/-! DEFINITION. The statements for the provers: how the queue runs, where each command completes and with what, what it leaves unchanged,
and the rules of the spec that say what the machine does. A state is written ⟨b, q⟩: the block and the waiting commands. -/
open Sys2Proof Sys2Proof.Machine

/-! ### The queue -/

/-- The command at the front of the queue runs with the queue's rest; an empty queue idles (log entry 1: the model's choice). -/
def Obligations.StepRunsFront : Prop :=
  (∀ (c : Instr) (b : Block) (q : List Instr), step ⟨b, c :: q⟩ = exec c ⟨b, q⟩) ∧ (∀ b : Block, step ⟨b, []⟩ = .next ⟨b, []⟩)

/-- No command changes the queue behind it, faults or is refused. -/
def Obligations.EveryCommandAnswers : Prop :=
  ∀ (c : Instr) (b : Block) (q : List Instr), ∃ b' : Block, exec c ⟨b, q⟩ = .next ⟨b', q⟩

/-! ### Where the commands complete -/

/-- BAR0 by TLP: reads within an aligned 8 bytes (R2, R3, R545), whole-word writes of 4 and of 8 bytes (R2, R4), and the two halves of a
64-bit register (R4); the high and low words of BAR4's register by a function that may debug (R546). -/
def Obligations.RegisterAccessCompletes : Prop :=
  (∀ (b : Block) (q : List Instr) (fn off len : Nat), Reaches b fn = true → inEight off len = true →
    let r := readSpan (fun o b => Block.barRead fn o b) off len b
    exec (.lowWordRead fn off len) ⟨b, q⟩ = .next ⟨r.2.send (.readData fn off r.1), q⟩) ∧
  (∀ (b : Block) (q : List Instr) (fn off v : Nat), Reaches b fn = true → off % 4 = 0 → v < 2 ^ 32 →
    exec (.registerWrite fn off 4 15 v) ⟨b, q⟩ = .next ⟨Block.regWrite fn off (BitVec.ofNat 32 v) b, q⟩) ∧
  (∀ (b : Block) (q : List Instr) (fn off lo hi : Nat), Reaches b fn = true → off % 8 = 0 → lo < 2 ^ 32 → hi < 2 ^ 32 →
    exec (.registerWrite fn off 8 255 (lo + 2 ^ 32 * hi)) ⟨b, q⟩ =
      .next ⟨Block.regWrite fn (off + 4) (BitVec.ofNat 32 hi) (Block.regWrite fn off (BitVec.ofNat 32 lo) b), q⟩) ∧
  (∀ (b : Block) (q : List Instr) (fn off v : Nat), Writes b fn off = true → wideWritable.contains off = true → off < bar4 →
    exec (.lowWordWrite fn off v) ⟨b, q⟩ = .next ⟨b.stageLow fn off (BitVec.ofNat 32 v), q⟩) ∧
  (∀ (b : Block) (q : List Instr) (fn off v : Nat), Writes b fn off = true → wideWritable.contains (off - 4) = true → off < bar4 →
    exec (.highWordWrite fn off v) ⟨b, q⟩ = .next ⟨b.applyHigh fn (off - 4) (BitVec.ofNat 32 v), q⟩) ∧
  (∀ (b : Block) (q : List Instr) (fn v : Nat), Debugs b fn = true →
    exec (.lowWordWrite fn 0x4ffff000 v) ⟨b, q⟩ = .next ⟨b.stageLow fn 0x4ffff000 (BitVec.ofNat 32 v), q⟩ ∧
    exec (.highWordWrite fn 0x4ffff004 v) ⟨b, q⟩ = .next ⟨b.applyHigh fn 0x4ffff000 (BitVec.ofNat 32 v), q⟩)

/-- The query registers: a function that may write one puts the written word there, and the result registers follow it (R58, R113, R169,
R192, R278, R323, R347). -/
def Obligations.QueryWritesComplete : Prop :=
  ∀ (b : Block) (q : List Instr) (fn v : Nat),
  (Writes b fn 0x400008 = true → exec (.routeQuery fn v) ⟨b, q⟩ = .next ⟨b.writeWord 0x400008 (BitVec.ofNat 32 v), q⟩) ∧
  (Writes b fn 0x500014 = true → exec (.dirQuery fn v) ⟨b, q⟩ =
    .next ⟨({ b with tier := { b.tier with asked := true } } : Block).applyHigh fn 0x500010 (BitVec.ofNat 32 v), q⟩) ∧
  (Writes b fn 0x700060 = true → exec (.candQuery fn v) ⟨b, q⟩ = .next ⟨b.writeWord 0x700060 (BitVec.ofNat 32 v), q⟩) ∧
  (Writes b fn 0x800010 = true → exec (.imageQuery fn v) ⟨b, q⟩ = .next ⟨b.writeWord 0x800010 (BitVec.ofNat 32 v), q⟩) ∧
  (Writes b fn 0xA00014 = true → exec (.pageQuery fn 0 v) ⟨b, q⟩ = .next ⟨b.writeWord 0xA00014 (BitVec.ofNat 32 v), q⟩) ∧
  (Writes b fn 0xA00018 = true → exec (.pageQuery fn 1 v) ⟨b, q⟩ = .next ⟨b.writeWord 0xA00018 (BitVec.ofNat 32 v), q⟩) ∧
  (Writes b fn 0xC00010 = true → exec (.slotQuery fn v) ⟨b, q⟩ = .next ⟨b.writeWord 0xC00010 (BitVec.ofNat 32 v), q⟩) ∧
  (Writes b fn 0xB00008 = true → exec (.generatorTest fn 0xB00008 v) ⟨b, q⟩ = .next ⟨b.stageLow fn 0xB00008 (BitVec.ofNat 32 v), q⟩) ∧
  (Writes b fn 0xB0000C = true → exec (.generatorTest fn 0xB0000C v) ⟨b, q⟩ = .next ⟨b.applyHigh fn 0xB00008 (BitVec.ofNat 32 v), q⟩) ∧
  (Writes b fn 0xB00010 = true → exec (.generatorTest fn 0xB00010 v) ⟨b, q⟩ = .next ⟨b.writeWord 0xB00010 (BitVec.ofNat 32 v), q⟩) ∧
  (Writes b fn 0xB00014 = true → exec (.generatorTest fn 0xB00014 v) ⟨b, q⟩ = .next ⟨b.writeWord 0xB00014 (BitVec.ofNat 32 v), q⟩)

/-- The fabric: a router takes the flit that a link has carried longest, or the next flit of a packet that an endpoint of its site sends, a header with
its waypoint (R38, R39, R43), and the routers send what they can (R47); time sync and its loss (R50, R51); a heartbeat and a stall (R54). -/
def Obligations.FabricCompletes : Prop :=
  (∀ (b : Block) (q : List Instr) (site port cls leg err flit : Nat) (room : Bool), b.boot.en.fabric = true → b.fab.routesOk = true → site ≤ 103 →
    siteKind b.wafer.kinds site ≠ 3 → b.unpowered (siteField b.wafer.kinds site) = false → cls ≤ 3 → leg ≤ 1 → err ≤ 2 →
    let vc := cls + 4 * leg
    let key := vcKey site port vc
    (∀ f rest, port ≤ 3 → b.wire key = f :: rest →
      exec (.flitReceive site port cls leg err flit room) ⟨b, q⟩ = .next ⟨((b.setWire key rest).takeFlit site port key err f room).meshRun room, q⟩) ∧
    (∀ h, port = 4 → (b.vc key).flits.length < vcDepth → (b.vc key).left = 0 → b.routedHeader site vc flit = some h →
      exec (.flitReceive site port cls leg err flit room) ⟨b, q⟩ =
        .next ⟨(b.takeFlit site port key err ⟨h, false, true, false, sget (fun _ => 0) b.fab.epochs (hdrCamp h)⟩ room).meshRun room, q⟩) ∧
    (port = 4 → (b.vc key).flits.length < vcDepth → (b.vc key).left ≠ 0 →
      exec (.flitReceive site port cls leg err flit room) ⟨b, q⟩ =
        .next ⟨(b.takeFlit site port key err ⟨flit % 2 ^ 256, false, false, false, 0⟩ room).meshRun room, q⟩)) ∧
  (∀ (b : Block) (q : List Instr) (os : List (Nat × Int)), b.boot.en.fabric = true →
    let b1 := os.foldl (fun b so => b.syncSite so.1 so.2) b
    exec (.timeSync os) ⟨b, q⟩ =
      .next ⟨{ b1 with fab := { b1.fab with spread := min 255 (os.foldl (fun m so => max m so.2.natAbs) 0) } }, q⟩) ∧
  (∀ (b : Block) (q : List Instr) (site : Nat), b.boot.en.fabric = true → siteKind b.wafer.kinds site ≠ 3 → (b.siteSt site).unlockedAt = 0 →
    (b.siteSt site).lastSync + 1000000 ≤ b.fab.time →
    exec (.timeUnlocked site) ⟨b, q⟩ =
      .next ⟨(b.setSite site { b.siteSt site with locked := false, unlockedAt := b.fab.time }).raise 0x0681 (siteField b.wafer.kinds site) 0xFF
        (packBits [(0, 8, site), (32, 32, toTwos 32 (b.siteSt site).offset)]), q⟩) ∧
  (∀ (b : Block) (q : List Instr) (site port : Nat), b.fab.dead.contains (site, port) = false →
    exec (.linkHeartbeat site port true) ⟨b, q⟩ =
      .next ⟨{ b with fab := { b.fab with lastAck := sset (fun _ => 0) b.fab.lastAck (linkKey site port) b.fab.time } }, q⟩) ∧
  (∀ (b : Block) (q : List Instr) (site port cls leg : Nat), b.boot.en.fabric = true → siteKind b.wafer.kinds site ≠ 3 →
    b.fab.dead.contains (site, port) = false →
    let age := (b.fab.time - sget (fun _ => 0) b.fab.lastAck (linkKey site port)) / 1000
    max 1 (b.fget F.stallLimitUs) ≤ age →
    exec (.fabricStall site port cls leg) ⟨b, q⟩ =
      .next ⟨((({ b with fab := { b.fab with dead := b.fab.dead ++ [(site, port)] } } : Block).bump (F.siteStalls site)).bump F.stallsTotal).raise
        0x0680 (siteField b.wafer.kinds site) 0xFF
        (packBits [(0, 8, site), (8, 8, port), (16, 8, (b.oldestAt site port (cls, leg)).1), (24, 8, (b.oldestAt site port (cls, leg)).2), (32, 32, age)]), q⟩)

/-- Steps: a field takes a step token once, does its attention work and starts its kernels (R52, R200, R284); a field that has finished sends its STEP_DONE (R52); the boundary of
a camp without a step runs items 2 to 7, and that of a finished step item 1 first (R330, R331); an idle camp gives its standing grants back
(R77). -/
def Obligations.StepsComplete : Prop :=
  (∀ (b : Block) (q : List Instr) (c f : Nat) (work : StepWork) (experts : List Announcement),
    (b.stepSt c).inStep = true → (b.campField c f).member = true → (b.campField c f).token ≠ (b.stepSt c).token →
    let token := (b.stepSt c).token
    let b1 := b.setCampField c f { b.campField c f with token := token }
    let b2 := experts.foldl (fun b a => b.announce c token a.layer a.expert a.object a.peers) b1
    let order := sortBy (fun (x y : KvWork) => decide (x.pos < y.pos)) work.rows
    let b3 := ((order.foldl (fun b w => b.doWork c f w) b2).countWaves f work.rows).sendPieces c f work.rows
    exec (.stepTokenReceive c f work experts) ⟨b, q⟩ = .next ⟨(b3.addKernels c f work.kernels).runKernels, q⟩) ∧
  (∀ (b : Block) (q : List Instr) (c f : Nat) (done : Bool),
    exec (.stepDone c f done) ⟨b, q⟩ = .next ⟨b.runKernels.finishStep c f (done && b.runKernels.kernelsDone c f), q⟩) ∧
  (∀ (b : Block) (q : List Instr) (c : Nat) (plan : List (Nat × Nat × Nat × Nat × Nat)) (drops : List (Nat × Nat × Nat × Nat)),
    b.boot.en.service = true → b.resetting c = false → b.camp.held.contains c = false → (b.phaseSt c).waiting = false → b.inStep c = false →
    (b.phaseSt c).ramping = false →
    exec (.stepBoundary c plan drops) ⟨b, q⟩ = .next ⟨b.restOfBoundary c plan drops, q⟩) ∧
  (∀ (b : Block) (q : List Instr) (c : Nat) (plan : List (Nat × Nat × Nat × Nat × Nat)) (drops : List (Nat × Nat × Nat × Nat)),
    b.boot.en.service = true → b.resetting c = false → b.camp.held.contains c = false → (b.phaseSt c).waiting = false → b.inStep c = true →
    b.stepComplete c = true → b.resultsReady c = true → b.barrierOpen c = false → (b.item1 c).tokenRoom c = true →
    exec (.stepBoundary c plan drops) ⟨b, q⟩ = .next ⟨(b.item1 c).restOfBoundary c plan drops, q⟩) ∧
  (∀ (b : Block) (q : List Instr) (c : Nat), b.inStep c = false → (b.phaseSt c).ramping = false → (b.phaseSt c).waiting = false →
    (b.phaseSt c).idleAt + b.fget F.serveConfigIdleHoldMs * 1000000 ≤ b.fab.time →
    exec (.campIdleHold c) ⟨b, q⟩ =
      .next ⟨b.rat.desks.foldl (fun b kv => kv.2.grants.foldl (fun b g => b.planDrop c kv.1 g.who) b) b, q⟩)

/-- Rations: a request and a release (R66, R70, R72), the microsecond's tick (R63), a loan's expiry (R64), a starved request (R74), a lost
grant (R69), and grants held past their idle time: a core's wide mode, an array's, a pod controller's (R123, R209, R243). -/
def Obligations.RationsComplete : Prop :=
  (∀ (b : Block) (q : List Instr) (f unit thread sub cls camp amount : Nat) (standing : Bool),
    exec (.rationRequest f unit thread sub cls camp amount standing) ⟨b, q⟩ = .next ⟨(if b.refusal f ⟨unit, thread, sub⟩ amount = 0 then b.passTo f ⟨unit, thread, sub⟩ camp else b).request f ⟨unit, thread, sub⟩ cls camp amount
        standing, q⟩) ∧
  (∀ (b : Block) (q : List Instr) (f unit thread sub : Nat),
    exec (.rationRelease f unit thread sub) ⟨b, q⟩ = .next ⟨b.release f ⟨unit, thread, sub⟩, q⟩) ∧
  (∀ (b : Block) (q : List Instr), b.boot.en.fabric = true →
    let b2 := (((b.refill.rationTickDesks.runKernels.tickWaits b.tier.waits).lateSteps b.tier.waits).payAllGranted.runUnits).tickParts
    let b4 := (List.range 96).foldl (fun b f => b.tickField f) (b2.tickArrays b2.arr)
    let b5 := if b4.fab.time / 1000000 ≠ b.fab.time / 1000000 then b4.tickMs else b4
    exec .rationTick ⟨b, q⟩ = .next ⟨((List.range 16).foldl (fun b c => b.tickCamp c) b5).rampedOff, q⟩) ∧
  (∀ (b : Block) (q : List Instr) (f : Nat),
    exec (.loanExpiry f) ⟨b, q⟩ =
      .next ⟨b.setDesk f { b.desk f with
        up := (b.desk f).up.filter (b.fab.time < ·), down := (b.desk f).down.filter (b.fab.time < ·)
        matchUp := (b.desk f).matchUp.filter (b.fab.time < ·), matchDown := (b.desk f).matchDown.filter (b.fab.time < ·) }, q⟩) ∧
  (∀ (b : Block) (q : List Instr) (f unit thread sub : Nat) (r : Req), (b.desk f).queue.find? (·.who == ⟨unit, thread, sub⟩) = some r →
    r.starved = false → b.starveUs r.cls < (b.fab.time - r.at_) / 1000 - r.heldUs →
    exec (.rationStarved f unit thread sub) ⟨b, q⟩ =
      .next ⟨((b.setDesk f { b.desk f with queue := (b.desk f).queue.map fun x => if x.who == r.who then { x with starved := true } else x }).bump
        (F.deskStarved f)).raise 0x0301 f r.camp (b.reqPayload f r.who r.cls 0 r.amount ((b.fab.time - r.at_) / 1000)), q⟩) ∧
  (∀ (b : Block) (q : List Instr) (f unit thread sub : Nat) (g : Grant), b.grantOf f ⟨unit, thread, sub⟩ = some g →
    let b1 := b.removeReqs f fun q => q.clock && q.who == ⟨unit, thread, sub⟩
    let d := b1.desk f
    let b2 := b1.setDesk f { d with grants := dropFirst (·.who == ⟨unit, thread, sub⟩) d.grants }
    let pay (caught : Nat) := packBits [(0, 16, unit), (16, 16, g.counted), (32, 16, caught)]
    (0 < g.counted → g.counted ≤ 512 - d.ballast →
      exec (.unplannedDrop f unit thread sub) ⟨b, q⟩ =
        .next ⟨((b2.setDesk f { b2.desk f with caught := d.caught + g.counted }).bump (F.deskCatches f)).raise 0x0303 f g.camp (pay g.counted), q⟩) ∧
    (0 < g.counted → 512 ≤ d.ballast →
      exec (.unplannedDrop f unit thread sub) ⟨b, q⟩ =
        .next ⟨((b2.setDesk f { b2.desk f with caught := d.caught }).bump F.rmExcursions).raise 0x0304 f g.camp (pay 0), q⟩) ∧
    (d.ballast < 512 → 512 - d.ballast < g.counted →
      let n := 512 - d.ballast
      exec (.unplannedDrop f unit thread sub) ⟨b, q⟩ =
        .next ⟨((((b2.setDesk f { b2.desk f with caught := d.caught + n }).bump (F.deskCatches f)).raise 0x0303 f g.camp (pay n)).bump
          F.rmExcursions).raise 0x0304 f g.camp (pay n), q⟩)) ∧
  (∀ (b : Block) (q : List Instr) (f core : Nat),
    let ts := (List.range 4).map (threadKey f core)
    b.wideOn f core = true → (ts.any fun t => (b.thread t).live && isWide (b.thread t).vl (b.thread t).ew) = false →
    (b.core f core).lastWide + b.fget F.tcConfigWideHoldUs * 1000 ≤ b.fab.time →
    exec (.wideHoldExpiry f core) ⟨b, q⟩ =
      .next ⟨(ts.foldl (fun b t => if (b.thread t).charged = 0 then b else b.setThread t { b.thread t with charged := 0 })
        (b.setCore f core { b.core f core with charged := 0 })).releaseAuto f (wideAsker core), q⟩) ∧
  (∀ (b : Block) (q : List Instr) (f n : Nat),
    let b1 := b.holdOver f n 0 1 (b.array f n).shiftIdle
    let b2 := b1.holdOver f n 1 3 (b1.array f n).streamIdle
    let x := b2.array f n
    exec (.arrayHoldExpiry f n) ⟨b, q⟩ =
      .next ⟨b2.setArray f n { x with shiftIdle := if b2.holds f (arrAsker n 0) then x.shiftIdle else 0
                                      streamIdle := if b2.holds f (arrAsker n 1) then x.streamIdle else 0 }, q⟩) ∧
  (∀ (b : Block) (q : List Instr) (f p : Nat) (g : Grant), b.grantOf f (ctlAsker p 0) = some g → g.standing = false →
    (b.ctl f p).deepAt + b.fget F.burstCtrlBurstIdleUs * 1000 ≤ b.fab.time →
    ((podChans p).all fun n => decide ((b.chanQueue f n).length < b.queueDeep)) = true →
    exec (.burstIdleExpiry f p) ⟨b, q⟩ = .next ⟨b.release f (ctlAsker p 0), q⟩)

/-- The tiers: an operation is served (R216); a move starts and switches, and its old frame is freed (R98); READY reports, substitutes and late
objects (R104, R105). -/
def Obligations.TierCompletes : Prop :=
  (∀ (b : Block) (q : List Instr) (id : Nat) (errs checks : List (Nat × Nat)) (miss : Bool) (o : MemOp),
    b.tc.ops.find? (fun o => o.id == id) = some o → o.performed = false → o.fed ≠ 9 → b.stale o = false →
    (b.tc.ops.any fun x => o.behind x) = false →
    ((b.sites o).any fun s => match s.1 with | .at_ p => b.unpowered (physField p) | _ => false) = false →
    let b1 := if miss then b.missDir o else b
    exec (.memoryAccess id errs checks miss) ⟨b, q⟩ = .next ⟨((b1.touchAll o).strikeAll o errs checks).asQueued o fun b => b.serveOp o, q⟩) ∧
  (∀ (b : Block) (q : List Instr) (f g dst slot : Nat) (m : Move),
    let e := b.dirEntry f g
    b.nextMove f e.camp ((b.tier.moves.find? fun m => m.isOf f g false).elim true (·.up)) = some m →
    m.granule = g → e.state ≠ 5 → e.state ≠ 6 → b.tierOn = true → Runs b f slot 0x8000 (.move g) = true →
    0 < b.available f m.tier e.camp (decide (e.hint = 3)) → b.frameFree f m.tier dst = true →
    exec (.moveStart f g dst slot) ⟨b, q⟩ = .next ⟨b.startMove m dst slot, q⟩) ∧
  (∀ (b : Block) (q : List Instr) (f g data : Nat) (m : Move) (b0 : Block),
    b.tier.moves.find? (fun m => m.field == f && m.granule == g && m.running && m.got) = some m →
    let src := if m.srcTier = 1 ∨ m.srcTier = 2 then [(frameAddr f m.srcTier m.src, 0x8000)] else []
    let dst := [(frameAddr f m.tier m.dst, 0x8000)]
    let camp := (b.dirEntry f g).camp
    (b.noteBulk m.cls camp ((src.flatMap fun x => b.bulkSlots true x.1 x.2) ++ dst.flatMap fun x => b.bulkSlots false x.1 x.2)).bulkSpend camp src dst = some b0 →
    exec (.moveSwitch f g data) ⟨b, q⟩ =
      .next ⟨((((src.foldl (fun b s => b.check s.1 s.2) b0).switchMove m data).actAfterMove f g).endWaits).applyHeld f g, q⟩) ∧
  (∀ (b : Block) (q : List Instr) (f tier n : Nat), (b.frame f tier n).use = 3 → (b.frame f tier n).reads = 0 →
    exec (.moveOldFrameFree f tier n) ⟨b, q⟩ = .next ⟨b.freeFrame f tier n, q⟩) ∧
  (∀ (b : Block) (q : List Instr) (c layer expert f : Nat) (a : Announce),
    b.tier.announces.find? (fun a => a.camp == c && a.layer == layer && a.expert == expert) = some a →
    bitAt a.fields f = true → b.objResident f a.object = true → b.fab.time ≤ a.at_ + a.deadlineUs * 1000 →
    exec (.expertReadyReport c layer expert f) ⟨b, q⟩ =
      .next ⟨b.setAnnounce c layer expert fun a => { a with ready := setBit a.ready f true }.settle, q⟩) ∧
  (∀ (b : Block) (q : List Instr) (c layer expert : Nat) (a : Announce),
    b.tier.announces.find? (fun a => a.camp == c && a.layer == layer && a.expert == expert) = some a →
    a.decided = 0 → a.at_ + a.deadlineUs * 1000 ≤ b.fab.time →
    exec (.substituteDeadline c layer expert) ⟨b, q⟩ = .next ⟨b.substitute a, q⟩) ∧
  (∀ (b : Block) (q : List Instr) (f c n : Nat) (step : Bool) (key : Nat),
    let same (w : TierWait) : Bool := w.camp == c && w.object == n && w.step == step && w.key == key && (step || w.field == f)
    let longest := ((b.tier.waits.filter same).map fun w => (b.fab.time - w.at_) / 1000).foldl max 0
    let mark := lateMark f c n step key
    b.tier.lates.contains mark = false → (b.tier.waits.any fun w => same w && w.field == f) = true →
    max 1 (b.fget F.tierDeadlineLateEventUs) < longest →
    exec (.tierLate f c n step key) ⟨b, q⟩ =
      .next ⟨({ b with tier := { b.tier with
          waits := b.tier.waits.map fun w => if same w then { w with late := true } else w
          lates := (b.tier.lates.filter b.lateLive) ++ [mark] } } : Block).raise
        0x0401 (if step then 0xFF else f) c (tierPayload n 0 longest (granuleAddr f (b.obj f n).base)), q⟩)

/-- HINT (R94 to R97, R431): MAP of an object without content completes at once, with content it starts the transfer; UNMAP outside and inside a
step; SET. -/
def Obligations.HintsComplete : Prop :=
  (∀ (b : Block) (q : List Instr) (camp seq : Nat) (frames : List Nat) (d : Desc), Waits b camp seq 0x08 d → d.bits 16 0 2 = 0 →
    mapBad b d = none →
    let addr := d.field 24 8
    let f := bitsOf addr 40 8
    let count := d.bits 32 0 26
    let tier := if d.bits 17 0 3 = 2 ∧ d.bits 17 5 1 = 0 then 1 else 2
    let host := d.field 48 8
    ((b.fieldObjs f).filter fun no => decide (0 < no.2.count)).length < 65535 → count ≤ b.available f tier camp false →
    frames.length = count → b.framesFree f tier frames = true →
    let n := b.freeObj f 65535 1
    let o : TierObj := { (({ TierObj.init with base := bitsOf addr 15 25, count := count, camp := camp, writable := decide (d.bits 17 3 1 = 1) } : TierObj).hinted d) with
      host := if d.bits 17 3 1 = 0 then host + 1 else 0, loading := decide (host ≠ 0) }
    let b1 := (b.setObj f n o).mapFrames f n tier o (decide (host ≠ 0)) 0 frames
    exec (.hintMap camp seq frames) ⟨b, q⟩ =
      .next ⟨if host = 0 then (b1.hintMoves f o).complete d 0 0 else (b1.startDma camp seq count).start d, q⟩) ∧
  (∀ (b : Block) (q : List Instr) (camp seq : Nat) (d : Desc) (f n : Nat) (o : TierObj), Waits b camp seq 0x08 d → d.bits 16 0 2 = 1 →
    b.objAt (d.field 24 8) = some (f, n, o) → o.camp = camp → o.model = 0 →
    exec (.hintUnmap camp seq) ⟨b, q⟩ =
      .next ⟨if b.inStep camp then (b.setObj f n { o with unmapping := seq + 1 }).start d else (b.unmapObj f n).complete d 0 0, q⟩) ∧
  (∀ (b : Block) (q : List Instr) (camp seq : Nat) (d : Desc) (f n : Nat) (o : TierObj), Waits b camp seq 0x08 d → d.bits 16 0 2 = 2 →
    b.objAt (d.field 24 8) = some (f, n, o) → o.camp = camp → hintBad b d o.writable (decide (o.image ≠ 0)) = none →
    ((o.hinted d).hint = 2 → b.pinShort f n (o.hinted d) = 0) →
    exec (.hintSet camp seq) ⟨b, q⟩ =
      .next ⟨(((b.setObj f n (o.hinted d)).hintEntries f (o.hinted d)).hintMoves f (o.hinted d)).complete d 0 0, q⟩)

/-- The stacks: a refresh due inside and outside a burst (R121, R122), thermal samples, the end of GRACE and faults (R135 to R137), margin scans
and row repairs at bring-up (R141, R147). -/
def Obligations.DramCompletes : Prop :=
  (∀ (b : Block) (q : List Instr) (f n : Nat), (b.chan f n).state ≠ 3 → (b.stack f).state ≠ 4 → b.boot.en.dram = true →
    let b1 := b.setChan f n { b.chan f n with owed := (b.chan f n).owed + 1 }
    let b2 := if b1.holds f (ctlAsker (n / 8) 1) ∨ b1.waits f (ctlAsker (n / 8) 1) ∨ (b1.stack f).state = 3 then b1
      else b1.request f (ctlAsker (n / 8) 1) 2 0xFF 12 false
    let b3 := b2.payGranted f (n / 8)
    exec (.refreshDue f n) ⟨b, q⟩ =
      .next ⟨if b1.bursting f (n / 8) then b1.refreshBurst f (n / 8) 8
        else if b3.refPostpone ≤ (b3.chan f n).owed then b3.payDistributed f n
        else if (b.chan f n).owed < (b3.chan f n).owed then b3.bump (F.refPostponed f n) else b3, q⟩) ∧
  (∀ (b : Block) (q : List Instr) (f temp : Nat) (queued : List Nat),
    exec (.stackThermalSample f temp queued) ⟨b, q⟩ = .next ⟨(b.thermalSample f temp queued).stackParts f (b.stack f).state, q⟩) ∧
  (∀ (b : Block) (q : List Instr) (f : Nat), exec (.graceEnd f) ⟨b, q⟩ = .next ⟨(b.graceEnd f).stackParts f (b.stack f).state, q⟩) ∧
  (∀ (b : Block) (q : List Instr) (f : Nat) (supply : Bool),
    exec (.stackFault f supply) ⟨b, q⟩ = .next ⟨(b.stackFault f supply).stackParts f (b.stack f).state, q⟩) ∧
  (∀ (b : Block) (q : List Instr) (fn f v : Nat), Writes b fn (0x1020010 + 0x80000 * f) = true → b.boot.bringup = true → bitAt v 31 = true →
    let b1 := b.writeWord (0x1020010 + 0x80000 * f) (BitVec.ofNat 32 v)
    exec (.marginScan fn f v) ⟨b, q⟩ = .next ⟨b1.setTest f { b1.test f with scanning := true, scanDone := false }, q⟩) ∧
  (∀ (b : Block) (q : List Instr) (f errors : Nat), (b.test f).scanning = true →
    exec (.marginScanDone f errors) ⟨b, q⟩ =
      .next ⟨b.setTest f { b.test f with scanning := false, scanDone := true, errors := satTo 24 errors }, q⟩) ∧
  (∀ (b : Block) (q : List Instr) (fn f v : Nat), Writes b fn (0x1020018 + 0x80000 * f) = true → b.boot.bringup = true → bitAt v 31 = true →
    let b1 := b.writeWord (0x1020018 + 0x80000 * f) (BitVec.ofNat 32 v)
    let n := bitsOf v 0 5
    let bank := bitsOf v 5 4
    (bitAt v 24 = false →
      exec (.repairQuery fn f v) ⟨b, q⟩ =
        .next ⟨b1.setTest f { b1.test f with rowsLeft := b1.rowsLeft f n bank, err := false, done := true }, q⟩) ∧
    (bitAt v 24 = true → b1.rowsLeft f n bank ≠ 0 →
      let b2 : Block := { b1 with dram := { b1.dram with rowsUsed := supd (fun _ => 0) b1.dram.rowsUsed (bankKey f n bank) (· + 1) } }
      exec (.softRowRepair fn f v) ⟨b, q⟩ =
        .next ⟨(b2.addSoft f ⟨0, n, bank, bitsOf v 9 15, false⟩).setTest f { b2.test f with rowsLeft := b1.rowsLeft f n bank - 1, err := false, done := true }, q⟩))

/-- Codes and scrubbing: a zero-filled frame is free again (R155); a Weeder read within its lap, and a slow lap (R156, R157); a flip mask armed
(R165). -/
def Obligations.IntegrityCompletes : Prop :=
  (∀ (b : Block) (q : List Instr) (f tier n : Nat), (b.frame f tier n).use = 4 →
    let b1 := (b.zeroFrame f tier n).setFrame f tier n ⟨0, (b.frame f tier n).owner, 0, true⟩
    exec (.zeroFillDone f tier n) ⟨b, q⟩ =
      .next ⟨(b1.setInteg f { b1.integField f with poisonList := (b1.integField f).poisonList.filter (· != n) }).bump (F.framesZeroed f), q⟩) ∧
  (∀ (b : Block) (q : List Instr) (f mem pattern check : Nat), b.weederOn f mem = true →
    let i := b.lapNext f mem 300 (b.weeder f mem).addr
    i < lapWords mem → b.weedIdle f mem i = true →
    let b1 := (b.setWeeder f mem { b.weeder f mem with addr := i + 1 }).weedTake f mem i
    let b2 := b1.weedWord f mem i pattern check
    exec (.weederRead f mem pattern check) ⟨b, q⟩ =
      .next ⟨if lapWords mem ≤ b2.lapNext f mem 300 (i + 1) then b2.lapDone f mem else b2, q⟩) ∧
  (∀ (b : Block) (q : List Instr) (f mem : Nat), b.boot.en.integ = true → (b.weeder f mem).alarmed = false →
    let ms := (b.fab.time - b.lapStart (b.weeder f mem)) / 1000000
    max 1 (b.fget F.weederCtrlLapAlarmMs) < ms →
    exec (.weederLapSlow f mem) ⟨b, q⟩ =
      .next ⟨(b.setWeeder f mem { b.weeder f mem with alarmed := true }).raise 0x0105 f 0xFF (integPayload mem 0 0 0 ms 0), q⟩) ∧
  (∀ (b : Block) (q : List Instr) (fn v : Nat), Writes b fn 0x700024 = true → bitAt v 0 = true → bitAt v 1 = false → b.armError = 0 →
    exec (.flipArm fn v) ⟨b, q⟩ =
      .next ⟨({ b with integ := { b.integ with flipErr := 0 } } : Block).fset F.flipCtrlArm 1, q⟩)

/-- The Root Cellar's INSTALL (R176, R177): CREATE, WRITE, SEAL, ERASE. -/
def Obligations.InstallsComplete : Prop :=
  (∀ (b : Block) (q : List Instr) (camp seq : Nat) (d : Desc) (e : Nat), Waits b camp seq 0x03 d → b.cellar.mounted = true → d.bits 16 0 2 = 0 →
    let id := d.field 18 2
    let units := d.field 20 4
    let need := cdiv (96 * units) 131072
    id ≠ 0 → (b.image? id).isSome = false → units ≠ 0 → b.cellar.images.length < 1024 →
    sumOf ((b.cellar.images.filter fun x => x.camp == camp).map Image.extents) + need ≤ campExtents b.camp.live camp → b.freeRun need = some e →
    exec (.installCreate camp seq) ⟨b, q⟩ =
      .next ⟨({ b with cellar := { b.cellar with images := b.cellar.images ++ [⟨id, camp, 1, units, 131072 * e, d.field 24 4, 0, 0, [], 0, []⟩] } } : Block).complete
        d 0 (131072 * e), q⟩) ∧
  (∀ (b : Block) (q : List Instr) (camp seq : Nat) (d : Desc) (x : Image), Waits b camp seq 0x03 d → b.cellar.mounted = true → d.bits 16 0 2 = 1 →
    b.image? (d.field 18 2) = some x → x.camp = camp → writeBad d x = none →
    exec (.installWrite camp seq) ⟨b, q⟩ = .next ⟨(b.startDma camp seq (d.field 20 4)).start d, q⟩) ∧
  (∀ (b : Block) (q : List Instr) (camp seq : Nat) (d : Desc) (x : Image), Waits b camp seq 0x03 d → b.cellar.mounted = true → d.bits 16 0 2 = 2 →
    b.image? (d.field 18 2) = some x → x.camp = camp → x.state ≠ 4 → x.units ≤ x.mark → (b.cellar.staged.any fun s => s.image == x.id) = false →
    exec (.installSeal camp seq) ⟨b, q⟩ =
      .next ⟨(({ b with cellar := { b.cellar with seals := b.cellar.seals ++ [⟨camp, seq, x.id, []⟩] } } : Block).start d).queueRead x.base (.seal camp seq)
        true 0 0 camp 2, q⟩) ∧
  (∀ (b : Block) (q : List Instr) (camp seq : Nat) (d : Desc) (x : Image), Waits b camp seq 0x03 d → b.cellar.mounted = true → d.bits 16 0 2 = 3 →
    b.image? (d.field 18 2) = some x → x.camp = camp → b.imageNamed x = false →
    exec (.installErase camp seq) ⟨b, q⟩ =
      .next ⟨(((b.stopSeals x.id).stopWrites x.id).setImage x.id fun y => { y with
        state := 4
        toErase := (List.range x.extents).flatMap fun e => (List.range 128).map fun chan => mapKey chan (x.firstExtent + e) }).complete d 0 0, q⟩)

/-- The Root Cellar's media: units programmed and read (R177, R178), relocations and erases (R181), temperature (R184), mounting, read counts and
dark channels (R187, R189). -/
def Obligations.CellarCompletes : Prop :=
  (∀ (b : Block) (q : List Instr) (u : Nat) (s : Staged) (x : Image), b.cellar.staged.find? (fun s => s.unit == u && !s.done) = some s →
    b.image? s.image = some x → x.base + x.mark = u → b.unitDark u = false → b.poolSize (unitChan u) ≠ 0 →
    (b.cc (unitCc u)).paused = false → b.progGrant (unitChan u) = true → (b.pblock (blockKey (unitChan u) (b.mapped (unitChan u) (unitBlock u)))).use ≠ 3 →
    let b1 : Block := { b with cellar := { b.cellar with
      units := sset (fun _ => 0) b.cellar.units u s.data
      lost := sset (fun _ => false) b.cellar.lost u false
      staged := dropFirst (fun t => t.unit == u && !t.done) b.cellar.staged } }
    exec (.unitProgramDone u true) ⟨b, q⟩ =
      .next ⟨(((((b1.setImage x.id fun y => { y with mark := y.mark + 1 }).restage u).bump F.unitsProgrammed).bump (F.ccPrograms (unitCc u))).restChan
        (unitChan u)).settleWrite s.camp s.seq, q⟩) ∧
  (∀ (b : Block) (q : List Instr) (chan retries bits pct : Nat) (r : UnitRead), b.nextRead chan = some r → b.cellar.mounted = true →
    b.unitDark r.unit = false → b.readGrant (chan / 16) = true → sget (fun _ => false) b.cellar.lost r.unit = false →
    let b1 := ((b.leaveQueue r).countRead r.unit r.block).count F.readRetries (min 8 retries)
    let b2 := ((b1.bump F.unitsRead).bump (F.ccReads (chan / 16))).count (F.ccBchBits (chan / 16)) bits
    exec (.cellarReadComplete chan retries 0 bits pct) ⟨b, q⟩ =
      .next ⟨((if retries ≠ 0 ∨ min 100 (b.fget F.cellarConfigBchRelocPct) < pct then b2.queueReloc chan (unitBlock r.unit) else b2).deliverUnit r).askRead
        (chan / 16), q⟩ ∧
    exec (.cellarReadComplete chan retries 1 bits pct) ⟨b, q⟩ = .next ⟨((b1.unitLost r.unit).failUnit r).askRead (chan / 16), q⟩ ∧
    exec (.cellarReadComplete chan retries 2 bits pct) ⟨b, q⟩ =
      .next ⟨(((b1.bump F.crcFails).unitLost r.unit).failUnit r).askRead (chan / 16), q⟩) ∧
  (∀ (b : Block) (q : List Instr) (chan l t : Nat), (b.cellar.relocs.any fun r => r.chan == chan && r.lblock == l) = true →
    (b.cellar.relocs.any fun r => r.chan == chan && decide (r.target ≠ 0)) = false → (b.cc (chan / 16)).paused = false → b.unitDark chan = false →
    (b.cellar.relocs.any fun r => (r.chan == chan && r.lblock == l) && b.sealed r) = false →
    (b.cellar.reads.any fun r => decide (unitChan r.unit = chan) && decide ((b.unitRank r).1 < 3)) = false ∨ b.pastHard chan l = true →
    b.spare chan = some t → b.progGrant chan = true →
    let b1 : Block := { b with cellar := { b.cellar with relocs := markReloc chan l (t + 1) b.cellar.relocs } }
    exec (.relocationStart chan l) ⟨b, q⟩ =
      .next ⟨((b1.setPBlock (blockKey chan t) { b1.pblock (blockKey chan t) with use := 1 }).noteSpares chan).queueRead (blockUnit chan l 0) .reloc true 0 0 0xFF 2, q⟩) ∧
  (∀ (b : Block) (q : List Instr) (chan l : Nat) (r : Reloc),
    b.cellar.relocs.find? (fun r => r.chan == chan && r.lblock == l && decide (r.target ≠ 0)) = some r →
    (b.cc (chan / 16)).paused = false → b.unitDark chan = false → b.progGrant chan = true →
    let t := r.target - 1
    let p := b.mapped chan l
    (1024 ≤ r.copied →
      let b1 : Block := { b with cellar := { b.cellar with
        relocs := dropFirst (· == r) b.cellar.relocs
        map := sset (fun k => k % 16384) b.cellar.map (mapKey chan l) t } }
      let b2 := b1.setPBlock (blockKey chan t)
        { b1.pblock (blockKey chan t) with use := 0, reads := 0, late := false, base := (b.cc (chan / 16)).penalty }
      let b3 := b2.setPBlock (blockKey chan p) { b2.pblock (blockKey chan p) with use := 2 }
      exec (.relocationSwitch chan l true) ⟨b, q⟩ =
        .next ⟨(((((b3.bump F.relocations).bump (F.ccRelocs (chan / 16))).count F.unitsProgrammed 1024).count (F.ccPrograms (chan / 16)) 1024).commitWrites
          r.writes).restChan chan, q⟩) ∧
    (let b1 : Block := { b with cellar := { b.cellar with
        relocs := b.cellar.relocs.map fun x => if x == r then { x with target := 0, copied := 0 } else x } }
     exec (.relocationSwitch chan l false) ⟨b, q⟩ = .next ⟨((b1.dropRelocReads chan l).retireBlock chan t).restChan chan, q⟩)) ∧
  (∀ (b : Block) (q : List Instr) (chan p : Nat) (ok : Bool), (b.cc (chan / 16)).paused = false → b.unitDark chan = false →
    (b.pblock (blockKey chan p)).flight = 0 → b.progGrant chan = true → (b.pblock (blockKey chan p)).use = 2 →
    let x := b.pblock (blockKey chan p)
    exec (.blockErase chan p ok) ⟨b, q⟩ =
      .next ⟨((b.setPBlock (blockKey chan p) { x with use := if ok then 0 else 3, erases := x.erases + 1, reads := 0, late := false,
                                                      base := (b.cc (chan / 16)).penalty }).noteSpares chan).restChan chan, q⟩) ∧
  (∀ (b : Block) (q : List Instr) (k temp : Nat),
    let c := b.cc k
    let hot := b.fget F.cellarConfigHotC
    let b1 := (b.setCc k { c with temp := temp, paused := if hot < temp then true else if temp + 5 ≤ hot then false else c.paused }).peak
      (F.ccTempPeakC k) (satTo 8 temp)
    exec (.cellarThermalSample k temp) ⟨b, q⟩ =
      .next ⟨if hot < temp ∧ c.paused = false then b1.cellarEvent 0x0415 k 0 0x7F temp 0 0xFF else b1, q⟩) ∧
  (∀ (b : Block) (q : List Instr) (k chans ms : Nat), (b.cc k).state = 0 → b.boot.running = true →
    let b1 := b.restoreCounts k
    let b2 := (b1.setCc k { b1.cc k with state := 1, chans := chans }).queueWorn k
    let all := (List.range 8).all fun j => decide ((b2.cc j).state ≠ 0)
    exec (.cellarMounted k chans ms) ⟨b, q⟩ =
      .next ⟨({ b2 with cellar := { b2.cellar with mounted := all }
                        boot := { b2.boot with en := { b2.boot.en with cellar := all } } } : Block).cellarEvent 0x0410 k 0 0x7F ms 0 0xFF, q⟩) ∧
  (∀ (b : Block) (q : List Instr) (k : Nat), (b.cc k).state = 1 →
    let c := b.cc k
    exec (.readCountSave k) ⟨b, q⟩ =
      .next ⟨{ b with cellar := { b.cellar with
        blocks := b.cellar.blocks.map fun kv => if kv.1 / 20480 / 16 = k then (kv.1, { kv.2 with saved := kv.2.reads, savedBase := kv.2.base }) else kv
        savedPenalty := sset (fun _ => 0) b.cellar.savedPenalty k c.penalty } }, q⟩) ∧
  (∀ (b : Block) (q : List Instr) (k chan : Nat), (b.cc k).state ≠ 2 → chan < 16 → bitAt (b.cc k).chans chan = true →
    exec (.cellarCcDark k chan) ⟨b, q⟩ =
      .next ⟨(((b.dropDraw (b.hostField k) (ccAsker k (1 + chan))).setCc k { b.cc k with chans := setBit (b.cc k).chans chan false }).endDarkWrites).cellarEvent
        0x0414 k 0 (16 * k + chan) 0 0 0xFF, q⟩)

/-- JOBs (R196 to R199, R226): accepted, launched once its grants are held, started, completed; the watchdog; a parity error (R224); a load's
result and a write's acknowledgement (R214, R221). -/
def Obligations.JobsComplete : Prop :=
  (∀ (b : Block) (q : List Instr) (camp seq : Nat) (d : Desc), Waits b camp seq 0x06 d → b.jobBad d = none →
    let j : Job := ⟨b.tc.nextJob, camp, seq, d.field 16 12, d.field 28 36, d.bits 88 0 3, d.bits 90 0 12, d.field 64 8, d.field 72 4, d.field 76 4,
      d.field 80 8, if d.bits 89 0 6 = 0 then 8 else d.bits 89 0 6, if d.field 92 2 = 0 then b.fget F.tcConfigJobLimitMs else d.field 92 2, 0, 0, none, 0, 0,
      false, [], []⟩
    exec (.job camp seq) ⟨b, q⟩ =
      .next ⟨({ b with tc := { b.tc with jobs := b.tc.jobs ++ [j], nextJob := b.tc.nextJob + 1 } } : Block).start d, q⟩) ∧
  (∀ (b : Block) (q : List Instr) (camp seq : Nat) (j : Job), b.jobOf camp seq = some j → j.phase = 0 →
    b.coresFree j = true → b.arraysFree j = true → b.earlierJob j false = false → b.jobsRunning < 256 →
    let b1 := b.askWakes j
    (b1.awake j = true →
      exec (.jobLaunch camp seq) ⟨b, q⟩ =
        .next ⟨((j.fieldList.foldl (fun b f => j.coreList.foldl (fun b c => b.clearCore f c) b) b1).takeArrays j).setJob j.id fun j => { j with phase := 1 }, q⟩) ∧
    (b1.awake j = false → exec (.jobLaunch camp seq) ⟨b, q⟩ = .next ⟨b1, q⟩)) ∧
  (∀ (b : Block) (q : List Instr) (camp seq : Nat) (j : Job) (d : Desc) (b1 : Block) (image : List (Option Byte)), b.jobOf camp seq = some j →
    b.desc? camp seq = some d → j.phase = 1 → b.earlierJob j true = false → b.readDenied camp j.code j.codeLen = 0 → b.codeImage j = (b1, some image) →
    let b2 := j.fieldList.foldl (fun b f => j.coreList.foldl (fun b c => b.copyCode (localAddr f c 0) image) b) b1
    let b3 := (b2.setJob j.id fun j => { j with phase := 2, start := b.fab.time }).startThreads j 0 j.threadKeys
    exec (.jobStart camp seq) ⟨b, q⟩ = .next ⟨(b3.bump F.jobsStarted).count F.jobWaitUs ((b.fab.time - d.at_) / 1000), q⟩) ∧
  (∀ (b : Block) (q : List Instr) (camp seq : Nat) (j : Job), b.jobOf camp seq = some j → b.jobBusy j = false →
    j.phase = 3 ∨ j.phase = 2 ∧ b.jobEnded j = true → b.arraysIdle j = true →
    (j.fault = none → j.ended = 0 → exec (.jobComplete camp seq) ⟨b, q⟩ = .next ⟨(b.dropJob j).completeSeq camp seq 0 0, q⟩) ∧
    (j.ended ≠ 0 → exec (.jobComplete camp seq) ⟨b, q⟩ = .next ⟨(b.dropJob j).completeSeq camp seq (j.ended - 1) j.body, q⟩) ∧
    (∀ x, j.fault = some x → j.ended = 0 →
      exec (.jobComplete camp seq) ⟨b, q⟩ = .next ⟨(b.dropJob j).completeSeq camp seq (faultStatus x.1) (faultBody x), q⟩)) ∧
  (∀ (b : Block) (q : List Instr) (camp seq : Nat) (j : Job), b.jobOf camp seq = some j → j.phase = 2 → j.limitMs ≠ 0 →
    j.start + j.limitMs * 1000000 < b.fab.time →
    let t := (j.threadKeys.find? fun t => (b.thread t).live).getD (j.threadKeys.headD 0)
    exec (.watchdog camp seq) ⟨b, q⟩ =
      .next ⟨j.threadKeys.foldl (fun b t => (b.withdraw (keyField t) (threadAsker (keyCore t) (keyThr t))).withdrawAuto (keyField t) (wideAsker (keyCore t)))
        ((b.bump F.watchdogFired).fault t 7 0), q⟩) ∧
  (∀ (b : Block) (q : List Instr) (t : Nat) (j : Job), (b.thread t).live = true → b.job? (b.thread t).job = some j →
    exec (.regfileParity t) ⟨b, q⟩ =
      .next ⟨((b.bump (F.parityErrors (keyField t))).raise 0x0170 (keyField t) j.camp (jobPayload 6 t (b.thread t).pc 0)).fault t 6 0, q⟩) ∧
  (∀ (b : Block) (q : List Instr) (id t : Nat) (o : MemOp), b.tc.ops.find? (fun o => o.id == id) = some o → o.performed = true → o.kind.returns = true →
    o.thread = some t → exec (.loadReturn id) ⟨b, q⟩ = .next ⟨(if b.stale o then b else b.setThread t ((b.thread t).receive o)).opDone o, q⟩) ∧
  (∀ (b : Block) (q : List Instr) (id : Nat) (o : MemOp), b.tc.ops.find? (fun o => o.id == id) = some o → o.performed = true → o.kind.returns = true →
    o.thread = none → o.array = none → exec (.loadReturn id) ⟨b, q⟩ = .next ⟨(b.opDone o).gathered o, q⟩) ∧
  (∀ (b : Block) (q : List Instr) (id : Nat) (o : MemOp), b.tc.ops.find? (fun o => o.id == id) = some o → o.performed = true →
    o.kind.returns = false → exec (.writeAck id) ⟨b, q⟩ = .next ⟨(b.opDone o).firmDone o, q⟩)

/-- Words that compute in the scalar, predicate and floating-point registers (R200, R201, R207, R208): the result register takes the value of the
operation, poison goes with it (R221), and the PC goes on. -/
def Obligations.ScalarWordsComplete : Prop :=
  ∀ (b0 : Block) (q : List Instr) (t : Nat),
  let b := AtIssue b0 t
  let w := b.fetch t
  let th := b.thread t
  (Issues b0 t (ofMajor 0x01) = true →
    exec (.alu t) ⟨b0, q⟩ = .next ⟨b.compute t w th (th.wg (wRd w) (aluOp (wFunc w) (th.rg (wRs1 w)) (th.rg (wRs2 w)))), q⟩) ∧
  (Issues b0 t (ofMajor 0x02) = true →
    exec (.addi t) ⟨b0, q⟩ = .next ⟨b.compute t w th (th.wg (wRd w) (th.rg (wRs1 w) + BitVec.ofInt 64 (ofTwos 16 (wImm w)))), q⟩) ∧
  (Issues b0 t (ofMajor 0x03) = true →
    exec (.andi t) ⟨b0, q⟩ = .next ⟨b.compute t w th (th.wg (wRd w) (th.rg (wRs1 w) &&& BitVec.ofNat 64 (wImm w))), q⟩) ∧
  (Issues b0 t (ofMajor 0x04) = true →
    exec (.ori t) ⟨b0, q⟩ = .next ⟨b.compute t w th (th.wg (wRd w) (th.rg (wRs1 w) ||| BitVec.ofNat 64 (wImm w))), q⟩) ∧
  (Issues b0 t (ofMajor 0x05) = true →
    exec (.xori t) ⟨b0, q⟩ = .next ⟨b.compute t w th (th.wg (wRd w) (th.rg (wRs1 w) ^^^ BitVec.ofNat 64 (wImm w))), q⟩) ∧
  (Issues b0 t (ofMajor 0x06) = true →
    exec (.shi t) ⟨b0, q⟩ = .next ⟨b.compute t w th (th.wg (wRd w) (shiOp (th.rg (wRs1 w)) (wImm w))), q⟩) ∧
  (Issues b0 t (ofMajor 0x07) = true →
    exec (.liq t) ⟨b0, q⟩ = .next ⟨b.compute t w th (th.wg (wRd w) (liqOp (th.rg (wRd w)) (wRs1 w) (wImm w))), q⟩) ∧
  (Issues b0 t (ofMajor 0x08) = true →
    let r := cmpOp (wFunc w) (th.rg (wRs1 w)) (th.rg (wRs2 w))
    exec (.cmp t) ⟨b0, q⟩ = .next ⟨b.compute t w th ((th.wp (wRd w % 8) (predOf r.1)).flag r.2), q⟩) ∧
  (Issues b0 t (ofMajor 0x09) = true →
    let r := fpuOp (wFunc w) (th.rg (wRs1 w)) (th.rg (wRs2 w)) (th.rg (wRd w))
    exec (.fpu t) ⟨b0, q⟩ = .next ⟨b.compute t w th ((th.wg (wRd w) (BitVec.ofNat 64 r.val)).flag r.flags), q⟩) ∧
  (Issues b0 t (ofMajor 0x0A) = true →
    (wFunc w < 4 → exec (.plog t) ⟨b0, q⟩ =
      .next ⟨b.compute t w th (th.wp (wRd w % 8) (plogOp (wFunc w) (th.rp (wRs1 w % 8)) (th.rp (wRs2 w % 8)))), q⟩) ∧
    (wFunc w = 4 → exec (.plog t) ⟨b0, q⟩ = .next ⟨b.compute t w th (th.wp (wRd w % 8) (~~~(th.rp (wRs1 w % 8)))), q⟩) ∧
    (wFunc w = 5 → exec (.plog t) ⟨b0, q⟩ = .next ⟨b.compute t w th (th.wp (wRd w % 8) (th.rg (wRs1 w))), q⟩) ∧
    (wFunc w = 6 → exec (.plog t) ⟨b0, q⟩ = .next ⟨b.compute t w th (th.wg (wRd w) (th.rp (wRs1 w % 8))), q⟩))

/-- Words on memory (R203, R207, R212, R213, R214, R220): with aligned, unpoisoned addresses a load is issued to its destination register, a store with
its data, an atomic or an addition with its operands; FENCE waits for the kinds that it names. -/
def Obligations.MemoryWordsComplete : Prop :=
  ∀ (b0 : Block) (q : List Instr) (t : Nat),
  let b := AtIssue b0 t
  let w := b.fetch t
  let th := b.thread t
  let n := 2 ^ wWidth w
  let k := 2 ^ wFunc w
  let a := addrOf (th.rg (wRs1 w)) (wOff12 w)
  let as := strided (th.rg (wRs1 w)) (th.rg (wRs2 w)) th.vl
  (Issues b0 t (ofMajor 0x10) = true → th.gBad (wRs1 w) = false → a % n = 0 →
    exec (.ld t) ⟨b0, q⟩ = .next ⟨b.loadFrom t [a] n (.g (wRd w) (!wUns w) n), q⟩) ∧
  (Issues b0 t (ofMajor 0x11) = true → th.gBad (wRs1 w) = false → a % n = 0 →
    exec (.st t) ⟨b0, q⟩ = .next ⟨b.storeTo t [a] n (th.gn (wRd w) % 2 ^ (8 * n)) (th.gBad (wRd w)), q⟩) ∧
  (Issues b0 t (ofMajor 0x12) = true → th.gBad (wRs1 w) = false → vecBad (contiguous a n th.vl) n = none →
    exec (.vld t) ⟨b0, q⟩ = .next ⟨b.vLoad t (wRd w) (contiguous a n th.vl) n, q⟩) ∧
  (Issues b0 t (ofMajor 0x13) = true → th.gBad (wRs1 w) = false → vecBad (contiguous a n th.vl) n = none →
    exec (.vst t) ⟨b0, q⟩ = .next ⟨b.vStore t (wRd w) (contiguous a n th.vl) n, q⟩) ∧
  (Issues b0 t (ofMajor 0x14) = true → th.gBad (wRs1 w) = false → th.gBad (wRs2 w) = false → vecBad as k = none →
    exec (.vlds t) ⟨b0, q⟩ = .next ⟨b.vLoad t (wRd w) as k, q⟩) ∧
  (Issues b0 t (ofMajor 0x15) = true → th.gBad (wRs1 w) = false → th.gBad (wRs2 w) = false → vecBad as k = none →
    exec (.vsts t) ⟨b0, q⟩ = .next ⟨b.vStore t (wRd w) as k, q⟩) ∧
  (let op := bitsOf (wFunc w) 0 4
   let ty := bitsOf (wFunc w) 4 3
   let m := atomBytes ty
   Issues b0 t (ofMajor 0x18) = true → th.gBad (wRs1 w) = false → th.gBad (wRs2 w) = false → (op = 0 → th.gBad (wRd w) = false) →
    atomOk op ty = true → 0x40000 ≤ th.gn (wRs1 w) → th.gn (wRs1 w) % m = 0 →
    exec (.atom t) ⟨b0, q⟩ =
      .next ⟨(b.issue t (.atomic op ty (th.gn (wRd w) % 2 ^ (8 * m)) (th.gn (wRs2 w) % 2 ^ (8 * m))) [th.gn (wRs1 w)] m false (.g (wRd w) false m)).advance t, q⟩) ∧
  (let m := if wFunc w = 1 then 8 else 4
   Issues b0 t (ofMajor 0x19) = true → th.gBad (wRs1 w) = false →
    exec (.madd t) ⟨b0, q⟩ = .next ⟨b.addTo t (th.gn (wRs1 w)) m 1 (wFunc w) (th.gn (wRs2 w) % 2 ^ (8 * m)) (th.gBad (wRs2 w)), q⟩) ∧
  (let m := if wVfunc w = 1 then 2 else 4
   Issues b0 t (ofMajor 0x25) = true → th.gBad (wVrs w) = false → (wVfunc w = 1 → th.vl % 2 = 0) →
    exec (.vaddm t) ⟨b0, q⟩ =
      .next ⟨b.addTo t (th.gn (wVrs w)) m th.vl (if wVfunc w = 0 then 2 else if wVfunc w = 1 then 3 else 0) (vLow (th.rv (wVs1 w)) m th.vl) (th.vBad (wVs1 w)), q⟩) ∧
  (Issues b0 t (ofSys 0x010) = true →
    exec (.fence t) ⟨b0, q⟩ = .next ⟨(b.setThread t { th.next with wait := .fence (wRs1 w % 16) }).wakeFence t, q⟩)

/-- Words of control (R76, R202, R207, R208, R215, R223): branches within the code image, CALL and JR with their link, SETVL with and without wide
rations, RATION.REQ and RATION.REL, CSRs, TBAR, YIELD, PCHK and END. -/
def Obligations.ControlWordsComplete : Prop :=
  ∀ (b0 : Block) (q : List Instr) (t : Nat),
  let b := AtIssue b0 t
  let w := b.fetch t
  let th := b.thread t
  let f := keyField t
  let core := keyCore t
  (Issues b0 t (ofMajor 0x1C) = true → b.inCode t (brTarget th.pc w) = true → th.pBad (wPred w) = false →
    exec (.br t) ⟨b0, q⟩ =
      .next ⟨if (th.rp (wPred w)).getLsbD 0 != wNeg w then b.setThread t { th with pc := (brTarget th.pc w).toNat } else b.advance t, q⟩) ∧
  (Issues b0 t (ofMajor 0x1D) = true → b.inCode t (brTarget th.pc w) = true →
    exec (.call t) ⟨b0, q⟩ =
      .next ⟨b.setThread t { th.wg 31 (BitVec.ofNat 64 (th.pc + 4)) with pc := (brTarget th.pc w).toNat, gp := setBit th.gp 31 false }, q⟩) ∧
  (Issues b0 t (ofMajor 0x1E) = true → th.gBad (wRs1 w) = false → b.inCode t (th.gn (wRs1 w)) = true → th.gn (wRs1 w) % 4 = 0 →
    exec (.jr t) ⟨b0, q⟩ =
      .next ⟨b.setThread t { th.wg (wRd w) (BitVec.ofNat 64 (th.pc + 4)) with pc := th.gn (wRs1 w), gp := setBit th.gp (wRd w) false }, q⟩) ∧
  (let ew := if wFunc w = 1 then 0 else 1
   let vl := min (th.gn (wRs1 w)) (if ew = 1 then 32 else 64)
   let explicit := ((b.grantOf f (threadAsker core (keyThr t))).map (·.amount)).getD 0
   Issues b0 t (ofMajor 0x30) = true → th.gBad (wRs1 w) = false →
    (isWide vl ew = false → exec (.setvl t) ⟨b0, q⟩ = .next ⟨(b.advance t).setVl t (wRd w) vl ew, q⟩) ∧
    (isWide vl ew = true → 4 ≤ explicit - th.charged →
      exec (.setvl t) ⟨b0, q⟩ =
        .next ⟨(((b.setCore f core { b.core f core with charged := (b.core f core).charged + 4 }).setThread t { th with charged := th.charged + 4 }).advance t).setVl
          t (wRd w) vl ew, q⟩) ∧
    (isWide vl ew = true → explicit - th.charged < 4 → b.wideOn f core = true →
      exec (.setvl t) ⟨b0, q⟩ = .next ⟨(b.advance t).setVl t (wRd w) vl ew, q⟩) ∧
    (isWide vl ew = true → explicit - th.charged < 4 → b.wideOn f core = false →
      let b1 := b.setThread t { th.next with wait := .wide (wRd w) vl ew }
      exec (.setvl t) ⟨b0, q⟩ =
        .next ⟨if b1.waits f (wideAsker core) then b1
          else (b1.bump (F.wideRequests f)).request f (wideAsker core) (b.idClass th.job) (((b.job? th.job).map (·.camp)).getD 0) 4 false, q⟩)) ∧
  (Issues b0 t (ofSys 0x001) = true → th.gBad (wRs1 w) = false → th.gBad (wRs2 w) = false →
    exec (.rationReq t) ⟨b0, q⟩ =
      .next ⟨(b.setThread t { th.next with wait := .ration (wRd w) }).request f (threadAsker core (keyThr t))
        (max (if ((b.job? th.job).map (·.kernel)).getD false then 0 else 1) (min 2 (th.gn (wRs2 w) % 4)))
        (((b.job? th.job).map (·.camp)).getD 0) (th.gn (wRs1 w)) false, q⟩) ∧
  (Issues b0 t (ofSys 0x002) = true → b.grantOf f (threadAsker core (keyThr t)) = none →
    exec (.rationRel t) ⟨b0, q⟩ = .next ⟨b.setThread t { th.next with charged := 0 }, q⟩) ∧
  (∀ g, Issues b0 t (ofSys 0x002) = true → b.grantOf f (threadAsker core (keyThr t)) = some g →
    let b' := if th.charged = 0 then b else b.chargeWide f core (keyThr t) th.charged g
    let b1 := (b'.setCore f core { b'.core f core with charged := (b'.core f core).charged - th.charged }).release f (threadAsker core (keyThr t))
    exec (.rationRel t) ⟨b0, q⟩ = .next ⟨b1.setThread t { (b1.thread t).next with charged := 0 }, q⟩) ∧
  (Issues b0 t (ofSys 0x030) = true →
    exec (.csrr t) ⟨b0, q⟩ = .next ⟨b.compute t w th (th.wg (wRd w) (BitVec.ofNat 64 (b.csr t (wRs1 w)))), q⟩) ∧
  (Issues b0 t (ofSys 0x031) = true → th.gBad (wRs2 w) = false →
    exec (.csrw t) ⟨b0, q⟩ = .next ⟨if wRs1 w = 7 then b.setThread t { th.next with fpflags := th.gn (wRs2 w) % 16 } else b.advance t, q⟩) ∧
  (Issues b0 t (ofSys 0x040) = true →
    exec (.tbar t) ⟨b0, q⟩ = .next ⟨(b.setThread t { th.next with wait := .barrier }).openBarrier f core, q⟩) ∧
  (Issues b0 t (ofSys 0x041) = true →
    exec (.yield t) ⟨b0, q⟩ = .next ⟨(b.setCore f core { b.core f core with yielded := setBit (b.core f core).yielded (keyThr t) true }).advance t, q⟩) ∧
  (Issues b0 t (ofSys 0x042) = true → wRs2 w = 0 →
    let th2 := ({ th with gp := setBit th.gp (wRs1 w) false } : ThreadSt).wp (wRd w % 8) (predOf (th.gBad (wRs1 w)))
    exec (.pchk t) ⟨b0, q⟩ =
      .next ⟨(b.setThread t { th2.next with pp := if wRd w % 8 = 0 then th2.pp else setBit th2.pp (wRd w % 8) false }).count F.pchkCleared
        (if th.gBad (wRs1 w) then 1 else 0), q⟩) ∧
  (Issues b0 t (ofSys 0x042) = true → wRs2 w = 1 →
    let th2 := ({ th with vp := setBit th.vp (wRs1 w) false } : ThreadSt).wp (wRd w % 8) (predOf (th.vBad (wRs1 w)))
    exec (.pchk t) ⟨b0, q⟩ =
      .next ⟨(b.setThread t { th2.next with pp := if wRd w % 8 = 0 then th2.pp else setBit th2.pp (wRd w % 8) false }).count F.pchkCleared
        (if th.vBad (wRs1 w) then 1 else 0), q⟩) ∧
  (Issues b0 t (ofSys 0x042) = true → 2 ≤ wRs2 w →
    let th2 := ({ th with pp := setBit th.pp (wRs1 w) false } : ThreadSt).wp (wRd w % 8) (predOf (th.pBad (wRs1 w)))
    exec (.pchk t) ⟨b0, q⟩ =
      .next ⟨(b.setThread t { th2.next with pp := if wRd w % 8 = 0 then th2.pp else setBit th2.pp (wRd w % 8) false }).count F.pchkCleared
        (if th.pBad (wRs1 w) then 1 else 0), q⟩) ∧
  (Issues b0 t (ofSys 0x07F) = true → (List.range 32).any th.gBad = false →
    let b1 := b.setThread t { th.next with live := false }
    exec (.endCmd t) ⟨b0, q⟩ =
      .next ⟨(if isWide th.vl th.ew then b1.setCore f core { b1.core f core with lastWide := b.fab.time } else b1).openBarrier f core, q⟩)

/-- Vector words (R204, R205, R207, R208, R210): the elements under the guard are computed, the others keep their values; a reduction; a compare; the
softmax update. -/
def Obligations.VectorWordsComplete : Prop :=
  ∀ (b0 : Block) (q : List Instr) (t : Nat),
  let b := AtIssue b0 t
  let w := b.fetch t
  let th := b.thread t
  (Issues b0 t (ofMajor 0x20) = true →
    let r := vResult w th.vl th.ew (th.rp (wPg w)) (th.rv (wVd w)) (th.rv (wVs1 w)) fun i => vElem (th.rv (wVs2 w)) (elemBytes th.ew) i
    exec (.vop t) ⟨b0, q⟩ = .next ⟨b.compute t w th ((th.wv (wVd w) r.1).flag r.2), q⟩) ∧
  (Issues b0 t (ofMajor 0x21) = true →
    let r := vResult w th.vl th.ew (th.rp (wPg w)) (th.rv (wVd w)) (th.rv (wVs1 w)) fun _ => th.gn (wVrs w) % 2 ^ (8 * elemBytes th.ew)
    exec (.vops t) ⟨b0, q⟩ = .next ⟨b.compute t w th ((th.wv (wVd w) r.1).flag r.2), q⟩) ∧
  (Issues b0 t (ofMajor 0x22) = true →
    let r := vReduce w th.vl th.ew (th.rv (wVs1 w))
    exec (.vred t) ⟨b0, q⟩ = .next ⟨b.compute t w th ((th.wg (wVrs w) r.1).flag r.2), q⟩) ∧
  (Issues b0 t (ofMajor 0x23) = true →
    let xs := vList (th.rv (wVs1 w)) (wVty w) th.vl th.ew
    let ys := vList (th.rv (wVs2 w)) (wVty w) th.vl th.ew
    let bit (i : Nat) (xy : Nat × Nat) : Nat × Nat × Nat :=
      (i, 1, if (th.rp (wPg w)).getLsbD i then (if vCompare (wVty w) (wVop w) xy.1 xy.2 then 1 else 0) else if (th.rp (wVd w % 8)).getLsbD i then 1 else 0)
    exec (.vcmp t) ⟨b0, q⟩ =
      .next ⟨b.compute t w th ((th.wp (wVd w % 8) (BitVec.ofNat 64 (packBits ((xs.zip ys).mapIdx bit)))).flag
        (if wVty w = 2 then 0 else nanFlags (xs ++ ys))), q⟩) ∧
  (Issues b0 t (ofMajor 0x24) = true →
    let rs := wVrs w
    let r := smup ((List.range th.vl).map (vElem (th.rv (wVs1 w)) 4)) ((List.range th.vl).map fun i => (th.rp (wPg w)).getLsbD i)
      (th.gn rs % 2 ^ 32) (th.gn rs / 2 ^ 32)
    let th1 := (th.wv (wVd w) (vPack 4 r.ps)).wg rs (BitVec.ofNat 64 (r.l * 2 ^ 32 + r.m))
    exec (.smup t) ⟨b0, q⟩ = .next ⟨b.compute t w th ((th1.wg (rs + 1) (BitVec.ofNat 64 r.alpha)).flag r.flags), q⟩)

/-- Words to an array of the thread's JOB that is ready (R239, R240, R248): PUT into a bank that does not run, RUN on an idle array and behind a running
bank, ABORT, STAT, and WAIT on an idle and on a running array. -/
def Obligations.ArrayWordsComplete : Prop :=
  ∀ (b0 : Block) (q : List Instr) (t : Nat),
  let b := AtIssue b0 t
  let w := b.fetch t
  let th := b.thread t
  let f := keyField t
  let sel := th.gn (wRs1 w)
  let n := 3 * (keyCore t / 72) + sel % 4
  let x := b.array f n
  let bank := bitsOf sel 2 1
  let start := th.gn (wRs2 w) % 512
  th.gBad (wRs1 w) = false → th.gBad (wRs2 w) = false → sel % 4 ≠ 3 → b.mayCommand th f n = true →
  bitAt ((b.fieldSt f).shown (b.fieldSt f).arrays) n = true →
  (Issues b0 t (ofSys 0x020) = true → b.arrIdle f n = true ∨ bank ≠ x.bank →
    exec (.arrPut t) ⟨b0, q⟩ =
      .next ⟨(b.setArray f n { x with banks := sset (fun _ => 0) x.banks (512 * bank + bitsOf sel 3 9) (th.rg (wRs2 w)) }).arrAnswer t w 0, q⟩) ∧
  (Issues b0 t (ofSys 0x021) = true → b.arrIdle f n = true →
    let b1 := b.setArray f n { x with running := true, bank := bank, index := start, next := none, words := 0, err := 0, aborted := false,
                                      nanSeen := false, starter := some (t, th.pc), headStall := 0 }
    exec (.arrRun t) ⟨b0, q⟩ = .next ⟨(b1.setThread t { b1.thread t with progs := (b1.thread t).progs ++ [n] }).arrAnswer t w 0, q⟩) ∧
  (Issues b0 t (ofSys 0x021) = true → b.arrIdle f n = false → bank ≠ x.bank → x.next = none →
    let b1 := b.setArray f n { x with next := some (start, t, th.pc) }
    exec (.arrRun t) ⟨b0, q⟩ = .next ⟨(b1.setThread t { b1.thread t with progs := (b1.thread t).progs ++ [n] }).arrAnswer t w 0, q⟩) ∧
  (Issues b0 t (ofSys 0x022) = true → x.aborting = false →
    exec (.arrAbort t) ⟨b0, q⟩ = .next ⟨(b.abortArray f n).arrAnswer t w 0, q⟩) ∧
  (Issues b0 t (ofSys 0x022) = true → x.aborting = true →
    exec (.arrAbort t) ⟨b0, q⟩ = .next ⟨(b.setArray f n x.unqueue).arrAnswer t w 0, q⟩) ∧
  (Issues b0 t (ofSys 0x023) = true → exec (.arrStat t) ⟨b0, q⟩ = .next ⟨b.arrAnswer t w (b.arrStatus f n), q⟩) ∧
  (Issues b0 t (ofSys 0x024) = true → b.arrIdle f n = true → exec (.arrWait t) ⟨b0, q⟩ = .next ⟨b.arrAnswer t w (b.arrStatus f n), q⟩) ∧
  (Issues b0 t (ofSys 0x024) = true → b.arrIdle f n = false →
    exec (.arrWait t) ⟨b0, q⟩ = .next ⟨b.setThread t { th.next with wait := .array n (wRd w) }, q⟩)

/-- The words of an array program at their head (R237, R238): a tile fetched, SWAP, rows streamed and drained under their grants, CHAIN and END; and what
completes them (R240, R242, R249). -/
def Obligations.ArrayProgramsComplete : Prop :=
  ∀ (b : Block) (q : List Instr) (f n : Nat),
  let x := b.array f n
  let w := x.head
  let head (op : Nat) : Prop := x.running = true ∧ arrWordOk w = true ∧ wordOp w = op
  let fmt := bitsOf w 57 3
  let rows := wRows w
  let base := wBase w
  (head 1 →
    let a := holderAddr f (128 * bitsOf w 0 33)
    let b0 := b.setArray f n { x with shiftIdle := 0 }
    let y := b0.array f n
    y.shift = none → y.shadow.state = 0 ∨ y.shadow.state = 2 ∨ y.shadow.state = 3 → b0.rspRoom f (0x140 + n) = true → b0.arrGrant f n 0 = true →
    b0.fetchBarred f n a (imageBytes fmt) = false →
    let b1 := b0.setArray f n { y.issued with shift := some (fmt, a), shadow := ⟨4, fmt, 0⟩ }
    exec (.loadTile f n) ⟨b, q⟩ =
      .next ⟨((granuleRuns a (imageBytes fmt) 8).foldl (fun b r => b.arrIssue f n 0 .read [r.1] r.2 false) b1).settleArray f n, q⟩) ∧
  (head 2 →
    let b0 := b.absorb f n
    let y := b0.array f n
    y.shift = none → (b0.tc.ops.any fun o => o.array == some (arrKey f n) && decide (1 ≤ o.tag) && decide (o.tag < 1024)) = false →
    y.shadow.state = 1 ∨ y.shadow.state = 3 →
    exec (.swap f n) ⟨b, q⟩ = .next ⟨(b0.setArray f n { y.issued with active := y.shadow, shadow := Tile.empty }).settleArray f n, q⟩) ∧
  (head 3 →
    let a := holderAddr f (256 * bitsOf w 0 32)
    let b0 := (b.setArray f n { x with streamIdle := 0 }).absorb f n
    let y := b0.array f n
    (b0.tc.ops.any fun o => o.array == some (arrKey f n) && decide (1 ≤ o.tag) && decide (o.tag < 1024)) = false →
    b0.rspRoom f (0x140 + n) = true → b0.arrGrant f n 1 = true → y.active.state = 1 ∨ y.active.state = 3 → base + rows ≤ 512 →
    (wFlag w = false → (List.range rows).any (fun r => (sget (fun _ => none) y.acc (base + r)).isNone) = false) →
    b0.fetchBarred f n a (256 * rows) = false →
    let b1 := b0.setArray f n { y.issued with flight := y.flight ++ [(base, rows, wFlag w)] }
    exec (.stream f n) ⟨b, q⟩ =
      .next ⟨((List.range rows).foldl (fun b r => b.arrIssue f n (1 + r) .read [a + 256 * r] 256 false) b1).settleArray f n, q⟩) ∧
  (head 4 → x.drain = none → x.flight.any (fun s => rowsMeet base rows s.1 s.2.1) = false → b.rspRoom f (0x140 + n) = true → base + rows ≤ 512 →
    (List.range rows).any (fun r => (sget (fun _ => none) x.acc (base + r)).isNone) = false →
    let a := holderAddr f (256 * bitsOf w 0 32)
    let b1 := b.setArray f n { x.issued with drain := some (base, rows), streamIdle := if b.holds f (arrAsker n 1) then b.fab.time + 1 else 0 }
    exec (.drain f n) ⟨b, q⟩ =
      .next ⟨((List.range rows).foldl (fun b r =>
        let v := (sget (fun _ => none) x.acc (base + r)).getD ⟨0, false⟩
        let at_ := if wFlag w then [a + 512 * r, a + 512 * r + 256] else [a + 256 * r]
        b.arrIssue f n (1024 + r) (.write (drainRow (wFlag w) v.data)) at_ 256 v.poison) b1).settleArray f n, q⟩) ∧
  (head 5 → x.next.isSome = true → x.shift = none → exec (.chain f n) ⟨b, q⟩ = .next ⟨b.switchBank f n, q⟩) ∧
  (head 7 → x.next.isSome = true → x.shift = none → exec (.arrayEnd f n) ⟨b, q⟩ = .next ⟨b.switchBank f n, q⟩) ∧
  (head 7 → x.next = none → x.index < 512 →
    exec (.arrayEnd f n) ⟨b, q⟩ =
      .next ⟨(b.setArray f n { x with words := (x.words + 1) % 2 ^ 32, headStall := 0, running := false,
                                      streamIdle := if b.holds f (arrAsker n 1) = true ∧ x.streamIdle = 0 then b.fab.time + 1 else x.streamIdle }).settleArray f n, q⟩) ∧
  (head 0 → exec (.arrayNop f n) ⟨b, q⟩ = .next ⟨(b.setArray f n x.issued).settleArray f n, q⟩) ∧
  (∀ fa : Nat × Nat, x.shift = some fa →
    let ops := b.tc.ops.filter fun o => o.array == some (arrKey f n) && o.tag == 0
    ops.any (fun o => !o.performed) = false → ops.any (·.resultPoison) = false →
    let img := ops.foldr (fun o r => o.result % 2 ^ (8 * o.width) + 2 ^ (8 * o.width) * r) 0
    let b1 := (b.removeOps fun o => o.array == some (arrKey f n) && o.tag == 0).setArray f n
      { x with shift := none, shadow := ⟨1, fa.1, img⟩, shiftIdle := if b.holds f (arrAsker n 0) then b.fab.time + 1 else 0 }
    exec (.shiftComplete f n) ⟨b, q⟩ = .next ⟨(b1.bump (F.tilesLoaded f)).settleArray f n, q⟩) ∧
  (x.aborting = true → (b.tc.ops.any fun o => o.array == some (arrKey f n)) = false →
    exec (.abortComplete f n) ⟨b, q⟩ = .next ⟨(b.setArray f n { x with aborting := false, aborted := true, acc := [], flight := [] }).settleArray f n, q⟩) ∧
  (b.arrState f n = 2 → x.stallAt ≠ 0 → x.stallRaised = false →
    let us := (b.fab.time - (x.stallAt - 1)) / 1000
    max 1 (b.fget F.arrConfigStallEventUs) < us →
    exec (.arrayStall f n) ⟨b, q⟩ =
      .next ⟨(b.setArray f n { x with stallRaised := true }).raise 0x0930 f (b.arrCamp f n)
        (packBits [(0, 8, n), (8, 8, x.stall), (16, 16, x.index), (32, 32, us), (64, 64, b.stallAddr f n x.stall)]), q⟩) ∧
  (let b0 := b.absorb f n
   let y := b0.array f n
   let entering := b0.tc.ops.any fun o => o.array == some (arrKey f n) && decide (1 ≤ o.tag) && decide (o.tag < 1024)
   y.flight ≠ [] → (y.flight.length = 1 → entering = false) →
    exec (.streamDone f n) ⟨b, q⟩ = .next ⟨(b0.setArray f n { y with flight := y.flight.drop 1 }).settleArray f n, q⟩) ∧
  (x.drain.isSome = true → (b.tc.ops.any fun o => o.array == some (arrKey f n) && decide (1024 ≤ o.tag)) = false →
    exec (.drainDone f n) ⟨b, q⟩ = .next ⟨(b.setArray f n { x with drain := none }).settleArray f n, q⟩)

/-- The DMA unit, the page walk and the attention and sampling units: an element that its slot lets run (R560), pages walked (R266), a partial
joined (R286, R287), a ring piece folded (R291), a row of logits taken (R302, R306), its records merged (R308) and its second pass run (R307). -/
def Obligations.EngineWorkCompletes : Prop :=
  (∀ (b : Block) (q : List Instr) (f slot camp seq i : Nat) (d : Desc) (j : DmaJob) (x : ElemAt), b.unpowered f = false → b.desc? camp seq = some d →
    b.dmaOf camp seq = some j → i < j.total → sget (fun _ => false) j.done i = false → b.elemAt d i = some x → x.field = f →
    Runs b f slot x.bytes (.elem (.job camp seq i)) = true →
    exec (.dmaElementDone f slot (.job camp seq i)) ⟨b, q⟩ = .next ⟨b.runElem d i f x, q⟩) ∧
  (∀ (b : Block) (q : List Instr) (f slot s pair : Nat) (values : Bool) (x : Slot) (m : Model), b.unpowered f = false → b.slot? s = some x →
    b.slotModel s = some m → Runs b f slot (2 * m.dim * m.depth) (.elem (.transplant s pair values)) = true →
    exec (.dmaElementDone f slot (.transplant s pair values)) ⟨b, q⟩ = .next ⟨b.transplant s pair values f, q⟩) ∧
  (∀ (b : Block) (q : List Instr) (f slot camp entry granule : Nat) (k : Park) (at_ ch : Nat), b.unpowered f = false →
    b.serve.parks.find? (fun k => k.camp == camp && k.entry == entry && !k.landed) = some k → place k.addr = .unified f at_ ch →
    granule < k.granules → k.done.contains granule = false → Runs b f slot 0x8000 (.elem (.park camp entry granule)) = true →
    exec (.dmaElementDone f slot (.park camp entry granule)) ⟨b, q⟩ =
      .next ⟨((b.parkElement camp entry granule).countHost ((b.dmaFn camp granule).getD 0) f 0x8000 true).elemEnds f (.park camp entry granule) 0x8000, q⟩) ∧
  (∀ (b : Block) (q : List Instr) (slot : Nat) (e : PageElem), b.unpowered e.field = false → b.page.elems.contains e = true →
    Runs b e.field slot e.bytes (.elem (.page e)) = true →
    let b1 := ({ b with page := { b.page with elems := b.page.elems.filter (· != e) } } : Block).elemEnds e.field (.page e) e.bytes
    exec (.dmaElementDone e.field slot (.page e)) ⟨b, q⟩ = .next ⟨if e.kind = 2 then b1.ackDrop e.camp e.field 1 else b1, q⟩) ∧
  (∀ (b : Block) (q : List Instr) (f slot : Nat), b.unpowered f = false → Runs b f slot 0x8000 (.elem .other) = true →
    exec (.dmaElementDone f slot .other) ⟨b, q⟩ = .next ⟨b.clearSlot f slot, q⟩) ∧
  (∀ (b : Block) (f slot cls camp n : Nat) (w : SlotWork), 4096 ≤ n → b.slotUse f slot = none → b.slotted f w = false → b.slotTurn f w = true →
    b.slotFits f slot cls = true → b.holds f (dmaSlot slot) = false → b.waits f (dmaSlot slot) = false → ∀ k,
    b.inSlot f slot cls camp n w k =
      (({ b with host := { b.host with slotQueue := b.host.slotQueue.filter fun x => !(x.1 == f && x.2.work == w) } } : Block).setSlotUse f slot
        (some ⟨w, cls, camp⟩)).request f (dmaSlot slot) cls camp 8 false) ∧
  (∀ (b : Block) (q : List Instr) (f slot pair first last core off : Nat) (m : Model), b.slotModel slot = some m →
    let blocks := b.walkBlocks f slot pair first last m.team
    let pages := blocks.flatMap fun x => (List.range 28).filterMap fun n =>
      let i := x.2.first + n * m.team
      if first ≤ i ∧ i ≤ last ∧ b.pte slot pair i ≠ 0 then some i else none
    let p := localAddr f core off
    let r := pages.foldl (fun (x : Block × Nat) i =>
      (x.1.storeBytes (p + 8 * x.2) 8 (bytesLE 8 (x.1.walkRecord f slot pair i)), x.2 + 1)) (b, 0)
    let holed := (pages.map fun i => b.pte slot pair i).filter fun v => bitAt v 31 && bitAt v 28
    exec (.pageWalk f slot pair first last core off) ⟨b, q⟩ =
      .next ⟨((r.1.bump (F.walks f)).count (F.walkBlocks f) blocks.length).chargeWalk m.camp f slot (blocks.map (·.1)) (holed.map pteFrame), q⟩) ∧
  (∀ (b : Block) (q : List Instr) (c slot pair pos src lvl idx : Nat) (x : AttItem) (m : Model), b.item? c slot pair pos = some x → b.slotModel slot = some m →
    exec (.partialArrive c slot pair pos src lvl idx) ⟨b, q⟩ = .next ⟨b.pushItem m { x with nodes := treeArrive x.nodes src lvl idx } src, q⟩) ∧
  (∀ (b : Block) (q : List Instr) (c f slot layer row src : Nat) (pages : List RingPage) (m : Model), b.slotModel slot = some m → m.camp = c →
    m.layout = 1 → 1 < m.sliceW → src ≠ m.rank → src < m.sliceW →
    let b1 := pages.foldl (fun b pg =>
      if pg.pair / max 1 m.kvHeads ≠ layer then b
      else (b.att.items.filter fun x => x.camp == c && x.slot == slot).foldl (fun b x => b.ringFold m f row src pg x) b) (b.bump F.ringPieces)
    exec (.ringPiece c f slot layer row src pages) ⟨b, q⟩ =
      .next ⟨if (m.rank + 1) % m.sliceW = src then b1 else b1.send (.ringPiece f slot layer row src), q⟩) ∧
  (∀ (b : Block) (q : List Instr) (c f slot pos : Nat) (logits : List Nat) (m : Model) (r : Request) (u : SampUse) (i : Nat), b.rowUse slot pos = some (m, r, u) →
    (b.batchRows c).findIdx? (fun x => x == (slot, pos)) = some i → logits.length = (m.shardOf f).2 → b.inStep c = true →
    (b.result? c slot pos).isSome = false → b.row? c slot pos = none → b.rowBytes f + 4 * logits.length ≤ b.rowBuffer →
    let y : SampRow := ⟨c, slot, pos, i, 1, [(f, logits)], [f], [], [], [], none, none, none, none⟩
    exec (.sampleRow c f slot pos logits false) ⟨b, q⟩ =
      .next ⟨(({ b with samp := { b.samp with rows := b.samp.rows ++ [y] } } : Block).countWave c f (4 * logits.length)).runUnit f c, q⟩) ∧
  (∀ (b : Block) (q : List Instr) (c slot pos lvl idx : Nat) (x : SampRow) (m : Model) (r : Request) (u : SampUse) (s : Slot), b.row? c slot pos = some x →
    b.rowUse slot pos = some (m, r, u) → b.slot? slot = some s →
    (x.pass = 1 → exec (.mergeRecord c slot pos 1 lvl idx) ⟨b, q⟩ = .next ⟨b.pushPass1 m u { x with nodes1 := treeArrive x.nodes1 1 lvl idx }, q⟩) ∧
    (2 ≤ x.pass → exec (.mergeRecord c slot pos x.pass lvl idx) ⟨b, q⟩ =
      .next ⟨b.pushPass2 m r s u { x with nodes2 := treeArrive x.nodes2 x.pass lvl idx }, q⟩)) ∧
  (∀ (b : Block) (q : List Instr) (c slot pos f : Nat) (x : SampRow) (m : Model) (r : Request) (u : SampUse) (s : Slot) (m1 : Pass1) (sh : Nat × List Nat),
    b.row? c slot pos = some x → b.rowUse slot pos = some (m, r, u) → b.slot? slot = some s → x.m1 = some m1 →
    x.shards.find? (fun s => s.1 == f) = some sh → 2 ≤ x.pass → x.ran.contains f = false → b.covers f samplingUnit 6 = true →
    let lseY := match x.m2 with | some v => logSum m1.yMax v.sY | none => 0
    let v := pass2Over u pos m1 lseY (decide (x.pass = 3)) pass2Start (m.shardOf f).1 sh.2
    let rank := m.treeRank x.index f
    exec (.pass2Start c slot pos f) ⟨b, q⟩ =
      .next ⟨b.pushPass2 m r s u { x with ran := x.ran ++ [f], nodes2 := x.nodes2 ++ [⟨x.pass, 0, rank, decide (rank % 2 = 0), v⟩] }, q⟩)

/-- Serving descriptors (R328, R342, R432): GENERATE, FORK_GROUP and SCORE go to the camp's scheduler; CANCEL is noted for the
boundary; SET_POLICY writes the fields that it selects; FENCE completes once no earlier descriptor of its rings waits; STATS. -/
def Obligations.ServingDescriptorsComplete : Prop :=
  (∀ (b : Block) (q : List Instr) (camp seq : Nat) (tokens : List Nat) (readBad : Nat),
    exec (.generate camp seq tokens readBad) ⟨b, q⟩ = .next ⟨b.takeRequest camp seq 0x20 tokens readBad, q⟩ ∧
    exec (.forkGroup camp seq tokens readBad) ⟨b, q⟩ = .next ⟨b.takeRequest camp seq 0x21 tokens readBad, q⟩ ∧
    exec (.score camp seq tokens readBad) ⟨b, q⟩ = .next ⟨b.takeRequest camp seq 0x22 tokens readBad, q⟩) ∧
  (∀ (b : Block) (q : List Instr) (camp seq : Nat) (d : Desc), Waits b camp seq 0x09 d →
    let x := (camp, seq, d.field 16 4)
    exec (.cancel camp seq) ⟨b, q⟩ =
      .next ⟨(if b.stepComplete camp then ({ b with serve := { b.serve with lateCancels := b.serve.lateCancels ++ [x] } } : Block)
        else { b with serve := { b.serve with cancels := b.serve.cancels ++ [x] } }).start d, q⟩) ∧
  (∀ (b : Block) (q : List Instr) (camp seq : Nat) (d : Desc), Waits b camp seq 0x0A d →
    exec (.setPolicy camp seq) ⟨b, q⟩ =
      .next ⟨((policyFields d camp).foldl (fun b x => if bitAt (d.field 16 2) x.1 then
        b.setPolicyField x.2.1 (if x.1 = 4 then min x.2.2 (campSlots b.camp.live camp) else x.2.2) else b) b).complete d 0 0, q⟩) ∧
  (∀ (b : Block) (q : List Instr) (camp seq : Nat) (d : Desc), Waits b camp seq 0x0B d →
    ((b.ring.descs.takeWhile fun x => !(x.camp == camp && x.seq == seq)).any fun x => x.fn == d.fn && bitAt (d.field 16 8) x.ring) = false →
    exec (.fenceDescriptor camp seq) ⟨b, q⟩ = .next ⟨b.complete d 0 0, q⟩) ∧
  (∀ (b : Block) (q : List Instr) (camp seq : Nat) (d : Desc), Waits b camp seq 0x0C d → d.field 24 8 % 8 = 0 →
    exec (.stats camp seq) ⟨b, q⟩ =
      .next ⟨if b.inStep camp then ({ b with serve := { b.serve with stats := b.serve.stats ++ [(camp, seq)] } } : Block).start d else b.takeStats camp seq, q⟩)

/-- PHASE, REFRESH, LOAD_MODEL, UNLOAD_MODEL and COPY (R97, R349, R350, R361, R362, R365, R426, R428, R430, R552): accepted with usable operands, they start their work or complete. -/
def Obligations.ModelDescriptorsComplete : Prop :=
  (∀ (b : Block) (q : List Instr) (camp seq : Nat) (table : List Nat) (d : Desc), Waits b camp seq 0x04 d → d.bits 16 0 2 ≠ 3 →
    (d.bits 16 0 2 = 1 → d.field 24 2 ≠ 0) → d.bits 28 0 13 ≤ 4096 → (d.bits 28 0 13 ≠ 0 → d.field 40 8 % 32 = 0) → table.length = d.bits 28 0 13 →
    table.any (b.parkBad camp (decide (d.bits 16 0 2 = 2))) = false → (d.field 24 2 = 0 ∨ (b.usable camp (d.field 24 2)).isSome = true) →
    (d.field 26 2 = 0 ∨ (b.usable camp (d.field 26 2)).isSome = true) →
    let j : PhaseJob := ⟨camp, seq, d.bits 16 0 2, decide (d.bits 17 0 1 = 1), d.field 20 4, d.field 24 2, d.field 26 2, d.field 32 8,
      table.map fun x => (parkAddr x, parkHost x, parkGranules x), 0, false, 0, 0, (b.phaseSt camp).phase⟩
    exec (.phase camp seq table 0) ⟨b, q⟩ =
      .next ⟨(({ b with serve := { b.serve with phaseJobs := b.serve.phaseJobs ++ [j] } } : Block).start d).startPhase camp, q⟩) ∧
  (∀ (b : Block) (q : List Instr) (c : Nat) (j : PhaseJob), b.serve.phaseJobs.find? (fun j => j.camp == c && j.started != 0 && j.switched == 0) = some j →
    j.hold = false → j.drainMs ≠ 0 → j.started - 1 + j.drainMs * 1000000 ≤ b.fab.time →
    exec (.phaseDrainLimit c) ⟨b, q⟩ = .next ⟨b.setPhaseJob c j.seq fun x => { x with limit := true }, q⟩) ∧
  (∀ (b : Block) (q : List Instr) (camp seq : Nat) (d : Desc) (m : Model), Waits b camp seq 0x05 d → b.model? camp (d.field 16 2) = some m → m.state = 1 →
    (b.phaseSt camp).phase = 2 → b.refreshObjBad m = false → d.bits 18 0 4 ≠ 0 → d.bits 18 0 4 ≤ 8 →
    exec (.refresh camp seq true) ⟨b, q⟩ =
      .next ⟨({ b with serve := { b.serve with refreshes := b.serve.refreshes ++ [⟨camp, seq, m.id, d.bits 18 0 4, b.fab.time, false, 0, []⟩] } } : Block).start d, q⟩) ∧
  (∀ (b : Block) (q : List Instr) (camp seq : Nat) (own : List RefreshTile) (scales : List RefreshScale) (gathered : List GatheredTile) (d : Desc) (r : Refresh)
      (ts : List GatheredTile), b.desc? camp seq = some d → b.serve.refreshes.find? (fun x => x.camp == camp && x.seq == seq) = some r →
    ((b.ring.descs.takeWhile fun x => !(x.camp == camp && x.seq == seq)).any fun x => x.camp == camp && x.op == 0x06) = false →
    (own.any fun t => !b.rewritable t.dst (imageBytes t.fmt)) = false → (gathered.any fun t => !b.rewritable t.dst (imageBytes t.fmt)) = false →
    (scales.any fun s => !b.rewritable s.dst (2 * s.vector.length)) = false →
    let r' := { r with fields := (r.fields ++ (own.map fun t => addrField t.dst).filter fun f => decide (f < 96)).dedup }
    let b0 := (b.noteRefresh r').refreshGrants r'
    b0.2 = true → (b0.1.buildTiles camp seq own).2 = .ok ts →
    (ts ++ gathered).find? (fun t => (b0.1.buildTiles camp seq own).1.tileLost t.dst) = none →
    let all := ts ++ gathered
    let b1 := all.foldl (fun b t => b.rewriteRun camp r'.model t.dst (bytesLE (imageBytes t.fmt) t.image)) (b0.1.buildTiles camp seq own).1
    let b2 := scales.foldl (fun b s => b.rewriteRun camp r'.model s.dst (scaleBytes s)) b1
    let v := (b2.phaseSt camp).version + 1
    let b3 := ((b2.endRefresh r').setModel camp r'.model fun m => { m with incomplete := false }).setPhase camp fun p => { p with version := v }
    exec (.refreshComplete camp seq own scales gathered none) ⟨b, q⟩ =
      .next ⟨((((b3.countGather r' (all.map fun t => addrField t.dst).dedup.length true).raise 0x0551 0xFF camp
        (packBits [(0, 32, seq), (32, 32, v), (64, 32, (b.fab.time - r'.started) / 1000), (96, 32, all.length)])).bump (F.refreshes camp)).complete d 0 v).startPhase camp, q⟩) ∧
  (∀ (b : Block) (q : List Instr) (camp seq : Nat) (s : ModelSpec) (d : Desc), Waits b camp seq 0x01 d → loadBad b d s = none →
    b.specClash s.objs = false →
    ((List.range 96).foldl (fun x f => max x (((b.fieldObjs f).filter fun no => decide (0 < no.2.count)).length + s.objs.length)) 0) ≤ 65535 →
    let m0 := newModel b d s
    let rows := if b.poolNow m0 then b.minRows camp else 0
    let trayShort := (List.range 96).foldl (fun x f =>
      max x (b.trayTaken + m0.trayKib * 1024 + ((b.fieldTrays f).map fun (t : Nat × TrayEnt) => t.2.bytes).foldl (· + ·) 0 - (b.trayBanks f).length * 0x400000)) 0
    let stream := b.freeStream camp s.objs
    let os := if d.field 20 2 = 0 then s.objs
      else spill s.objs (if d.field 20 2 = 0 then 0 else b.spillCount m0 s.objs stream rows (spillable s.objs) 0) stream
    ¬ (m0.trayKib ≠ 0 ∧ 0 < trayShort) → b.loadShort m0 os rows = 0 →
    let w := windowNeed os
    let inD := weightNeed os * 96
    let inC := ((os.filter fun o => !inDram o).map (·.granules)).foldl (· + ·) 0 * 96
    let most := if b.poolNow m0 then m0.mostRows fun f => b.available f 2 camp false - weightNeed os - w else 0
    let m := { m0 with rows := most, log := if b.poolNow m0 then logGranules most else 0, bytesDram := inD * 32768, bytesCellar := inC * 32768, windows := w }
    let b1 := b.placeAll d m os
    let b2 : Block := { b1 with
      serve := { b1.serve with models := b1.serve.models ++ [m] }
      tier := { b1.tier with reserved := (List.range 96).foldl (fun r f => supd (fun _ => 0) r (16 * f + camp) (· + w)) b1.tier.reserved } }
    let b3 := (List.range 96).foldl (fun b f => b.fillPool m f (m.poolAim f)) b2
    exec (.loadModel camp seq s) ⟨b, q⟩ = .next ⟨if inD = 0 then b3.modelLoaded d m else (b3.startDma camp seq inD).start d, q⟩) ∧
  (∀ (b : Block) (q : List Instr) (camp seq : Nat) (d : Desc) (m : Model), Waits b camp seq 0x02 d → b.model? camp (d.field 16 2) = some m → m.state = 1 →
    exec (.unloadModel camp seq) ⟨b, q⟩ =
      .next ⟨if b.inStep camp || b.modelBusy m then (b.setModel camp m.id fun x => { x with state := 2, unload := seq + 1 }).start d
        else (b.dropModel m).complete d 0 0, q⟩) ∧
  (∀ (b : Block) (q : List Instr) (camp seq : Nat) (d : Desc), Waits b camp seq 0x07 d → ¬ (d.srcHost = true ∧ d.dstHost = true) → d.copyLen ≠ 0 →
    (d.srcHost = false → b.copyDenied camp d.copySrc d.copyLen true = none) → (d.dstHost = false → b.copyDenied camp d.copyDst d.copyLen false = none) →
    exec (.copy camp seq) ⟨b, q⟩ = .next ⟨(b.startDma camp seq (elemCount d.copyCuts d.copyLen)).start d, q⟩)

/-- The host links (R372, R373, R375, R376, R385, R386, R392, R394, R395): a link comes up and goes down; function resets; host reads answered and timed out; a poisoned write;
configuration requests; IDE keys and a failed check; a recovery. -/
def Obligations.HostLinkCompletes : Prop :=
  (∀ (b : Block) (q : List Instr) (p speed width : Nat) (flit : Bool), b.modu.pwrGood = true → (b.portSt p).up = false → bitAt b.modu.perst p = false →
    speed ≠ 0 → speed ≤ 6 → width = 4 ∨ width = 8 ∨ width = 16 →
    let b1 := b.setPort_ p { b.portSt p with up := true, flit := flit || decide (speed = 6), speed := speed, width := width, ltssm := 3, failRaised := false }
    let b2 := b1.hostEvent 0x0801 p 0x3F 0
    exec (.hostLinkUp p speed width flit) ⟨b, q⟩ = .next ⟨if width < 16 ∨ speed < 6 then b2.hostEvent 0x0803 p 0x3F 0 else b2, q⟩) ∧
  (∀ (b : Block) (q : List Instr) (p ltssm : Nat), (b.portSt p).up = true → ltssm ≠ 3 → ltssm ≠ 4 →
    exec (.hostLinkDown p ltssm) ⟨b, q⟩ = .next ⟨b.leaveL0 p ltssm, q⟩) ∧
  (∀ (b : Block) (q : List Instr) (p : Nat) (disable : Bool), (b.portSt p).up = true →
    exec (.hotReset p disable) ⟨b, q⟩ = .next ⟨b.leaveL0 p (if disable then 5 else 6), q⟩) ∧
  (∀ (b : Block) (q : List Instr) (fn : Nat), b.ideDrops fn = false → b.fnExists fn = true →
    exec (.functionLevelReset fn) ⟨b, q⟩ = .next ⟨(if fn % 16 = 0 then b.clearVfs (fn / 16) else b).flr fn 1, q⟩) ∧
  (∀ (b : Block) (q : List Instr) (p : Nat), (b.portSt p).vfEnable = true → exec (.vfEnableClear p) ⟨b, q⟩ = .next ⟨b.clearVfs p, q⟩) ∧
  (∀ (b : Block) (q : List Instr) (camp seq i addr data : Nat) (d : Desc) (j : DmaJob) (x : ElemAt), let w := HostRead.elem camp seq i
    let b1 : Block := { b with host := { b.host with late := b.host.late.filter (· != w) } }
    b.readIssued w = true → b1.desc? camp seq = some d → b1.dmaOf camp seq = some j → b1.elemAt d i = some x →
    exec (.hostReadCompletion w 0 addr data) ⟨b, q⟩ =
      .next ⟨(b1.setDma { j with got := sset (fun _ => none) j.got i (some (data % 2 ^ (8 * x.bytes))) }).countHost (b.readOwner w).2.2 x.field x.bytes false, q⟩) ∧
  (∀ (b : Block) (q : List Instr) (w : HostRead) (addr : Nat), b.readIssued w = true → b.host.late.contains w = false →
    let b1 := b.bump (F.cplTimeouts ((b.readOwner w).2.2 / 16))
    exec (.hostReadTimeout w addr) ⟨b, q⟩ = .next ⟨{ b1 with host := { b1.host with late := b1.host.late ++ [w] } }, q⟩) ∧
  (∀ (b : Block) (q : List Instr) (fn : Nat), Reaches b fn = true →
    exec (.barWritePoisoned fn) ⟨b, q⟩ = .next ⟨(b.bump (F.poisonedRx (fn / 16))).bump (F.uncorrErrors (fn / 16)), q⟩) ∧
  (∀ (b : Block) (q : List Instr) (p stream : Nat), (b.ideSt p stream).state = 1 →
    let b1 : Block := { b with host := { b.host with ide := sset (fun _ => IdeSt.init) b.host.ide (ideKey p stream) { b.ideSt p stream with state := 2 } } }
    exec (.ideCheckFail p stream) ⟨b, q⟩ = .next ⟨(b1.bump (F.ideFails p)).hostEvent 0x0806 p 0x3F 0, q⟩) ∧
  (∀ (b : Block) (q : List Instr) (p stream lo hi : Nat), b.session p = 2 →
    exec (.ideKm p stream lo hi) ⟨b, q⟩ =
      .next ⟨{ b with host := { b.host with ide := sset (fun _ => IdeSt.init) b.host.ide (ideKey p stream) ⟨1, lo, hi⟩ } }, q⟩) ∧
  (∀ (b : Block) (q : List Instr) (p replays corr : Nat), (b.portSt p).up = true →
    exec (.hostLinkRecovery p replays corr) ⟨b, q⟩ = .next ⟨((b.bump (F.recoveries p)).count (F.flitReplays p) replays).count (F.corrErrors p) corr, q⟩) ∧
  (∀ (b : Block) (q : List Instr) (fn : Nat), b.ideDrops fn = false → b.fnExists fn = true →
    (∀ off, exec (.configurationRequest fn (.read off)) ⟨b, q⟩ = .next ⟨b.send (.readData fn off (b.cfgWord fn off)), q⟩) ∧
    (∀ on, exec (.configurationRequest fn (.busMaster on)) ⟨b, q⟩ = .next ⟨b.setFn fn fun s => { s with bme := on }, q⟩) ∧
    (∀ d3, exec (.configurationRequest fn (.power d3)) ⟨b, q⟩ = .next ⟨b.setFn fn fun s => { s with d3 := d3 }, q⟩) ∧
    (∀ enable mask, exec (.configurationRequest fn (.msix enable mask)) ⟨b, q⟩ =
      .next ⟨b.setFn fn fun s => { s with msixEnable := enable, fnMask := mask }, q⟩) ∧
    (∀ mps mrrs relaxed tag10, exec (.configurationRequest fn (.deviceControl mps mrrs relaxed tag10)) ⟨b, q⟩ =
      .next ⟨b.setFn fn fun s => { s with mps := mps, mrrs := mrrs, relaxed := relaxed, tag10 := tag10 }, q⟩))

/-- Rings and vectors (R388 to R390, R402 to R406, R408, R409, R415), each command for every ring and function that meets its conditions: a doorbell that is no
overrun (R403, R404); a ring enabled, refused for its configuration, disabled, or kept by a ring that is bound to it (R402); the next descriptor consumed, or found bad
(R406, R415); the next record written into its ring with its phase, or discarded where its function cannot receive (R390, R408, R409); a vector's hold-off that has run
out, and its mask cleared (R389). -/
def Obligations.RingsComplete : Prop :=
  (∀ (b : Block) (q : List Instr) (fn off idx : Nat), Reaches b fn = true → b.fnMapped fn = true → off < 0x200 → b.boot.stage = 10 →
    let k := ringKey fn (off / 8)
    let s := b.ringSt k
    overrunCause b k idx = 0 →
    exec (.doorbell fn off idx true) ⟨b, q⟩ =
      .next ⟨if ringKind b.regs k < 2 then (b.bump (F.doorbells k)).setRing k { s with tail := idx }
        else ((b.bump (F.doorbells k)).setRing k { s with head := idx, full := s.full && decide ((s.tail + 1) % ringSize (b.bump (F.doorbells k)).regs k = idx) }).reportLost k, q⟩) ∧
  (∀ (b : Block) (q : List Instr) (fn off idx : Nat), Reaches b fn = true → b.fnMapped fn = true → off < 0x200 → b.boot.stage = 10 →
    exec (.doorbell fn off idx false) ⟨b, q⟩ = .next ⟨b, q⟩) ∧
  (∀ (b : Block) (q : List Instr) (fn k value : Nat), Writes b fn (F.ringCtrlEnable k).off = true → (b.ringSt k).enabled = false →
    let b1 := b.writeWord (F.ringCtrlEnable k).off (BitVec.ofNat 32 value)
    exec (.ringEnable fn k value) ⟨b, q⟩ =
      .next ⟨if ringCfgErr b1 k = 0
        then ((b1.setRing k { RingSt.init with enabled := true, phase := true, stopped := (b1.ringSt k).stopped }).fset (F.ringCtrlEnable k) 1).shadow k 0 0
        else (b1.setRing k { b1.ringSt k with cfgErr := ringCfgErr b1 k }).fset (F.ringCtrlEnable k) 0, q⟩) ∧
  (∀ (b : Block) (q : List Instr) (fn k value : Nat), Writes b fn (F.ringCtrlEnable k).off = true → (b.ringSt k).enabled = true →
    exec (.ringEnable fn k value) ⟨b, q⟩ = .next ⟨b.writeWord (F.ringCtrlEnable k).off (BitVec.ofNat 32 value), q⟩) ∧
  (∀ (b : Block) (q : List Instr) (fn k value : Nat), Writes b fn (F.ringCtrlEnable k).off = true →
    let b1 := b.writeWord (F.ringCtrlEnable k).off (BitVec.ofNat 32 value)
    exec (.ringDisable fn k value) ⟨b, q⟩ =
      .next ⟨if (b.ringSt k).enabled = false then b1
        else if b.isBound k then (b1.setRing k { b1.ringSt k with cfgErr := 4 }).fset (F.ringCtrlEnable k) 1
        else (b1.setRing k { b1.ringSt k with enabled := false }).fset (F.ringCtrlEnable k) 0, q⟩) ∧
  (∀ (b : Block) (q : List Instr) (fn i raw : Nat), mayConsume b fn i raw = true →
    let k := ringKey fn i
    let s := b.ringSt k
    let len := if bitsOf raw 16 16 = 2 then 2 else 1
    let x := if len = 2 then raw % 2 ^ 1024 else raw % 2 ^ 512
    let head := (s.head + len) % ringSize b.regs k
    let d : Desc := ⟨fn, i, b.fnCamp fn, bitsOf x 32 32, bitsOf x 64 64, bitsOf x 0 8, bitAt x 8, bitAt x 9, x, b.fab.time, false⟩
    let b1 := ((b.setRing k { s with head := head, count := (s.count + len) % 2 ^ 32 }).bump F.descriptorsTotal).bump (F.entries k)
    exec (.descriptorFetch fn i raw) ⟨b, q⟩ =
      .next ⟨(match badDescriptor b (ringKind b.regs k) (b.fnCamp fn) x with
        | some o => (b1.bump F.badDescriptors).report d 0x20 0 0 0 o
        | none => ({ b1 with ring := { b1.ring with descs := b1.ring.descs ++ [d] } } : Block)).shadow k head ((s.count + len) % 2 ^ 32), q⟩) ∧
  (∀ (b : Block) (q : List Instr) (fn i : Nat) (r : Rec), b.nextRec fn i = some r →
    let k := ringKey fn i
    let s := b.ringSt k
    let size := ringSize b.regs k
    let popped : Block := { b with ring := { b.ring with outbox := dropFirst (· == r) b.ring.outbox } }
    (b.fnReceives fn = false → exec (.recordWrite fn i) ⟨b, q⟩ = .next ⟨(popped.bump F.recordsDiscarded).bump (F.fnDiscards fn), q⟩) ∧
    (b.fnReceives fn = true → s.enabled = true → (s.tail + 1) % size ≠ s.head →
      let tail := (s.tail + 1) % size
      let full := decide ((tail + 1) % size = s.head)
      let bits := r.bits ||| (if s.phase then 1 <<< phaseBit r.kind else 0)
      let phase := if tail = 0 then !s.phase else s.phase
      let b1 := popped.setRing k { s with tail := tail, phase := phase, count := (s.count + 1) % 2 ^ 32, full := full }
      let b2 := ((b1.bump (F.entries k)).send (.hostWrite fn (ringAddr b.regs k s.tail) (entryBytes r.kind) bits false)).shadow k tail ((s.count + 1) % 2 ^ 32)
      let waiting := (b2.ring.outbox.filter fun x => x.fn == fn && x.ring == i).length
      let b3 := if full ∧ s.full = false then
          (b2.bump F.fullEventsTotal).raise 0x0811 0xFF (b.fnCamp fn) (ringPayload b.regs k 0 0 s.head waiting)
        else b2
      exec (.recordWrite fn i) ⟨b, q⟩ =
        .next ⟨if isCause (b.fget (F.ringCtrlIrqMode k)) r.kind r.irq then b3.vecCause fn (b.fget (F.ringCtrlVector k)) else b3, q⟩)) ∧
  (∀ (b : Block) (q : List Instr) (fn v : Nat), 0 < (b.vec fn v).causes → (b.vec fn v).oldest + (b.vec fn v).holdoff * 1000 ≤ b.fab.time →
    let s := b.vec fn v
    exec (.msixHoldoff fn v) ⟨b, q⟩ =
      .next ⟨if s.masked then b.setVec fn v { s with pba := true, causes := 0 } else (b.setVec fn v { s with causes := 0 }).send (.msix fn v s.addr s.data), q⟩) ∧
  (∀ (b : Block) (q : List Instr) (fn v : Nat),
    let s := b.vec fn v
    let b1 := b.setVec fn v { s with masked := false, pba := false }
    exec (.msixUnmask fn v) ⟨b, q⟩ =
      .next ⟨if s.pba = true ∧ (b.fnSt fn).msixEnable = true ∧ (b.fnSt fn).fnMask = false then b1.send (.msix fn v s.addr s.data)
        else if s.pba then b1.setVec fn v { s with masked := false } else b1, q⟩)

/-- The Yilgil ports (R444 to R446): a training port asks for its lanes, comes up with the right neighbour or fails, retries, retrains, is held and leaves the
hold. -/
def Obligations.YilgilPortsComplete : Prop :=
  ∀ (b : Block) (q : List Instr) (p : Nat),
  let x := b.port p
  (b.boot.en.yilgil = true → x.state = 2 → exec (.ygLaneRequest p) ⟨b, q⟩ = .next ⟨(b.setPort p { x with asked := true }).askLanes p, q⟩) ∧
  (∀ (peer peerPort shape delay eye lane hits : Nat), b.boot.en.yilgil = true → x.state = 2 → x.asked = true → x.sick = 7 → 4 ≤ lane →
    b.lanesGranted p = true → peer = b.neighbour (bundleOf p) → peerPort = facingPort p →
    shape = b.fget F.domainConfigDimX + 16 * b.fget F.domainConfigDimY + 256 * b.fget F.domainConfigDimZ → delay ≤ 600 →
    exec (.ygPortUp p peer peerPort shape delay eye lane hits) ⟨b, q⟩ =
      .next ⟨((b.setPort p { YgPort.init with
        state := 3, asked := true, spareFor := x.spareFor, peer := peer, peerPort := peerPort, delay := delay, eye := eye, history := x.history, stream := x.stream,
        laneSince := b.fab.time, badSince := b.fab.time }).portEvent 0x0601 p
          (packBits [(0, 8, p), (8, 8, bundleOf p), (16, 16, peer), (32, 8, x.spareFor), (64, 32, delay)])).placeHeld.sendDigests, q⟩) ∧
  (∀ (peer peerPort shape delay eye lane hits : Nat), b.boot.en.yilgil = true → x.state = 2 → x.asked = true → x.sick = 7 → 4 ≤ lane →
    b.lanesGranted p = true →
    (peer ≠ b.neighbour (bundleOf p) ∨ peerPort ≠ facingPort p ∨
      shape ≠ b.fget F.domainConfigDimX + 16 * b.fget F.domainConfigDimY + 256 * b.fget F.domainConfigDimZ →
      exec (.ygPortUp p peer peerPort shape delay eye lane hits) ⟨b, q⟩ = .next ⟨b.miswired p 1 peer, q⟩) ∧
    (peer = b.neighbour (bundleOf p) → peerPort = facingPort p →
      shape = b.fget F.domainConfigDimX + 16 * b.fget F.domainConfigDimY + 256 * b.fget F.domainConfigDimZ → 600 < delay →
      exec (.ygPortUp p peer peerPort shape delay eye lane hits) ⟨b, q⟩ = .next ⟨b.miswired p 2 peer, q⟩)) ∧
  (b.boot.en.yilgil = true → x.state = 2 → x.asked = true →
    exec (.ygTrainingFailed p 0 0) ⟨b, q⟩ = .next ⟨((b.bump (F.retrains p)).trainingFails p true).portEvent 0x0602 p (packBits [(0, 8, p), (8, 8, 4)]), q⟩ ∧
    ∀ cause found, cause ≠ 0 → exec (.ygTrainingFailed p cause found) ⟨b, q⟩ = .next ⟨b.miswired p cause found, q⟩) ∧
  (b.boot.en.yilgil = true → x.state = 1 → x.retryAt ≤ b.fab.time → exec (.ygTrainRetry p) ⟨b, q⟩ = .next ⟨b.setPort p { x with state := 2 }, q⟩) ∧
  (∀ lane, b.boot.en.yilgil = true → x.state = 3 → exec (.ygRetrain p 1 lane) ⟨b, q⟩ = .next ⟨b.retrainPort p 1 lane, q⟩) ∧
  (∀ lane, b.boot.en.yilgil = true → x.state = 3 → 16 < x.bad → b.fab.time ≤ x.badSince + 1000000 →
    exec (.ygRetrain p 2 lane) ⟨b, q⟩ = .next ⟨b.retrainPort p 2 7, q⟩) ∧
  (∀ lane, b.boot.en.yilgil = true → x.state = 3 → 16 ≤ x.naks → exec (.ygRetrain p 3 lane) ⟨b, q⟩ = .next ⟨b.retrainPort p 3 7, q⟩) ∧
  (∀ lane, b.boot.en.yilgil = true → x.state = 3 → exec (.ygRetrain p 5 lane) ⟨b, q⟩ = .next ⟨b.retrainPort p 5 7, q⟩) ∧
  (b.boot.en.yilgil = true → x.state = 1 ∨ x.state = 2 → max 1 (b.fget F.ygConfigRetrainLimit) ≤ b.recentRetrains p →
    exec (.ygPortHeld p) ⟨b, q⟩ =
      .next ⟨(((b.dropLanes p).setPort p { x with
        state := 4, asked := false, spareFor := 7, sick := 7, retryAt := b.fab.time + 1000000000 * b.fget F.ygConfigHoldS }).bump (F.holds p)).portEvent 0x0604 p
          (packBits [(0, 8, p), (64, 32, b.recentRetrains p)]), q⟩) ∧
  (x.state = 4 → x.retryAt ≤ b.fab.time → exec (.ygHoldEnd p) ⟨b, q⟩ = .next ⟨b.setPort p { x with state := 2, history := [] }, q⟩)

/-- Yilgil traffic (R438 to R443): a good codeword in sequence enters the stream and a bad one is answered with a NAK; a LINK flit gives its acknowledgement and
credits; a packet for this module is heard in its flow's order, one for another module goes on. -/
def Obligations.YilgilTrafficCompletes : Prop :=
  (∀ (b : Block) (q : List Instr) (p : Nat) (replay : Bool) (corrected flits : List Nat), (b.port p).state = 3 →
    (∀ seq, exec (.codewordReceive p seq replay false corrected flits) ⟨b, q⟩ = .next ⟨(b.countBad p).nak p, q⟩) ∧
    let b1 := b.countCorrected p corrected
    let x := b1.port p
    (x.replaying = true → replay = true) →
      let b2 := b1.setPort p { x with rxSeq := (x.rxSeq + 1) % 4096, replaying := false
                                      stream := x.stream ++ (flits ++ List.replicate (20 - flits.length) 0).take 20 }
      exec (.codewordReceive p x.rxSeq replay true corrected flits) ⟨b, q⟩ =
        .next ⟨if (x.rxSeq + 1) % 16 = 0 then b2.sendLink p false 0 0 else b2, q⟩) ∧
  (∀ (b : Block) (q : List Instr) (p : Nat) (u : List Nat) (room : Bool), (b.port p).state = 3 →
    let us := streamUnits (b.port p).stream (b.port p).stream.length
    hdrClass (us.2.headD 0) ≠ 3 → us.1.find? (fun u => decide (hdrClass (u.headD 0) = 0)) = some u →
    let h := u.headD 0
    let ack := bitsOf h 16 12
    let b0 := b.captureEntry (edgeSite p) 3 0 0 h 0 room
    let x := { b0.port p with stream := (dropFirst (· == u) us.1).flatten ++ us.2 }
    (bitAt h 2 = false → bitAt h 4 = false → exec (.linkFlit p room) ⟨b, q⟩ = .next ⟨(b0.setPort p x).flushPort p, q⟩) ∧
    (bitAt h 2 = true → bitAt h 3 = false → bitAt h 4 = false →
      let kept := x.unacked.filter fun u => decide (2048 ≤ seqBehind u.1 ack)
      exec (.linkFlit p room) ⟨b, q⟩ =
        .next ⟨(b0.setPort p { x with unacked := kept, naks := if kept.length < x.unacked.length then 0 else x.naks }).flushPort p, q⟩)) ∧
  (∀ (b : Block) (q : List Instr) (p : Nat) (msg : YgMsg) (room : Bool), (b.port p).state = 3 →
    let us := streamUnits (b.port p).stream (b.port p).stream.length
    (hdrClass (us.2.headD 0) = 3 →
      let b1 := (b.captureEntry (edgeSite p) 3 3 0 (us.2.headD 0) 0 room).tick.retrainPort p (Config.downCause b.free).toNat 7
      exec (.yilgilPacket p msg room) ⟨b, q⟩ = .next ⟨b1, q⟩ ∧ exec (.linkFlit p room) ⟨b, q⟩ = .next ⟨b1, q⟩) ∧
    (∀ u, hdrClass (us.2.headD 0) ≠ 3 → b.packetDue us.1 = some u →
      let h := u.headD 0
      let b0 := b.captureEntry (edgeSite p) 3 (hdrClass h) 0 h ((u.drop 1).headD 0) room
      let b1 := (b0.setPort p { b0.port p with stream := (dropFirst (· == u) us.1).flatten ++ us.2 }).sendLink p false (hdrBuffer h) u.length
      (hdrDst h ≠ b.moduleId →
        exec (.yilgilPacket p msg room) ⟨b, q⟩ = .next ⟨(b1.bump F.transitPackets).placePacket (b0.withVc h (some p) :: u.drop 1), q⟩) ∧
      (hdrDst h = b.moduleId → b.flowAhead h ≠ 0 → exec (.yilgilPacket p msg room) ⟨b, q⟩ = .next ⟨b1, q⟩) ∧
      (hdrDst h = b.moduleId → b.flowAhead h = 0 → hdrClass h ≠ 1 →
        let b2 : Block := { b1 with yg := { b1.yg with flowsIn := sset (fun _ => 0) b1.yg.flowsIn (flowKey h) ((hdrSeqOf h + 1) % 65536 + 1) } }
        exec (.yilgilPacket p msg room) ⟨b, q⟩ = .next ⟨(b2.send (.packet (edgeSite p) (bitAt h 3) h (u.drop 1))).hearMsg (hdrSrc h) msg, q⟩)))

/-- The domain's time and the collectives (R453 to R460): a time message joins or corrects; the unlock; an entry taken; a part completed; a late
culprit; an ABORT; the settlement. -/
def Obligations.CollectivesComplete : Prop :=
  (∀ (b : Block) (q : List Instr) (root : Nat) (offset : Int), b.boot.en.yilgil = true →
    let d := b.yg.domain
    (d.joined = false → exec (.domainTimeMessage root offset) ⟨b, q⟩ = .next ⟨b.joinDomain root (if root = b.moduleId then 0 else offset), q⟩) ∧
    (d.joined = true → root ≠ b.moduleId →
      let near := decide (offset.natAbs ≤ 50)
      exec (.domainTimeMessage root offset) ⟨b, q⟩ =
        .next ⟨(({ b with yg := { b.yg with domain := { d with root := root, locked := d.locked || near, skew := offset, slew := -offset, lastMsg := b.fab.time } } } : Block).raiseIf
          (near && !d.locked) 0x0608 0xFF 0xFF (packBits [(64, 32, (b.fab.time - d.unlockedAt) / 1000)])).sendTime root, q⟩) ∧
    (d.joined = true → root = b.moduleId → d.lastMsg + 1000 * b.timePeriod ≤ b.fab.time → exec (.domainTimeMessage root offset) ⟨b, q⟩ =
      .next ⟨({ b with yg := { b.yg with domain := { d with root := root, locked := true, skew := 0, slew := 0, lastMsg := b.fab.time } } } : Block).sendTime root,
        q⟩)) ∧
  (∀ (b : Block) (q : List Instr), let d := b.yg.domain
    d.joined = true → d.locked = true → d.root ≠ b.moduleId → d.lastMsg + 1000000 ≤ b.fab.time →
    exec .domainUnlocked ⟨b, q⟩ =
      .next ⟨({ b with yg := { b.yg with domain := { d with locked := false, unlockedAt := b.fab.time } } } : Block).raise 0x0607 0xFF 0xFF
        (packBits [(64, 32, toTwos 32 d.skew)]), q⟩) ∧
  (∀ (b : Block) (q : List Instr) (c f at_ : Nat), b.boot.en.service = true → b.resetting c = false → b.queueValid c f = true →
    let g := b.fget (F.collQueueGranule c)
    let key := (16 * f + c) * 2 ^ 25 + g
    let i := sget (fun _ => 0) b.yg.heads key
    let a := granuleAddr f g + 64 * i
    b.siteOf (bulkOp 0 c .read [a] 1 f) a = .at_ at_ →
    let b1 := b.check at_ 64
    let raw := ofBytesLE (b1.readBytes at_ 64)
    b1.poisonIn at_ 64 = false → bitAt raw 24 = true →
    let group := bitsOf raw 8 2
    let w := (b.model? c (bitsOf raw 64 16)).elim 1 (·.sliceW)
    let ranks := b.groupRanks c group w
    let late := bitsOf raw 96 32
    let p : CollPart := ⟨b.yg.nextPart, c, bitsOf raw 32 32, f, bitsOf raw 0 8, group, bitsOf raw 12 2, bitsOf raw 16 8, bitsOf raw 64 16, ranks.length,
      ranks.findIdx (· == b.ownRank c), bitsOf raw 128 64, bitsOf raw 192 64, bitsOf raw 256 40, if late = 0 then b.fget F.collConfigLateMs else late,
      b.fab.time, 0, .entry a⟩
    let b2 := ({ b1 with yg := { b1.yg with heads := sset (fun _ => 0) b1.yg.heads key ((i + 1) % 512) } } : Block).entryWrite c (a + 3)
      (bytesLE 1 (bitsOf raw 24 8 - 1))
    b.endedAt f c p.id = none → b.entryStatus raw p = 0 →
    exec (.collQueueEntry c f) ⟨b, q⟩ = .next ⟨b2.postPart p, q⟩) ∧
  (∀ (b : Block) (q : List Instr) (part slot : Nat) (p : CollPart), b.yg.parts.find? (fun p => p.serial == part) = some p →
    (b.yg.aborts.any fun a => a.camp == p.camp && a.id == p.id) = false → ((b.yg.split.any fun x => x.1 == p.camp) = false ∨ p.members ≤ 1) →
    (∀ failed others data, failed ≠ 0 → exec (.collPartComplete part slot failed others data) ⟨b, q⟩ = .next ⟨b.endPart p failed 0 0, q⟩) ∧
    (∀ a others data, p.user = .entry a → p.op ≠ 6 → others.length + 1 = p.members →
      Runs b p.field slot 0x8000 (.part p.serial) = true →
      exec (.collPartComplete part slot 0 others data) ⟨b, q⟩ = .next ⟨b.completeEntry p others, q⟩) ∧
    (∀ a others data, p.user = .entry a → p.op = 6 → exec (.collPartComplete part slot 0 others data) ⟨b, q⟩ = .next ⟨b.endPart p 0 0 0, q⟩) ∧
    (∀ s layer others data, p.user = .ring s layer → exec (.collPartComplete part slot 0 others data) ⟨b, q⟩ = .next ⟨b.endPart p 0 0 0, q⟩) ∧
    (∀ s pair pos others parts, p.user = .att s pair pos → parts.length + 1 = p.members →
      exec (.collPartComplete part slot 0 others (.att s pair pos parts)) ⟨b, q⟩ = .next ⟨(b.attCollective p.camp s pair pos parts).endPart p 0 0 0, q⟩) ∧
    (∀ s pos others os, p.user = .pass1 s pos → os.length + 1 = p.members →
      exec (.collPartComplete part slot 0 others (.pass1 s pos os)) ⟨b, q⟩ = .next ⟨(b.sampCollective1 p.camp s pos os).endPart p 0 0 0, q⟩) ∧
    (∀ s pos others os, p.user = .pass2 s pos → os.length + 1 = p.members →
      exec (.collPartComplete part slot 0 others (.pass2 s pos os)) ⟨b, q⟩ = .next ⟨(b.sampCollective2 p.camp s pos os).endPart p 0 0 0, q⟩) ∧
    (∀ others data, p.user = .step → exec (.collPartComplete part slot 0 others data) ⟨b, q⟩ = .next ⟨b.endPart p 0 0 0, q⟩)) ∧
  (∀ (b : Block) (q : List Instr) (part rank field : Nat) (p : CollPart), b.yg.parts.find? (fun p => p.serial == part) = some p →
    p.at_ + 1000000 * max 1 p.lateMs + 1000 * p.pausedUs ≤ b.fab.time → (b.stack p.field).state ≠ 2 →
    exec (.collLate part rank field) ⟨b, q⟩ = .next ⟨b.sendAbort p rank field, q⟩) ∧
  (∀ (b : Block) (q : List Instr) (c id f rank field sender : Nat),
    exec (.collAbortMessage c id f rank field sender) ⟨b, q⟩ =
      .next ⟨if (b.endedAt f c id).isSome then b.bump F.lateDiscards else b.noteAbort c id rank field sender, q⟩) ∧
  (∀ (b : Block) (q : List Instr) (c id : Nat) (a : AbortSet) (p : CollPart), b.yg.aborts.find? (fun a => a.camp == c && a.id == id) = some a →
    a.at_ + 1000 * max 1 (b.fget F.collConfigSettleUs) ≤ b.fab.time → (b.yg.parts.filter fun p => p.camp == c && p.id == id).head? = some p →
    let k := a.culprit
    let m := b.rankModule c k.1
    let b1 : Block := { b with yg := { b.yg with aborts := b.yg.aborts.filter fun x => !(x.camp == c && x.id == id) } }
    let b2 := (b.yg.parts.filter fun p => p.camp == c && p.id == id).foldl (fun b p => b.endPart p 0x32 m k.2) b1
    let b3 := ((List.range 96).filter fun f => (b2.endedAt f c id).isNone).foldl (fun b f => b.rememberEnd f c ⟨id, 0x32, m, k.2⟩) b2
    let b4 := if m = b.moduleId then b3.bump F.culpritSelf else b3
    exec (.collSettle c id) ⟨b, q⟩ =
      .next ⟨b4.raise 0x0609 0xFF c (packBits [(0, 8, p.op), (8, 8, p.group), (16, 16, m), (32, 8, k.2), (64, 32, id)]), q⟩)

/-- The consent interface (R474 to R485): COPY, WRITE, PROPOSE, COUNTERSIGN, ABORT, GET_STATUS and READ by a party, the window's end, and the application at the
boundary. -/
def Obligations.ConsentCompletes : Prop :=
  (∀ (b : Block) (q : List Instr) (mc : Bool) (fn : Nat), mc = true ∨ Writes b fn 0x200000 = true →
    (exec (.consentCopy mc fn) ⟨b, q⟩ = .next ⟨if b.camp.state = 0 then ({ b with camp := { b.camp with stage := b.camp.live } } : Block).consentReply mc 4 0 []
      else (b.bump F.stageLocked).consentReply mc 4 1 [], q⟩) ∧
    (∀ off data, data.length ≤ 256 → off + data.length ≤ imageLen →
      exec (.writeStage mc fn off data) ⟨b, q⟩ = .next ⟨(b.stageWrite off data).consentReply mc 3 (if b.camp.state = 0 then 0 else 1) [], q⟩) ∧
    (b.camp.state = 0 → b.validate = 0 →
      let nonce := (Config.nonce b.free).toNat
      let n := b.camp.counter + 1
      let b1 : Block := { b.tick with camp := { b.camp with
        state := 1, proposer := party mc, errItem := 0, counter := n, nonce := nonce, digest := proposalDigest b.camp.stage nonce n
        windowEnd := b.fab.time + 1000000000 * windowS b.camp.live } }
      let b2 := (b1.bump F.proposals).consentEvent 0x0710 0 0
      exec (.propose mc fn) ⟨b, q⟩ = .next ⟨b2.consentReply mc 5 0 b2.statusBytes, q⟩) ∧
    (∀ data, b.camp.state = 1 → b.camp.proposer ≠ party mc → b.fab.time ≤ b.camp.windowEnd →
      (mc = true → data.length = 32) → (if mc then ofBytesLE (data.map (BitVec.ofNat 8)) else b.csDigest) = b.camp.digest →
      exec (.countersign mc fn data) ⟨b, q⟩ =
        .next ⟨(({ b with camp := { b.camp with state := 2, approvedAt := b.fab.time } } : Block).consentEvent 0x0711 0 0).consentReply mc 6 0 [], q⟩) ∧
    (exec (.consentAbort mc fn) ⟨b, q⟩ =
      .next ⟨if b.camp.state = 1 ∨ b.camp.state = 2 then (b.rejectProposal 5).consentReply mc 7 0 [] else b.consentReply mc 7 2 [], q⟩)) ∧
  (∀ (b : Block) (q : List Instr), exec .getStatus ⟨b, q⟩ = .next ⟨b.consentReply true 1 0 b.statusBytes, q⟩) ∧
  (∀ (b : Block) (q : List Instr) (image off len : Nat), image ≤ 1 → len ≤ 256 → off + len ≤ imageLen →
    exec (.readImage image off len) ⟨b, q⟩ =
      .next ⟨b.consentReply true 2 0 ((List.range len).map fun i => (imgByte (if image = 0 then b.camp.live else b.camp.stage) (off + i)).toNat), q⟩) ∧
  (∀ (b : Block) (q : List Instr), b.camp.state = 1 → b.camp.windowEnd ≤ b.fab.time →
    exec .consentWindowExpiry ⟨b, q⟩ = .next ⟨b.rejectProposal 3, q⟩) ∧
  (∀ (b : Block) (q : List Instr), b.camp.state = 2 →
    ((affectedCamps b.camp.live b.camp.stage).any fun c => b.inStep c && !b.camp.held.contains c || b.resetting c) = false →
    let b1 : Block := { b with camp := { b.camp.stored b.camp.stage with state := 3 } }
    exec (.consentApply true) ⟨b, q⟩ =
      .next ⟨if b.disabledCamps.isEmpty then b1.update else b.disabledCamps.foldl (fun b c => b.startCampReset c 3 0x3F) b1, q⟩ ∧
    exec (.consentApply false) ⟨b, q⟩ = .next ⟨b.rejectProposal 7, q⟩) ∧
  (∀ (b : Block) (q : List Instr) (ok : Bool), b.camp.state = 3 → b.disabledCamps.any b.resetting = false →
    exec (.consentApply ok) ⟨b, q⟩ = .next ⟨b.update, q⟩)

/-- Camp resets (R481, R533 to R535): the command, the reset's end once the camp has drained, a stuck reset. -/
def Obligations.CampResetsComplete : Prop :=
  (∀ (b : Block) (q : List Instr) (fn value : Nat), Writes b fn 0x200080 = true → bitAt value 31 = true →
    exec (.campResetCmd fn value) ⟨b, q⟩ =
      .next ⟨((b.writeWord 0x200080 (BitVec.ofNat 32 value)).fset F.campResetCmdGo 0).startCampReset (bitsOf value 0 4) 2 0x3F, q⟩) ∧
  (∀ (b : Block) (q : List Instr) (c : Nat) (r : CampReset), b.camp.resets.find? (fun r => r.camp == c) = some r → b.campDrained c = true →
    let us := (b.fab.time - r.start) / 1000
    let b1 := ((((b.releaseCamp c).freeCampState c).phaseAfterReset c).takeStep c).trimNow.leaveRings r
    let b2 : Block := { b1 with
      camp := { b1.camp with resets := b1.camp.resets.filter fun x => x.camp != c }
      boot := { b1.boot with lastCamp := c, lastCause := r.cause, lastMs := satTo 16 (us / 1000) }
      host := { b1.host with fns := (b1.campFns c).foldl (fun m fn => supd (fun _ => FnSt.init) m fn fun s => { s with campResetting := false }) b1.host.fns } }
    exec (.campResetDone c) ⟨b, q⟩ =
      .next ⟨(((b2.setStepSt c StepSt.init).noteCapacity.freeCamp c).raise 0x0904 0xFF c (packBits [(0, 8, r.cause), (8, 8, r.fn), (32, 32, us), (64, 32, r.slots)])).rebuildIfIdle, q⟩) ∧
  (∀ (b : Block) (q : List Instr) (c : Nat) (r : CampReset), b.camp.resets.find? (fun r => r.camp == c) = some r → r.stuck = false →
    let ms := (b.fab.time - r.start) / 1000000
    max 1 (b.fget F.campResetLimitMs) ≤ ms →
    exec (.campResetStuck c) ⟨b, q⟩ =
      .next ⟨({ b with camp := { b.camp with resets := b.camp.resets.map fun x => if x.camp = c then { x with stuck := true } else x } } : Block).raise 0x0905 0xFF c
        (packBits [(32, 32, ms)]), q⟩)

/-- The sideband and the security protocol (R484 to R489, R503, R513, R520): MCTP control, PLDM sensors, the wafer cap, a firmware slot, an event fetched, power requests;
digests, certificates, challenges, measurements and sessions. -/
def Obligations.ManagementCompletes : Prop :=
  ∀ (b : Block) (q : List Instr),
  (∀ arg, exec (.mctpControl 0 1 arg) ⟨b, q⟩ = .next ⟨({ b with boot := { b.boot with eid := arg % 256 } } : Block).send (.mctp 0 1 [0, arg % 256]), q⟩) ∧
  (∀ kind f, exec (.pldmGetSensor kind f) ⟨b, q⟩ = .next ⟨b.send (.mctp 1 kind (bytesOfNat 4 (match kind with
      | 0 => (b.stack f).temp
      | 1 => sget (fun _ => 0) b.modu.logicC f
      | 2 => b.modu.pinW
      | 3 => b.waferLevel
      | 4 => (b.fieldSt f).state
      | _ => (b.stack f).state))), q⟩) ∧
  (∀ v, exec (.pldmSetWaferCap v) ⟨b, q⟩ =
    .next ⟨b.writeWord F.rmConfigWaferCap.off (wordSet (regWord b.regs F.rmConfigWaferCap.off) F.rmConfigWaferCap.lo F.rmConfigWaferCap.width v), q⟩) ∧
  (∀ signed svn, exec (.pldmFirmwareUpdate signed svn) ⟨b, q⟩ =
    .next ⟨{ b with boot := { b.boot with slots := sset (fun _ => FwSlot.init) b.boot.slots (1 - b.boot.slot) ⟨signed, svn⟩, active := 1 - b.boot.slot } }, q⟩) ∧
  (∀ e r, b.boot.mgmt = e :: r → exec .pldmEventFetch ⟨b, q⟩ =
    .next ⟨({ b with boot := { b.boot with mgmt := r, alert := !r.isEmpty } } : Block).send (.mctp 1 e.code (bytesOfNat 32 e.bits)), q⟩) ∧
  (b.modu.pwrGood = true → b.boot.en.fabric = true → b.atFloors = false → exec .pldmPowerOff ⟨b, q⟩ =
    .next ⟨{ b with modu := { b.modu with pwrGood := false, offRamp := true }, rat := b.rat.rampDown }, q⟩) ∧
  (b.modu.pwrGood = true → b.boot.en.fabric = false ∨ b.atFloors = true → exec .pldmPowerOff ⟨b, q⟩ = .next ⟨b.railsDown.send .powerOff, q⟩) ∧
  (∀ vcore, 46000 ≤ b.modu.vinMv →
    exec (.pldmPowerCycle vcore) ⟨b, q⟩ = .next ⟨b.coldReset 2 b.modu.vinMv b.modu.iinDa b.modu.pinW b.modu.auxW vcore, q⟩) ∧
  (exec .pldmWaferReset ⟨b, q⟩ = .next ⟨b.startWaferReset 3, q⟩) ∧
  (∀ doe, exec (.getDigests doe) ⟨b, q⟩ = .next ⟨b.send (.spdm doe 0x01 [Config.certDigest.toNat]), q⟩ ∧
    (∀ off len, exec (.getCertificate doe off len) ⟨b, q⟩ =
      .next ⟨b.send (.spdm doe 0x02 ((List.range len).map fun i => (Config.certificate (off + i)).toNat)), q⟩) ∧
    exec (.challenge doe) ⟨b, q⟩ = .next ⟨b.tick.send (.spdm doe 0x03 [Config.certDigest.toNat, (Config.signature b.free).toNat]), q⟩ ∧
    (∀ i, 1 ≤ i → i ≤ 7 → exec (.getMeasurements doe i) ⟨b, q⟩ = .next ⟨b.send (.spdm doe 0x60 (i :: b.measurement i)), q⟩)) ∧
  (∀ port, exec (.keyExchange true port) ⟨b, q⟩ =
    .next ⟨(b.tick.setSession port 1).send (.spdm true 0x64 [(Config.exchangeKey b.free).toNat, (Config.signature b.free).toNat]), q⟩) ∧
  (∀ port, b.session port = 1 → exec (.finish true port) ⟨b, q⟩ = .next ⟨(b.setSession port 2).send (.spdm true 0x65 []), q⟩)

/-- The module (R499, R501, R503 to R505, R508 to R517): power on, undervoltage and its end, the shunt, over power, coolant, logic temperatures and throttling, PERST#, FORCE_THROTTLE#,
a field stage's fault, glitches. -/
def Obligations.ModuleCompletes : Prop :=
  ∀ (b : Block) (q : List Instr),
  (∀ vin iin pin aux vcore, 46000 ≤ vin → exec (.powerOn vin iin pin aux vcore) ⟨b, q⟩ = .next ⟨b.coldReset 1 vin iin pin aux vcore, q⟩) ∧
  (∀ vin, vin < 44000 → exec (.undervoltPowerOff vin) ⟨b, q⟩ = .next ⟨({ b with modu := { b.modu with vinMv := vin } } : Block).powerOff, q⟩) ∧
  (b.modu.shunt = true → exec .shuntTaperEnd ⟨b, q⟩ =
    .next ⟨{ b with modu := { b.modu with shunt := false, contactor := b.modu.contactor && !b.modu.trip } }, q⟩) ∧
  (∀ f, exec (.logicSensorsSilent f) ⟨b, q⟩ = .next ⟨b.logicTrip f 0, q⟩) ∧
  (∀ p, bitAt b.modu.perst p = true →
    let b1 : Block := { b with modu := { b.modu with perst := setBit b.modu.perst p false, perstStuck := setBit b.modu.perstStuck p false } }
    exec (.perstDeassert p) ⟨b, q⟩ = .next ⟨if p = 0 ∧ b.boot.ramped = true then b1.leaveRamp else b1, q⟩) ∧
  (∀ p, bitAt b.modu.perst p = true → bitAt b.modu.perstStuck p = false →
    exec (.perstStuck p) ⟨b, q⟩ =
      .next ⟨({ b with modu := { b.modu with perstStuck := setBit b.modu.perstStuck p true } } : Block).toController 0x0208
        (packBits [(16, 4, p), (32, 16, b.modu.vinMv)]), q⟩) ∧
  (b.modu.force = true → exec .forceThrottleDeassert ⟨b, q⟩ = .next ⟨b.setForce false, q⟩) ∧
  (b.modu.force = true → b.modu.forceHeld + 60 ≤ b.forceSeconds →
    exec .forceThrottleHeld ⟨b, q⟩ =
      .next ⟨({ b with modu := { b.modu with forceHeld := b.modu.forceHeld + 60 } } : Block).modEvent 0x0207 0xFF 0 0 0 0 (b.modu.forceHeld + 60), q⟩) ∧
  (b.modu.pwrGood = true →
    (∀ vin, vin < 46000 →
      let b1 : Block := { b with modu := { b.modu with vinMv := vin, underVolt := true } }
      exec (.inputUndervolt vin) ⟨b, q⟩ = .next ⟨if b.modu.underVolt then b1 else (b1.bump F.uvEvents).modEvent 0x0203 0xFF 0 0 0 0 0, q⟩) ∧
    (∀ vin, 46500 ≤ vin → exec (.inputRecover vin) ⟨b, q⟩ = .next ⟨{ b with modu := { b.modu with vinMv := vin, underVolt := false } }, q⟩) ∧
    (∀ watts, exec (.shuntCatch watts) ⟨b, q⟩ = .next ⟨b.shuntOn watts, q⟩) ∧
    (∀ watts iin slew,
      let isOver := decide (20000 < watts)
      let b1 := (({ b with modu := { b.modu with pinW := watts, iinDa := iin, powerOver := isOver } } : Block).peak F.modPeakPinPeakW watts).peak F.modPeakSlewPeak slew
      exec (.powerOver watts iin slew) ⟨b, q⟩ =
        .next ⟨if isOver then (b1.count F.powerOverMs 10).raiseIf (!b.modu.powerOver) 0x0205 0xFF 0xFF (packBits [(32, 16, b.modu.vinMv), (48, 16, watts)]) else b1, q⟩) ∧
    (∀ inlet outlet flow, 10 * b.fget F.thermConfigFlowMinLpm ≤ flow → inlet ≤ b.fget F.thermConfigInletMaxC →
      exec (.coolantSample inlet outlet flow) ⟨b, q⟩ =
        .next ⟨{ b with modu := { b.modu with inletC := inlet, outletC := outlet, flowDlpm := flow, coolantAlarm := false } }, q⟩) ∧
    (∀ temps,
      let pairs := (List.range 96).map fun f => (f, temps.getD f (sget (fun _ => 0) b.modu.logicC f) % 256)
      let cool := pairs.all fun x => decide (x.2 ≤ 100)
      let b1 := pairs.foldl (fun b x => b.peak (F.fieldThermPeakC x.1) x.2) b
      let b2 : Block := { b1 with modu := { b1.modu with
        logicC := pairs.foldl (fun m x => sset (fun _ => 0) m x.1 x.2) b.modu.logicC
        coolSince := if cool = false then 0 else if b.modu.coolSince = 0 then b.fab.time + 1 else b.modu.coolSince } }
      exec (.logicThermalSample temps) ⟨b, q⟩ =
        .next ⟨if 115 ≤ b2.modu.hottest.1 then b2.logicTrip b2.modu.hottest.2 b2.modu.hottest.1 else b2, q⟩) ∧
    (105 ≤ b.modu.hottest.1 → 30 < b.modu.logicPct → b.modu.lastStep + 1000000 ≤ b.fab.time →
      exec .logicThrottleStep ⟨b, q⟩ = .next ⟨b.setLogicPct (max 30 (b.modu.logicPct - 10)), q⟩) ∧
    (∀ p, bitAt b.modu.perst p = false →
      let b1 : Block := { b with modu := { b.modu with perst := setBit b.modu.perst p true } }
      let b2 := if (b1.portSt p).up then b1.leaveL0 p 0 else b1.portReset p
      exec (.perstAssert p) ⟨b, q⟩ = .next ⟨if p = 0 ∧ b.fget F.hostConfigH0PerstWafer = 1 then b2.startWaferReset 4 else b2, q⟩) ∧
    (b.modu.force = false → exec .forceThrottleAssert ⟨b, q⟩ = .next ⟨b.setForce true, q⟩) ∧
    (∀ f rail watts, bitAt b.modu.stages f = true → rail = 1 ∨ rail = 2 ∨ rail = 3 →
      let b1 := if rail = 1 then b.fieldPowerless f else b
      let b2 := (b1.shuntOn watts).modEvent 0x0209 f 0 0 rail 0 0
      exec (.fieldStageFault f rail watts) ⟨b, q⟩ =
        .next ⟨if (b2.stack f).state = 4 then b2 else if b2.boot.en.dram then (b2.stackFault f true).stackParts f (b2.stack f).state else b2.stackDark f 3 0, q⟩) ∧
    exec .perstGlitch ⟨b, q⟩ = .next ⟨b.bump F.perstGlitches, q⟩ ∧
    exec .forceThrottleGlitch ⟨b, q⟩ = .next ⟨b.bump F.ftGlitches, q⟩)

/-- Start-up and debug (R520 to R525, R546 to R550): the wafer reset's key, a stage's end, the hold, the firmware's stop, BAR4 by a function that may debug. -/
def Obligations.BootAndDebugComplete : Prop :=
  (∀ (b : Block) (q : List Instr) (fn value : Nat), Writes b fn 0x100000 = true →
    exec (.resetCtrl fn value) ⟨b, q⟩ = .next ⟨if bitAt value 0 = true ∧ bitsOf value 16 16 = 0xA5C3 then b.startWaferReset 5 else b, q⟩) ∧
  (∀ (b : Block) (q : List Instr) (w : StageWork), let k := b.boot.stage
    b.modu.pwrGood = true → k < 10 → b.boot.hold = false → b.boot.ramped = false → b.stageRamping k = false →
    let b1 := (b.stageWork k w).recordStage k w.us
    exec (.startupStageDone w) ⟨b, q⟩ =
      .next ⟨if b1.boot.stage = 15 then b1
        else if k = 0 then (if b1.perstHolds then { b1 with boot := { b1.boot with ramped := true } } else b1.leaveRamp)
        else b1.beginStage (b1.nextStage k), q⟩) ∧
  (∀ (b : Block) (q : List Instr) (fn value us : Nat), Writes b fn 0x100008 = true → bitAt value 0 = true → b.boot.hold = true →
    let k := b.boot.stage
    let b1 := ({ b with boot := { b.boot with hold := false } } : Block).recordStage k us
    exec (.bootContinue fn value us) ⟨b, q⟩ = .next ⟨b1.beginStage (b1.nextStage k), q⟩) ∧
  (∀ (b : Block) (q : List Instr), b.boot.fwRunning = true →
    exec .fwStopped ⟨b, q⟩ =
      .next ⟨({ b with boot := { b.boot with fwRunning := false } } : Block).raise 0x0906 0xFF 0xFF (packBits [(32, 32, b.boot.heartbeat)]), q⟩) ∧
  (∀ (b : Block) (q : List Instr) (fn : Nat), Debugs b fn = true →
    (∀ off len write data, off < 0x8000000 → exec (.dbgWindowAccess fn off len write data) ⟨b, q⟩ = .next ⟨b.windowAccess fn off len write data, q⟩) ∧
    (∀ off len data, 0x8000000 ≤ off → off < 0x9000000 → exec (.dbgWindowAccess fn off len false data) ⟨b, q⟩ = .next ⟨b.captureRead fn off len, q⟩) ∧
    (∀ off len write data, 0xFFFF000 ≤ off → exec (.dbgWindowAccess fn off len write data) ⟨b, q⟩ = .next ⟨b.pageAccess fn off len write data, q⟩) ∧
    (∀ value, let b1 := b.writeWord 0x4ffff00c (BitVec.ofNat 32 value)
      exec (.dbgCaptureWrite fn value) ⟨b, q⟩ = .next ⟨{ b1 with dbg := { b1.dbg with next := 0 } }, q⟩))

/-! ### Reset and the queue's invariant -/

/-- What reset leaves: the camp table's default image live and staged (R473), CAMP_RESET_LIMIT_MS 1,000 (R542), WAFER_CAP 107,520 and ceilings of
1,120 (R85), no command waiting, the memories in their form. That the module starts unpowered, registers of threads 0 and memory reads 0 is the model's choice (log entries 5
and 6). -/
def Obligations.ResetState : Prop :=
  State.reset.pending = [] ∧ State.reset.blk = Block.reset ∧ Block.reset.mem.wf = true ∧
  (∀ off, regWord Block.reset.regs off = resetWord off) ∧
  Block.reset.fget F.campResetLimitMs = 1000 ∧ Block.reset.fget F.rmConfigWaferCap = 107520 ∧ (∀ f, f < 96 → Block.reset.inForce (F.deskConfigCeiling f) = 1120) ∧
  (let m := Block.reset.camp.live
   Block.reset.camp.stage = m ∧ campEnabled m 0 = true ∧ campDram m 0 = 1048576 ∧ campSram m 0 = 3072 ∧ campGuarantee m 0 = 225 ∧ campSlots m 0 = 65536 ∧
   campExtents m 0 = 16384 ∧ campMembers m 0 = 0 ∧ (∀ c, 1 ≤ c → c < 16 → campEnabled m c = false) ∧ fnByte m 0 = 0x10 ∧
   (∀ fn, 1 ≤ fn → fn < 64 → fnByte m fn = 0) ∧ minSvn m = 0 ∧ debugUnlock m = false ∧ fuseCommitMask m = 0 ∧ windowS m = 30) ∧
  Block.reset.fab.time = 0 ∧ Block.reset.modu.pwrGood = false ∧
  (∀ t r, (Block.reset.thread t).live = false ∧ (Block.reset.thread t).rg r = 0) ∧ (∀ a, Block.reset.mem.byte a = 0 ∧ Block.reset.mem.poisoned a = false)

/-- Every waiting command keeps its operands in range: no step puts one into the queue that is not. The queue is the model's own (log entry 1). -/
def Obligations.QueueStaysWellFormed : Prop :=
  ∀ s s' : State, (∀ c ∈ s.pending, c.wf = true) → step s = .next s' → (∀ c ∈ s'.pending, c.wf = true) ∧ s'.pending = s.pending.tail

/-! ### Rations -/

/-- R63: in one tick of 1 µs each desk's level rises by at most 1 plus its rising loan slots, and falls by at most 1 plus its falling ones, pool slots and
matched ones alike; the summed levels change by at most 122 either way; WAFER_TIME passes by 1,000 ns, one more or less while the domain's time is slewed to. The desks are sound, and
every tick, request, release, starvation, lost grant and expired loan keeps them so; a desk that holds nothing is sound. -/
def Obligations.SlewBounds : Prop :=
  (∀ b : Block, b.boot.en.fabric = true → (∀ f, (b.desk f).sound) →
    let b' := b.rationTickDesks
    (b.fab.time + 999 ≤ b'.fab.time ∧ b'.fab.time ≤ b.fab.time + 1001 ∧ (b.yg.domain.slew = 0 → b'.fab.time = b.fab.time + 1000)) ∧
    (∀ f, f < 96 → (b'.desk f).level ≤ (b.desk f).level + (1 + (b.desk f).up.length + (b.desk f).matchUp.length) ∧
      (b.desk f).level ≤ (b'.desk f).level + (1 + (b.desk f).down.length + (b.desk f).matchDown.length)) ∧
    b'.waferLevel ≤ b.waferLevel + 122 ∧ b.waferLevel ≤ b'.waferLevel + 122 ∧ ∀ f, (b'.desk f).sound) ∧
  (∀ (b b' : Block) (q : List Instr) (f unit thread sub cls camp amount : Nat) (standing : Bool) (c : Instr),
    c = .rationRequest f unit thread sub cls camp amount standing ∨ c = .rationRelease f unit thread sub ∨ c = .rationStarved f unit thread sub ∨
      c = .unplannedDrop f unit thread sub ∨ c = .loanExpiry f →
    (∀ g, (b.desk g).sound) → exec c ⟨b, q⟩ = .next ⟨b', q⟩ → ∀ g, (b'.desk g).sound) ∧
  ∀ f, (Block.reset.desk f).sound

/-- Handover and the start of a taper leave a sound desk's level as it is (R66, R67), and a request leaves it too (R65, R66); its loan slots stay, and no other
desk changes. -/
def Obligations.HandoverKeepsLevel : Prop :=
  ∀ (b b' : Block) (q : List Instr) (f unit thread sub cls camp amount : Nat) (standing : Bool),
    exec (.rationRelease f unit thread sub) ⟨b, q⟩ = .next ⟨b', q⟩ ∨ exec (.rationRequest f unit thread sub cls camp amount standing) ⟨b, q⟩ = .next ⟨b', q⟩ →
    ((b.desk f).sound → (b'.desk f).level = (b.desk f).level) ∧ (b'.desk f).up = (b.desk f).up ∧ (b'.desk f).down = (b.desk f).down ∧
    (b'.desk f).matchUp = (b.desk f).matchUp ∧ (b'.desk f).matchDown = (b.desk f).matchDown ∧ ∀ g, g ≠ f → b'.desk g = b.desk g

/-- Requests, releases, starvations, lost grants and expired loans of a desk: the memories, the camp table, the registers in force, rings' states
and every other desk stay as they were; only a request for an array's standing grant passes an array (R241). -/
def Obligations.RationFrame : Prop :=
  ∀ (b b' : Block) (q : List Instr) (f unit thread sub cls camp amount : Nat) (standing : Bool) (c : Instr),
    c = .rationRequest f unit thread sub cls camp amount standing ∨ c = .rationRelease f unit thread sub ∨ c = .rationStarved f unit thread sub ∨
      c = .unplannedDrop f unit thread sub ∨ c = .loanExpiry f →
    exec c ⟨b, q⟩ = .next ⟨b', q⟩ →
    { b' with regs := b.regs, ring := b.ring, boot := b.boot, rat := b.rat, tc := b.tc, arr := b.arr } = b ∧
    (¬(0x140 ≤ unit ∧ unit < 0x14C ∧ sub = 2) → b'.arr = b.arr) ∧ (∀ k, k ≠ arrKey f (unit - 0x140) → sget (fun _ => ArrSt.init) b'.arr k = sget (fun _ => ArrSt.init) b.arr k) ∧
    (∀ g, g ≠ f → b'.desk g = b.desk g) ∧ b'.rat.plans = b.rat.plans ∧ b'.tc.jobs = b.tc.jobs ∧ b'.tc.ops = b.tc.ops

/-! ### Registers -/

/-- A write of BAR0 that R380, R491 or R542 refuses, or that never reaches its BAR, changes nothing but the counters that say so. -/
def Obligations.RefusedWritesChangeNothing : Prop :=
  ∀ (b b' : Block) (q : List Instr) (c : Instr) (fn off : Nat), c.barWrites = some (fn, off) → isLocal off = false →
    (isIdentity off = true ∨ (off < 0x300000 ∧ fn ≠ 0) ∨ (0x300000 ≤ off ∧ (fn % 16 ≠ 0 ∨ b.fnServes fn 0 = false))) →
    exec c ⟨b, q⟩ = .next ⟨b', q⟩ →
    { b' with regs := b.regs, out := b.out } = b ∧
    ∀ o, o ≠ F.deniedWrites.off → o ≠ F.partialWrites.off → o ≠ (F.uncorrErrors (fn / 16)).off → regWord b'.regs o = regWord b.regs o

/-- R3: a read of the low word of a 64-bit register latches its high word for the function that read it, and every later read of the high word by
that function gives the latched value until it reads the low word again; a function that has latched nothing reads the live high word. The
latch of another register or function is not touched. -/
def Obligations.HighWordLatch : Prop :=
  (∀ (b : Block) (fn off : Nat), off ∈ wideRegs →
    let b' := (b.readOne fn off).2
    (b.readOne fn off).1 = b.readWord fn off ∧ b'.latched fn off = some (BitVec.ofNat 32 (b.readWord fn (off + 4))) ∧
    ∀ fn' off', (fn', off') ≠ (fn, off) → fn' < 64 → fn < 64 → off' < 2 ^ 32 → b'.latched fn' off' = b.latched fn' off') ∧
  (∀ (b : Block) (fn off : Nat) (w : W32), off ∈ wideRegs → b.latched fn off = some w → b.readOne fn (off + 4) = (w.toNat, b)) ∧
  (∀ (b : Block) (fn off : Nat), off ∈ wideRegs → b.latched fn off = none → b.readOne fn (off + 4) = (b.readWord fn (off + 4), b)) ∧
  (∀ fn off, Block.reset.latched fn off = none)

/-- R4: a write to the low word of a writable 64-bit register only stages it; the next write to the high word by that function applies both
words, or the low word as it stands where none is staged, and leaves nothing staged. -/
def Obligations.LowWordStaging : Prop :=
  (∀ (b : Block) (fn off : Nat) (v : W32), off ∈ wideWritable →
    let b' := b.stageLow fn off v
    b'.regs = b.regs ∧ b'.stagedLow fn off = some v ∧ ∀ fn', fn' ≠ fn → fn' < 64 → fn < 64 → b'.stagedLow fn' off = b.stagedLow fn' off) ∧
  (∀ (b : Block) (fn off : Nat) (lo hi : W32), off ∈ wideWritable → b.stagedLow fn off = some lo →
    let b' := b.applyHigh fn off hi
    b'.regs = ((b.writeWord off lo).writeWord (off + 4) hi).regs ∧ b'.stagedLow fn off = none) ∧
  (∀ (b : Block) (fn off : Nat) (hi : W32), off ∈ wideWritable → b.stagedLow fn off = none →
    let b' := b.applyHigh fn off hi
    b'.regs = ((b.writeWord off (regWord b.regs off)).writeWord (off + 4) hi).regs ∧ b'.stagedLow fn off = none)

/-- TLPs by size (R2, R545): a read that crosses an aligned 8 bytes receives Completer Abort and a write that does, or whose byte enables leave out
a byte of a word that it touches, is dropped and counted; neither does anything else. -/
def Obligations.TlpSizes : Prop :=
  ∀ (b : Block) (q : List Instr) (fn off len be data : Nat), Reaches b fn = true →
    (inEight off len = false → exec (.lowWordRead fn off len) ⟨b, q⟩ = .next ⟨b.send (.tlpStatus fn 2), q⟩) ∧
    (inEight off len = false → exec (.registerWrite fn off len be data) ⟨b, q⟩ = .next ⟨b.bump F.partialWrites, q⟩) ∧
    (off % 4 = 0 → be % 16 ≠ 0 → be % 16 ≠ 15 → exec (.registerWrite fn off 4 be data) ⟨b, q⟩ = .next ⟨b.bump F.partialWrites, q⟩)

/-- BAR4 outside bring-up mode, or by a function other than a PF of camp 0 (R382, R546): reads give 0, writes are ignored, both are counted, and
nothing else happens. -/
def Obligations.DebugClosed : Prop :=
  ∀ (b : Block) (q : List Instr) (fn off len data : Nat), Reaches b fn = true → (fn % 16 ≠ 0 ∨ b.fnServes fn 0 = false ∨ b.boot.bringup = false) →
    exec (.dbgWindowAccess fn off len true data) ⟨b, q⟩ = .next ⟨b.bump F.deniedWrites, q⟩ ∧
    exec (.dbgWindowAccess fn off len false data) ⟨b, q⟩ = .next ⟨(b.bump F.deniedReads).send (.readData fn (bar4 + off) 0), q⟩ ∧
    ∀ v, exec (.dbgCaptureWrite fn v) ⟨b, q⟩ = .next ⟨b.bump F.deniedWrites, q⟩

/-- A counter stops at its top and loses no event below it (R12). -/
def Obligations.CountersStop : Prop :=
  ∀ (b : Block) (f : Fld) (n : Nat), f.lo + f.width ≤ 32 →
    (b.count f n).fget f = min (2 ^ f.width - 1) (b.fget f + n) ∧
    (∀ g : Fld, g.off ≠ f.off ∨ g.lo + g.width ≤ f.lo ∨ f.lo + f.width ≤ g.lo → g.lo + g.width ≤ 32 → (b.count f n).fget g = b.fget g) ∧
    { b.count f n with regs := b.regs } = b

/-- A write of a register word changes that word, the late-write counters of its owner and the values in force, and nothing else; a word whose
fields are all STATIC keeps its value while its block is enabled (R6, R7). -/
def Obligations.RegisterWriteFrame : Prop :=
  ∀ (b : Block) (off : Nat) (v : W32),
  { b.writeWord off v with regs := b.regs, force := b.force } = b ∧
  (∀ o, o ≠ off → (∀ r, regAt off = some r → ∀ f ∈ lateCounters r.owner off, o ≠ f.off) → regWord (b.writeWord off v).regs o = regWord b.regs o) ∧
  (∀ r, regAt off = some r → (r.fields.all fun f => decide (f.cls = .static)) = true → b.ownerEnabled r.owner off = true →
    (∀ f ∈ lateCounters r.owner off, f.off ≠ off) → regWord (b.writeWord off v).regs off = regWord b.regs off)

/-! ### Threads -/

/-- Computing words change their destination registers and no other, no other thread, no memory and no register of the block, past what the issue and the fetch change; YIELD
notes that its thread yields (R195, R206, R221). -/
def Obligations.ComputeFrame : Prop :=
  ∀ (b b' : Block) (q : List Instr) (t : Nat),
  let w := (AtIssue b t).fetch t
  (Issues b t (ofMajor 0x01) = true → exec (.alu t) ⟨b, q⟩ = .next ⟨b', q⟩ → ComputesOnly (AtIssue b t) b' t [wRd w] [] [] false) ∧
  (Issues b t (ofMajor 0x02) = true → exec (.addi t) ⟨b, q⟩ = .next ⟨b', q⟩ → ComputesOnly (AtIssue b t) b' t [wRd w] [] [] false) ∧
  (Issues b t (ofMajor 0x03) = true → exec (.andi t) ⟨b, q⟩ = .next ⟨b', q⟩ → ComputesOnly (AtIssue b t) b' t [wRd w] [] [] false) ∧
  (Issues b t (ofMajor 0x04) = true → exec (.ori t) ⟨b, q⟩ = .next ⟨b', q⟩ → ComputesOnly (AtIssue b t) b' t [wRd w] [] [] false) ∧
  (Issues b t (ofMajor 0x05) = true → exec (.xori t) ⟨b, q⟩ = .next ⟨b', q⟩ → ComputesOnly (AtIssue b t) b' t [wRd w] [] [] false) ∧
  (Issues b t (ofMajor 0x06) = true → exec (.shi t) ⟨b, q⟩ = .next ⟨b', q⟩ → ComputesOnly (AtIssue b t) b' t [wRd w] [] [] false) ∧
  (Issues b t (ofMajor 0x07) = true → exec (.liq t) ⟨b, q⟩ = .next ⟨b', q⟩ → ComputesOnly (AtIssue b t) b' t [wRd w] [] [] false) ∧
  (Issues b t (ofMajor 0x08) = true → exec (.cmp t) ⟨b, q⟩ = .next ⟨b', q⟩ → ComputesOnly (AtIssue b t) b' t [] [wRd w % 8] [] true) ∧
  (Issues b t (ofMajor 0x09) = true → exec (.fpu t) ⟨b, q⟩ = .next ⟨b', q⟩ → ComputesOnly (AtIssue b t) b' t [wRd w] [] [] true) ∧
  (Issues b t (ofMajor 0x0A) = true → exec (.plog t) ⟨b, q⟩ = .next ⟨b', q⟩ →
    ComputesOnly (AtIssue b t) b' t (if wFunc w = 6 then [wRd w] else []) (if wFunc w = 6 then [] else [wRd w % 8]) [] false) ∧
  (Issues b t (ofMajor 0x1C) = true → (AtIssue b t).inCode t (brTarget ((AtIssue b t).thread t).pc w) = true → ((AtIssue b t).thread t).pBad (wPred w) = false →
    exec (.br t) ⟨b, q⟩ = .next ⟨b', q⟩ → ComputesOnly (AtIssue b t) b' t [] [] [] false) ∧
  (Issues b t (ofMajor 0x20) = true → exec (.vop t) ⟨b, q⟩ = .next ⟨b', q⟩ → ComputesOnly (AtIssue b t) b' t [] [] [wVd w] true) ∧
  (Issues b t (ofMajor 0x21) = true → exec (.vops t) ⟨b, q⟩ = .next ⟨b', q⟩ → ComputesOnly (AtIssue b t) b' t [] [] [wVd w] true) ∧
  (Issues b t (ofMajor 0x22) = true → exec (.vred t) ⟨b, q⟩ = .next ⟨b', q⟩ → ComputesOnly (AtIssue b t) b' t [wVrs w] [] [] true) ∧
  (Issues b t (ofMajor 0x23) = true → exec (.vcmp t) ⟨b, q⟩ = .next ⟨b', q⟩ → ComputesOnly (AtIssue b t) b' t [] [wVd w % 8] [] true) ∧
  (Issues b t (ofMajor 0x24) = true → exec (.smup t) ⟨b, q⟩ = .next ⟨b', q⟩ → ComputesOnly (AtIssue b t) b' t [wVrs w, wVrs w + 1] [] [wVd w] true) ∧
  (Issues b t (ofSys 0x030) = true → exec (.csrr t) ⟨b, q⟩ = .next ⟨b', q⟩ → ComputesOnly (AtIssue b t) b' t [wRd w] [] [] false) ∧
  (Issues b t (ofSys 0x031) = true → ((AtIssue b t).thread t).gBad (wRs2 w) = false → exec (.csrw t) ⟨b, q⟩ = .next ⟨b', q⟩ → ComputesOnly (AtIssue b t) b' t [] [] [] true) ∧
  (Issues b t (ofSys 0x041) = true → exec (.yield t) ⟨b, q⟩ = .next ⟨b', q⟩ →
    let c := (AtIssue b t).core (keyField t) (keyCore t)
    ComputesOnly ((AtIssue b t).setCore (keyField t) (keyCore t) { c with yielded := setBit c.yielded (keyThr t) true }) b' t [] [] [] false)

/-- No word of a thread changes a byte of memory when it issues, whatever it is and however it ends, where its fetch meets no error; it issues at most one operation, its
own, which is performed at a MEMORY_ACCESS (R214); only an abort of an array takes operations away, and with them their hold on the frames that they read. What a word can change besides the cores: its
arrays, the desks, a controller's burst, counters, and by a fault the rings' records and events and, of a resident kernel, its requests' ends. -/
def Obligations.WordsLeaveMemory : Prop :=
  ∀ (b b' : Block) (q : List Instr) (c : Instr) (t : Nat), c.word? = some t → AtIssue b t = b.issued t → exec c ⟨b, q⟩ = .next ⟨b', q⟩ →
    { b' with tc := b.tc, arr := b.arr, rat := b.rat, dram := b.dram, regs := b.regs, ring := b.ring, boot := b.boot, serve := b.serve, tier := b.tier, free := b.free } = b ∧
    (∀ a, b'.mem.byte a = b.mem.byte a ∧ b'.mem.poisoned a = b.mem.poisoned a) ∧
    (c ≠ .arrAbort t → b'.tier = b.tier ∧
      (b'.tc.ops = b.tc.ops ∨ ∃ o, b'.tc.ops = b.tc.ops ++ [o] ∧ o.thread = some t ∧ o.performed = false ∧ o.pc = (b.thread t).pc))

/-- R224, R150: a parity error in a running JOB's thread ends the JOB DATA_LOST with fault code PARITY and raises REGFILE_PARITY; in a resident kernel's it ends the
kernel's requests DATA_LOST. What the thread wrote, and the operations that it issued, stay. -/
def Obligations.ParityEndsJob : Prop :=
  ∀ (b : Block) (q : List Instr) (t : Nat) (j : Job), (b.thread t).live = true → b.job? (b.thread t).job = some j → j.fault = none → j.ended = 0 →
  let pc := (b.thread t).pc
  let b' := ((b.bump (F.parityErrors (keyField t))).raise 0x0170 (keyField t) j.camp (jobPayload 6 t pc 0)).fault t 6 0
  exec (.regfileParity t) ⟨b, q⟩ = .next ⟨b', q⟩ ∧
  b'.job? j.id = some { j with phase := 3, fault := some (6, keyThr t, keyCore t, keyField t, pc, 0) } ∧ faultStatus 6 = 0x30 ∧
  b'.serve = (if j.kernel then (b.endRows j 0x30 0).serve else b.serve) ∧ b'.mem = b.mem ∧ b'.tc.ops = b.tc.ops ∧ b'.tc.threads = b.tc.threads

/-! ### Memory -/

/-- The bytes of a core's local memory: a store within it that meets no poison and no armed error leaves its bytes, without an error, so that they read back; every other byte of
every memory reads as before. -/
def Obligations.StoreThenLoad : Prop :=
  ∀ (b : Block) (f core off : Nat) (xs : List Byte), f < 96 → core < 288 → off + xs.length ≤ 0x40000 →
    (∀ a, b.mem.poisoned a = false) → b.fget F.flipCtrlArm ≠ 1 →
    let p := localAddr f core off
    let b' := b.storeBytes p xs.length xs
    (∀ i x, xs[i]? = some x → sget (fun _ => 0) b'.mem.bytes (p + i) = x ∧ sget (fun _ => 0) b'.mem.bad (wordOf (p + i)) = 0) ∧
    ((∀ a, p ≤ a → a < p + xs.length → b.mem.line a = none) → b'.readBytes p xs.length = xs) ∧
    (∀ a, a < p ∨ p + xs.length ≤ a → b'.mem.byte a = b.mem.byte a) ∧ ∀ a, b'.mem.poisoned a = false

/-- The memories keep their canonical form over a zero fill (R155), a JOB's launch (R198) and a page walk (R266). The form is the model's own (log
entry 5). -/
def Obligations.MemoryFormKept : Prop :=
  ∀ (b b' : Block) (q : List Instr) (c : Instr) (f n tier camp seq slot pair first last core off : Nat),
    c = .zeroFillDone f tier n ∨ c = .jobLaunch camp seq ∨ c = .pageWalk f slot pair first last core off →
    b.mem.wf = true → exec c ⟨b, q⟩ = .next ⟨b', q⟩ → b'.mem.wf = true

/-- R303's order on (value, index) pairs: any two different pairs of 32-bit values and indices are ranked, no pair before itself, and the order is
transitive; greater values rank first, -0 equals +0, NaN ranks last and all NaNs rank equal, and the lower index ranks first between equals. -/
def Obligations.RankTotalOrder : Prop :=
  (∀ x, ranks x x = false) ∧
  (∀ x y : Nat × Nat, x.1 < 2 ^ 32 → y.1 < 2 ^ 32 → x.2 ≠ y.2 → ranks x y = !ranks y x) ∧
  (∀ x y z : Nat × Nat, x.1 < 2 ^ 32 → y.1 < 2 ^ 32 → z.1 < 2 ^ 32 → ranks x y = true → ranks y z = true → ranks x z = true) ∧
  (∀ x y : Nat × Nat, f32IsNan x.1 = false → f32IsNan y.1 = true → ranks x y = true) ∧
  (∀ x y : Nat × Nat, f32IsNan x.1 = false → f32IsNan y.1 = false → f32Lt y.1 x.1 = true → ranks x y = true ∧ ranks y x = false) ∧
  (∀ i k, ranks (0x80000000, i) (0, k) = decide (i < k) ∧ ranks (0, i) (0x80000000, k) = decide (i < k)) ∧
  (∀ x y i k, f32IsNan x = true → f32IsNan y = true → ranks (x, i) (y, k) = decide (i < k))

/-! ### Rings -/

/-- R405: when a doorbell write is an overrun, and what it then does: it is counted and raised, and for an enabled submission ring completed with
status RING_OVERRUN and cookie 0 on its COMPLETION ring; the held index stays. -/
def Obligations.DoorbellOverrun : Prop :=
  ∀ (b : Block) (q : List Instr) (fn off idx : Nat), Reaches b fn = true → b.fnMapped fn = true → off < 0x200 → b.boot.stage = 10 → fn < 64 →
  let k := ringKey fn (off / 8)
  let s := b.ringSt k
  let size := ringSize b.regs k
  let kind := ringKind b.regs k
  let cause := overrunCause b k idx
  (cause ≠ 0 ↔ s.enabled = false ∨ size ≤ idx ∨ (kind < 2 ∧ (idx + size - s.head) % size < (s.tail + size - s.head) % size) ∨
    (2 ≤ kind ∧ (s.tail + size - s.head) % size < (idx + size - s.head) % size)) ∧
  (cause ≠ 0 →
    let b0 := b.bump (F.doorbells k)
    let b1 := ((b0.bump (F.overruns k)).bump F.overrunsTotal).raise 0x0810 0xFF (b.fnCamp fn) (ringPayload b0.regs k cause idx s.head s.tail)
    let r : Rec := ⟨fn, b0.fget (F.ringCfgCplRing k), 2, packBits [(64, 8, 0x26), (73, 6, off / 8), (128, 8, off / 8), (136, 8, cause), (144, 16, idx),
      (160, 16, s.head), (176, 16, s.tail)], false⟩
    let b' := if s.enabled = true ∧ ringKind b0.regs k < 2 then b1.record r else b1
    exec (.doorbell fn off idx true) ⟨b, q⟩ = .next ⟨b', q⟩ ∧ (b'.ringSt k).head = s.head ∧ (b'.ringSt k).tail = s.tail)

/-- R390: a record due for a function whose Bus Master Enable is 0, which is in D3hot, whose port's link is down, or which is a VF that does not exist, is
discarded and counted, and nothing else changes. -/
def Obligations.RecordDiscard : Prop :=
  ∀ (b : Block) (q : List Instr) (fn i : Nat) (r : Rec), b.nextRec fn i = some r →
    ((b.fnSt fn).bme = false ∨ (b.fnSt fn).d3 = true ∨ (b.portSt (fn / 16)).up = false ∨ b.fnExists fn = false) →
    let b' := (({ b with ring := { b.ring with outbox := dropFirst (· == r) b.ring.outbox } } : Block).bump F.recordsDiscarded).bump (F.fnDiscards fn)
    exec (.recordWrite fn i) ⟨b, q⟩ = .next ⟨b', q⟩ ∧ { b' with regs := b.regs, ring := b.ring } = b ∧ b'.ring.rings = b.ring.rings ∧ b'.ring.descs = b.ring.descs

/-- A ring's commands leave every other ring's indices, phase and state, and every part of the block but the rings, their registers, the vectors and
what goes outward. Each of them, and each command of a vector, completes under the conditions of RingsComplete with its own ring's or vector's new state. -/
def Obligations.RingFrame : Prop :=
  (∀ (b b' : Block) (q : List Instr) (c : Instr) (fn i k off idx value raw : Nat) (covers : Bool),
    (c = .doorbell fn off idx covers ∧ k = ringKey fn (off / 8)) ∨ c = .ringEnable fn k value ∨ c = .ringDisable fn k value ∨
      (c = .descriptorFetch fn i raw ∧ k = ringKey fn i) ∨ (c = .recordWrite fn i ∧ k = ringKey fn i) →
    exec c ⟨b, q⟩ = .next ⟨b', q⟩ →
    { b' with regs := b.regs, force := b.force, ring := b.ring, boot := b.boot, host := { b'.host with vecs := b.host.vecs }, out := b.out } = b ∧
    ∀ k', k' ≠ k → { b'.ringSt k' with lost := (b.ringSt k').lost } = b.ringSt k') ∧
  (∀ (b : Block) (q : List Instr) (fn off idx : Nat), Reaches b fn = true → b.fnMapped fn = true → off < 0x200 → b.boot.stage = 10 →
    let k := ringKey fn (off / 8)
    overrunCause b k idx = 0 →
    ∃ b', exec (.doorbell fn off idx true) ⟨b, q⟩ = .next ⟨b', q⟩ ∧
      (if ringKind b.regs k < 2 then (b'.ringSt k).tail = idx ∧ (b'.ringSt k).head = (b.ringSt k).head
        else (b'.ringSt k).head = idx ∧ (b'.ringSt k).tail = (b.ringSt k).tail)) ∧
  (∀ (b : Block) (q : List Instr) (fn k value : Nat), Writes b fn (F.ringCtrlEnable k).off = true → (b.ringSt k).enabled = false →
    ringCfgErr (b.writeWord (F.ringCtrlEnable k).off (BitVec.ofNat 32 value)) k = 0 →
    ∃ b', exec (.ringEnable fn k value) ⟨b, q⟩ = .next ⟨b', q⟩ ∧
      b'.ringSt k = { RingSt.init with enabled := true, phase := true, stopped := (b.ringSt k).stopped }) ∧
  (∀ (b : Block) (q : List Instr) (fn k value : Nat), Writes b fn (F.ringCtrlEnable k).off = true → (b.ringSt k).enabled = true → b.isBound k = false →
    ∃ b', exec (.ringDisable fn k value) ⟨b, q⟩ = .next ⟨b', q⟩ ∧ b'.ringSt k = { b.ringSt k with enabled := false }) ∧
  (∀ (b : Block) (q : List Instr) (fn i raw : Nat), mayConsume b fn i raw = true →
    let k := ringKey fn i
    let s := b.ringSt k
    let len := if bitsOf raw 16 16 = 2 then 2 else 1
    ∃ b', exec (.descriptorFetch fn i raw) ⟨b, q⟩ = .next ⟨b', q⟩ ∧
      b'.ringSt k = { s with head := (s.head + len) % ringSize b.regs k, count := (s.count + len) % 2 ^ 32 }) ∧
  (∀ (b : Block) (q : List Instr) (fn i : Nat) (r : Rec), b.nextRec fn i = some r → b.fnReceives fn = true →
    let k := ringKey fn i
    let s := b.ringSt k
    s.enabled = true → (s.tail + 1) % ringSize b.regs k ≠ s.head →
    ∃ b', exec (.recordWrite fn i) ⟨b, q⟩ = .next ⟨b', q⟩ ∧
      (b'.ringSt k).tail = (s.tail + 1) % ringSize b.regs k ∧ (b'.ringSt k).head = s.head ∧ (b'.ringSt k).count = (s.count + 1) % 2 ^ 32) ∧
  (∀ (b : Block) (q : List Instr) (fn v : Nat), 0 < (b.vec fn v).causes → (b.vec fn v).oldest + (b.vec fn v).holdoff * 1000 ≤ b.fab.time →
    ∃ b', exec (.msixHoldoff fn v) ⟨b, q⟩ = .next ⟨b', q⟩ ∧ (b'.vec fn v).causes = 0 ∧ (b'.vec fn v).masked = (b.vec fn v).masked ∧
      ∀ j, vecKey fn j ≠ vecKey fn v → b'.vec fn j = b.vec fn j) ∧
  (∀ (b : Block) (q : List Instr) (fn v : Nat),
    ∃ b', exec (.msixUnmask fn v) ⟨b, q⟩ = .next ⟨b', q⟩ ∧ (b'.vec fn v).masked = false ∧ (b'.vec fn v).causes = (b.vec fn v).causes ∧
      ∀ j, vecKey fn j ≠ vecKey fn v → b'.vec fn j = b.vec fn j)

/-! ### Consent and resets -/

/-- A countersignature (R474, R477): one equal to the digest, within the window, from the party that did not propose, approves; one that differs ends
the proposal with MISMATCH; the proposer's own is refused and counted. No other consent command approves anything. -/
def Obligations.CountersignDecides : Prop :=
  (∀ (b : Block) (q : List Instr) (fn : Nat) (data : List Nat), b.camp.state = 1 → data.length = 32 →
    let sig := ofBytesLE (data.map (BitVec.ofNat 8))
    (b.camp.proposer = 1 → exec (.countersign true fn data) ⟨b, q⟩ = .next ⟨(b.bump F.wrongParty).consentReply true 6 3 [], q⟩) ∧
    (b.camp.proposer ≠ 1 → b.fab.time ≤ b.camp.windowEnd → sig ≠ b.camp.digest →
      exec (.countersign true fn data) ⟨b, q⟩ = .next ⟨(b.rejectProposal 2).consentReply true 6 0 [], q⟩ ∧ (b.rejectProposal 2).camp.state = 0 ∧
      (b.rejectProposal 2).camp.lastResult = 2 ∧ (b.rejectProposal 2).camp.stage = b.camp.stage ∧ (b.rejectProposal 2).camp.counter = b.camp.counter)) ∧
  (∀ (b b' : Block) (q : List Instr) (c : Instr), c.ofConsent = true → b.camp.state ≠ 2 → exec c ⟨b, q⟩ = .next ⟨b', q⟩ → b'.camp.state = 2 →
    ∃ mc fn data, c = .countersign mc fn data ∧ b.camp.state = 1 ∧ b.camp.proposer ≠ party mc ∧ b.fab.time ≤ b.camp.windowEnd ∧
      (if mc then ofBytesLE (data.map (BitVec.ofNat 8)) else b.csDigest) = b.camp.digest)

/-- The consent commands change no camp's rights: the live image and the stored one stay; only COPY and WRITE while IDLE change the stage, and nothing
outside the consent block, its counters, events and replies changes (R475, R477). -/
def Obligations.ConsentFrame : Prop :=
  ∀ (b b' : Block) (q : List Instr) (c : Instr), c.ofConsent = true → exec c ⟨b, q⟩ = .next ⟨b', q⟩ →
    { b' with regs := b.regs, ring := b.ring, boot := b.boot, camp := b.camp, out := b.out, free := b.free } = b ∧
    b'.camp.live = b.camp.live ∧ b'.camp.store = b.camp.store ∧ b'.camp.resets = b.camp.resets ∧ b'.camp.held = b.camp.held ∧
    (b.camp.state ≠ 0 → b'.camp.stage = b.camp.stage)

/-- R535: a camp reset that has run CAMP_RESET_LIMIT_MS raises CAMP_RESET_STUCK, is marked so that it raises it no second time, and the camp stays
resetting. -/
def Obligations.CampResetStuckOnce : Prop :=
  ∀ (b : Block) (q : List Instr) (c : Nat) (r : CampReset), b.camp.resets.find? (fun r => r.camp == c) = some r → r.stuck = false →
    let ms := (b.fab.time - r.start) / 1000000
    max 1 (b.fget F.campResetLimitMs) ≤ ms →
    let b' := ({ b with camp := { b.camp with resets := b.camp.resets.map fun x => if x.camp = c then { x with stuck := true } else x } } : Block).raise
      0x0905 0xFF c (packBits [(32, 32, ms)])
    exec (.campResetStuck c) ⟨b, q⟩ = .next ⟨b', q⟩ ∧ exec (.campResetStuck c) ⟨b', q⟩ = .next ⟨b', q⟩ ∧ b'.resetting c = true

/-! ### The module -/

/-- R505: below 44.0 V the module powers off (R503): PWR_GOOD is off; the ration master ramps the wafer down, every grant and covered request tapering from the level as it
stands; at the floors, or before the fabric runs, no field stage runs and start-up is back at its first stage. -/
def Obligations.UndervoltPowersOff : Prop :=
  ∀ (b : Block) (q : List Instr) (vin : Nat), vin < 44000 → b.modu.pwrGood = true →
    ∃ b', exec (.undervoltPowerOff vin) ⟨b, q⟩ = .next ⟨b', q⟩ ∧ b'.modu.pwrGood = false ∧ b'.modu.vinMv = vin ∧
      (b.boot.en.fabric = true → b.atFloors = false → b'.modu.offRamp = true ∧ b'.modu.stages = b.modu.stages ∧
        ∀ f, (b'.desk f).queue = [] ∧ (b'.desk f).grants = [] ∧ (b'.desk f).level = (b.desk f).level) ∧
      (b.boot.en.fabric = false ∨ b.atFloors = true → b'.modu.stages = 0 ∧ b'.boot.stage = 0 ∧ b'.boot.en.fabric = false)

/-- R508: a coolant sample with a low flow or a hot inlet raises COOLANT_ALARM once per episode and counts the time of a low flow; the module does
nothing else about it. -/
def Obligations.CoolantOnly : Prop :=
  ∀ (b : Block) (q : List Instr) (inlet outlet flow : Nat), b.modu.pwrGood = true →
    let low := flow < 10 * b.fget F.thermConfigFlowMinLpm
    let hot := b.fget F.thermConfigInletMaxC < inlet
    let b1 : Block := { b with modu := { b.modu with inletC := inlet, outletC := outlet, flowDlpm := flow, coolantAlarm := decide (low ∨ hot) } }
    let b2 := if low then b1.count F.flowLowMs 100 else b1
    exec (.coolantSample inlet outlet flow) ⟨b, q⟩ =
      .next ⟨if (low ∨ hot) ∧ b.modu.coolantAlarm = false then b2.modEvent 0x0206 0xFF inlet 0 (if low then 1 else 2) 0 flow else b2, q⟩

/-! ### Yilgil -/

/-- Commands of one Yilgil port that only it sees: every other port is as it was, and so are the memories, the camp table and the serving loop. -/
def Obligations.YilgilFrame : Prop :=
  ∀ (b b' : Block) (q : List Instr) (c : Instr) (p seq : Nat) (replay good room : Bool) (corrected flits : List Nat),
    c = .codewordReceive p seq replay good corrected flits ∨ c = .ygLaneRequest p ∨ c = .ygTrainRetry p ∨ c = .ygHoldEnd p ∨
      (c = .linkFlit p room ∧ hdrClass ((streamUnits (b.port p).stream (b.port p).stream.length).2.headD 0) ≠ 3) →
    exec c ⟨b, q⟩ = .next ⟨b', q⟩ →
    { b' with regs := b.regs, rat := b.rat, tc := b.tc, ring := b.ring, boot := b.boot, dbg := b.dbg, yg := b.yg, out := b.out } = b ∧
    { b'.yg with ports := b.yg.ports } = b.yg ∧ ∀ p', p' ≠ p → b'.port p' = b.port p'
end

