-- ==== Sys2Proof/Laws/Exec.lean ====
section
/-! SUPPORT. Each command's step on a block and its waiting commands, in one equation: its effect on the block, the queue as it was. -/
namespace Sys2Proof.Machine

variable (b : Block) (q : List Instr)

theorem step_cons (c : Instr) : step ⟨b, c :: q⟩ = exec c ⟨b, q⟩ := rfl
theorem step_nil : step ⟨b, []⟩ = .next ⟨b, []⟩ := rfl

theorem exec_registerWrite (fn : Nat) (off : Nat) (len : Nat) (be : Nat) (data : Nat) : exec (.registerWrite fn off len be data) ⟨b, q⟩ = .next ⟨registerWriteEff fn off len be data b, q⟩ := rfl
theorem exec_lowWordRead (fn : Nat) (off : Nat) (len : Nat) : exec (.lowWordRead fn off len) ⟨b, q⟩ = .next ⟨lowWordReadEff fn off len b, q⟩ := rfl
theorem exec_highWordWrite (fn : Nat) (off : Nat) (value : Nat) : exec (.highWordWrite fn off value) ⟨b, q⟩ = .next ⟨highWordWriteEff fn off value b, q⟩ := rfl
theorem exec_lowWordWrite (fn : Nat) (off : Nat) (value : Nat) : exec (.lowWordWrite fn off value) ⟨b, q⟩ = .next ⟨lowWordWriteEff fn off value b, q⟩ := rfl
theorem exec_flitReceive (site : Nat) (port : Nat) (cls : Nat) (leg : Nat) (err : Nat) (flit : Nat) (room : Bool) : exec (.flitReceive site port cls leg err flit room) ⟨b, q⟩ = .next ⟨flitReceiveEff site port cls leg err flit room b, q⟩ := rfl
theorem exec_routeQuery (fn : Nat) (value : Nat) : exec (.routeQuery fn value) ⟨b, q⟩ = .next ⟨routeQueryEff fn value b, q⟩ := rfl
theorem exec_timeSync (offsets : List (Nat × Int)) : exec (.timeSync offsets) ⟨b, q⟩ = .next ⟨timeSyncEff offsets b, q⟩ := rfl
theorem exec_timeUnlocked (site : Nat) : exec (.timeUnlocked site) ⟨b, q⟩ = .next ⟨timeUnlockedEff site b, q⟩ := rfl
theorem exec_linkHeartbeat (site : Nat) (port : Nat) (acked : Bool) : exec (.linkHeartbeat site port acked) ⟨b, q⟩ = .next ⟨linkHeartbeatEff site port acked b, q⟩ := rfl
theorem exec_fabricStall (site : Nat) (port : Nat) (cls : Nat) (leg : Nat) : exec (.fabricStall site port cls leg) ⟨b, q⟩ = .next ⟨fabricStallEff site port cls leg b, q⟩ := rfl
theorem exec_stepTokenReceive (c : Nat) (f : Nat) (work : StepWork) (experts : List Announcement) : exec (.stepTokenReceive c f work experts) ⟨b, q⟩ = .next ⟨stepTokenReceiveEff c f work experts b, q⟩ := rfl
theorem exec_stepDone (c : Nat) (f : Nat) (unitsDone : Bool) : exec (.stepDone c f unitsDone) ⟨b, q⟩ = .next ⟨stepDoneEff c f unitsDone b, q⟩ := rfl
theorem exec_stepBoundary (c : Nat) (plan : List (Nat × Nat × Nat × Nat × Nat)) (drops : List (Nat × Nat × Nat × Nat)) : exec (.stepBoundary c plan drops) ⟨b, q⟩ = .next ⟨stepBoundaryEff c plan drops b, q⟩ := rfl
theorem exec_rationRequest (f : Nat) (unit : Nat) (thread : Nat) (sub : Nat) (cls : Nat) (camp : Nat) (amount : Nat) (standing : Bool) : exec (.rationRequest f unit thread sub cls camp amount standing) ⟨b, q⟩ = .next ⟨rationRequestEff f unit thread sub cls camp amount standing b, q⟩ := rfl
theorem exec_rationTick : exec .rationTick ⟨b, q⟩ = .next ⟨rationTickEff b, q⟩ := rfl
theorem exec_rationRelease (f : Nat) (unit : Nat) (thread : Nat) (sub : Nat) : exec (.rationRelease f unit thread sub) ⟨b, q⟩ = .next ⟨rationReleaseEff f unit thread sub b, q⟩ := rfl
theorem exec_loanExpiry (f : Nat) : exec (.loanExpiry f) ⟨b, q⟩ = .next ⟨loanExpiryEff f b, q⟩ := rfl
theorem exec_rationStarved (f : Nat) (unit : Nat) (thread : Nat) (sub : Nat) : exec (.rationStarved f unit thread sub) ⟨b, q⟩ = .next ⟨rationStarvedEff f unit thread sub b, q⟩ := rfl
theorem exec_unplannedDrop (f : Nat) (unit : Nat) (thread : Nat) (sub : Nat) : exec (.unplannedDrop f unit thread sub) ⟨b, q⟩ = .next ⟨unplannedDropEff f unit thread sub b, q⟩ := rfl
theorem exec_campIdleHold (c : Nat) : exec (.campIdleHold c) ⟨b, q⟩ = .next ⟨campIdleHoldEff c b, q⟩ := rfl
theorem exec_wideHoldExpiry (f : Nat) (core : Nat) : exec (.wideHoldExpiry f core) ⟨b, q⟩ = .next ⟨wideHoldExpiryEff f core b, q⟩ := rfl
theorem exec_arrayHoldExpiry (f : Nat) (n : Nat) : exec (.arrayHoldExpiry f n) ⟨b, q⟩ = .next ⟨arrayHoldExpiryEff f n b, q⟩ := rfl
theorem exec_burstIdleExpiry (f : Nat) (p : Nat) : exec (.burstIdleExpiry f p) ⟨b, q⟩ = .next ⟨burstIdleExpiryEff f p b, q⟩ := rfl
theorem exec_memoryAccess (id : Nat) (errs : List (Nat × Nat)) (checks : List (Nat × Nat)) (dirMiss : Bool) : exec (.memoryAccess id errs checks dirMiss) ⟨b, q⟩ = .next ⟨memoryAccessEff id errs checks dirMiss b, q⟩ := rfl
theorem exec_moveStart (f : Nat) (g : Nat) (dst : Nat) (slot : Nat) : exec (.moveStart f g dst slot) ⟨b, q⟩ = .next ⟨moveStartEff f g dst slot b, q⟩ := rfl
theorem exec_moveSwitch (f : Nat) (g : Nat) (hostData : Nat) : exec (.moveSwitch f g hostData) ⟨b, q⟩ = .next ⟨moveSwitchEff f g hostData b, q⟩ := rfl
theorem exec_moveOldFrameFree (f : Nat) (tier : Nat) (n : Nat) : exec (.moveOldFrameFree f tier n) ⟨b, q⟩ = .next ⟨moveOldFrameFreeEff f tier n b, q⟩ := rfl
theorem exec_expertReadyReport (c : Nat) (layer : Nat) (expert : Nat) (f : Nat) : exec (.expertReadyReport c layer expert f) ⟨b, q⟩ = .next ⟨expertReadyReportEff c layer expert f b, q⟩ := rfl
theorem exec_substituteDeadline (c : Nat) (layer : Nat) (expert : Nat) : exec (.substituteDeadline c layer expert) ⟨b, q⟩ = .next ⟨substituteDeadlineEff c layer expert b, q⟩ := rfl
theorem exec_tierLate (f : Nat) (c : Nat) (n : Nat) (step : Bool) (key : Nat) : exec (.tierLate f c n step key) ⟨b, q⟩ = .next ⟨tierLateEff f c n step key b, q⟩ := rfl
theorem exec_hintMap (camp : Nat) (seq : Nat) (frames : List Nat) : exec (.hintMap camp seq frames) ⟨b, q⟩ = .next ⟨hintMapEff camp seq frames b, q⟩ := rfl
theorem exec_hintUnmap (camp : Nat) (seq : Nat) : exec (.hintUnmap camp seq) ⟨b, q⟩ = .next ⟨hintUnmapEff camp seq b, q⟩ := rfl
theorem exec_hintSet (camp : Nat) (seq : Nat) : exec (.hintSet camp seq) ⟨b, q⟩ = .next ⟨hintSetEff camp seq b, q⟩ := rfl
theorem exec_dirQuery (fn : Nat) (value : Nat) : exec (.dirQuery fn value) ⟨b, q⟩ = .next ⟨dirQueryEff fn value b, q⟩ := rfl
theorem exec_refreshDue (f : Nat) (n : Nat) : exec (.refreshDue f n) ⟨b, q⟩ = .next ⟨refreshDueEff f n b, q⟩ := rfl
theorem exec_stackThermalSample (f : Nat) (temp : Nat) (queued : List Nat) : exec (.stackThermalSample f temp queued) ⟨b, q⟩ = .next ⟨stackThermalSampleEff f temp queued b, q⟩ := rfl
theorem exec_graceEnd (f : Nat) : exec (.graceEnd f) ⟨b, q⟩ = .next ⟨graceEndEff f b, q⟩ := rfl
theorem exec_stackFault (f : Nat) (supply : Bool) : exec (.stackFault f supply) ⟨b, q⟩ = .next ⟨stackFaultEff f supply b, q⟩ := rfl
theorem exec_marginScan (fn : Nat) (f : Nat) (value : Nat) : exec (.marginScan fn f value) ⟨b, q⟩ = .next ⟨marginScanEff fn f value b, q⟩ := rfl
theorem exec_marginScanDone (f : Nat) (errors : Nat) : exec (.marginScanDone f errors) ⟨b, q⟩ = .next ⟨marginScanDoneEff f errors b, q⟩ := rfl
theorem exec_repairQuery (fn : Nat) (f : Nat) (value : Nat) : exec (.repairQuery fn f value) ⟨b, q⟩ = .next ⟨repairQueryEff fn f value b, q⟩ := rfl
theorem exec_softRowRepair (fn : Nat) (f : Nat) (value : Nat) : exec (.softRowRepair fn f value) ⟨b, q⟩ = .next ⟨softRowRepairEff fn f value b, q⟩ := rfl
theorem exec_zeroFillDone (f : Nat) (tier : Nat) (n : Nat) : exec (.zeroFillDone f tier n) ⟨b, q⟩ = .next ⟨zeroFillDoneEff f tier n b, q⟩ := rfl
theorem exec_weederRead (f : Nat) (mem : Nat) (pattern : Nat) (check : Nat) : exec (.weederRead f mem pattern check) ⟨b, q⟩ = .next ⟨weederReadEff f mem pattern check b, q⟩ := rfl
theorem exec_weederLapSlow (f : Nat) (mem : Nat) : exec (.weederLapSlow f mem) ⟨b, q⟩ = .next ⟨weederLapSlowEff f mem b, q⟩ := rfl
theorem exec_flipArm (fn : Nat) (value : Nat) : exec (.flipArm fn value) ⟨b, q⟩ = .next ⟨flipArmEff fn value b, q⟩ := rfl
theorem exec_candQuery (fn : Nat) (value : Nat) : exec (.candQuery fn value) ⟨b, q⟩ = .next ⟨candQueryEff fn value b, q⟩ := rfl
theorem exec_installCreate (camp : Nat) (seq : Nat) : exec (.installCreate camp seq) ⟨b, q⟩ = .next ⟨installCreateEff camp seq b, q⟩ := rfl
theorem exec_installWrite (camp : Nat) (seq : Nat) : exec (.installWrite camp seq) ⟨b, q⟩ = .next ⟨installWriteEff camp seq b, q⟩ := rfl
theorem exec_installSeal (camp : Nat) (seq : Nat) : exec (.installSeal camp seq) ⟨b, q⟩ = .next ⟨installSealEff camp seq b, q⟩ := rfl
theorem exec_installErase (camp : Nat) (seq : Nat) : exec (.installErase camp seq) ⟨b, q⟩ = .next ⟨installEraseEff camp seq b, q⟩ := rfl
theorem exec_unitProgramDone (u : Nat) (ok : Bool) : exec (.unitProgramDone u ok) ⟨b, q⟩ = .next ⟨unitProgramDoneEff u ok b, q⟩ := rfl
theorem exec_cellarReadComplete (chan : Nat) (retries : Nat) (outcome : Nat) (bits : Nat) (pct : Nat) : exec (.cellarReadComplete chan retries outcome bits pct) ⟨b, q⟩ = .next ⟨cellarReadCompleteEff chan retries outcome bits pct b, q⟩ := rfl
theorem exec_relocationStart (chan : Nat) (l : Nat) : exec (.relocationStart chan l) ⟨b, q⟩ = .next ⟨relocationStartEff chan l b, q⟩ := rfl
theorem exec_relocationSwitch (chan : Nat) (l : Nat) (ok : Bool) : exec (.relocationSwitch chan l ok) ⟨b, q⟩ = .next ⟨relocationSwitchEff chan l ok b, q⟩ := rfl
theorem exec_blockErase (chan : Nat) (p : Nat) (ok : Bool) : exec (.blockErase chan p ok) ⟨b, q⟩ = .next ⟨blockEraseEff chan p ok b, q⟩ := rfl
theorem exec_cellarThermalSample (k : Nat) (temp : Nat) : exec (.cellarThermalSample k temp) ⟨b, q⟩ = .next ⟨cellarThermalSampleEff k temp b, q⟩ := rfl
theorem exec_cellarMounted (k : Nat) (chans : Nat) (ms : Nat) : exec (.cellarMounted k chans ms) ⟨b, q⟩ = .next ⟨cellarMountedEff k chans ms b, q⟩ := rfl
theorem exec_readCountSave (k : Nat) : exec (.readCountSave k) ⟨b, q⟩ = .next ⟨readCountSaveEff k b, q⟩ := rfl
theorem exec_cellarCcDark (k : Nat) (chan : Nat) : exec (.cellarCcDark k chan) ⟨b, q⟩ = .next ⟨cellarCcDarkEff k chan b, q⟩ := rfl
theorem exec_imageQuery (fn : Nat) (value : Nat) : exec (.imageQuery fn value) ⟨b, q⟩ = .next ⟨imageQueryEff fn value b, q⟩ := rfl
theorem exec_job (camp : Nat) (seq : Nat) : exec (.job camp seq) ⟨b, q⟩ = .next ⟨jobEff camp seq b, q⟩ := rfl
theorem exec_jobLaunch (camp : Nat) (seq : Nat) : exec (.jobLaunch camp seq) ⟨b, q⟩ = .next ⟨jobLaunchEff camp seq b, q⟩ := rfl
theorem exec_jobStart (camp : Nat) (seq : Nat) : exec (.jobStart camp seq) ⟨b, q⟩ = .next ⟨jobStartEff camp seq b, q⟩ := rfl
theorem exec_jobComplete (camp : Nat) (seq : Nat) : exec (.jobComplete camp seq) ⟨b, q⟩ = .next ⟨jobCompleteEff camp seq b, q⟩ := rfl
theorem exec_watchdog (camp : Nat) (seq : Nat) : exec (.watchdog camp seq) ⟨b, q⟩ = .next ⟨watchdogEff camp seq b, q⟩ := rfl
theorem exec_regfileParity (t : Nat) : exec (.regfileParity t) ⟨b, q⟩ = .next ⟨regfileParityEff t b, q⟩ := rfl
theorem exec_loadReturn (id : Nat) : exec (.loadReturn id) ⟨b, q⟩ = .next ⟨loadReturnEff id b, q⟩ := rfl
theorem exec_writeAck (id : Nat) : exec (.writeAck id) ⟨b, q⟩ = .next ⟨writeAckEff id b, q⟩ := rfl
theorem exec_alu (t : Nat) : exec (.alu t) ⟨b, q⟩ = .next ⟨aluEff t b, q⟩ := rfl
theorem exec_addi (t : Nat) : exec (.addi t) ⟨b, q⟩ = .next ⟨addiEff t b, q⟩ := rfl
theorem exec_andi (t : Nat) : exec (.andi t) ⟨b, q⟩ = .next ⟨andiEff t b, q⟩ := rfl
theorem exec_ori (t : Nat) : exec (.ori t) ⟨b, q⟩ = .next ⟨oriEff t b, q⟩ := rfl
theorem exec_xori (t : Nat) : exec (.xori t) ⟨b, q⟩ = .next ⟨xoriEff t b, q⟩ := rfl
theorem exec_shi (t : Nat) : exec (.shi t) ⟨b, q⟩ = .next ⟨shiEff t b, q⟩ := rfl
theorem exec_liq (t : Nat) : exec (.liq t) ⟨b, q⟩ = .next ⟨liqEff t b, q⟩ := rfl
theorem exec_cmp (t : Nat) : exec (.cmp t) ⟨b, q⟩ = .next ⟨cmpEff t b, q⟩ := rfl
theorem exec_fpu (t : Nat) : exec (.fpu t) ⟨b, q⟩ = .next ⟨fpuEff t b, q⟩ := rfl
theorem exec_plog (t : Nat) : exec (.plog t) ⟨b, q⟩ = .next ⟨plogEff t b, q⟩ := rfl
theorem exec_ld (t : Nat) : exec (.ld t) ⟨b, q⟩ = .next ⟨ldEff t b, q⟩ := rfl
theorem exec_st (t : Nat) : exec (.st t) ⟨b, q⟩ = .next ⟨stEff t b, q⟩ := rfl
theorem exec_vld (t : Nat) : exec (.vld t) ⟨b, q⟩ = .next ⟨vldEff t b, q⟩ := rfl
theorem exec_vst (t : Nat) : exec (.vst t) ⟨b, q⟩ = .next ⟨vstEff t b, q⟩ := rfl
theorem exec_vlds (t : Nat) : exec (.vlds t) ⟨b, q⟩ = .next ⟨vldsEff t b, q⟩ := rfl
theorem exec_vsts (t : Nat) : exec (.vsts t) ⟨b, q⟩ = .next ⟨vstsEff t b, q⟩ := rfl
theorem exec_atom (t : Nat) : exec (.atom t) ⟨b, q⟩ = .next ⟨atomEff t b, q⟩ := rfl
theorem exec_madd (t : Nat) : exec (.madd t) ⟨b, q⟩ = .next ⟨maddEff t b, q⟩ := rfl
theorem exec_br (t : Nat) : exec (.br t) ⟨b, q⟩ = .next ⟨brEff t b, q⟩ := rfl
theorem exec_call (t : Nat) : exec (.call t) ⟨b, q⟩ = .next ⟨callEff t b, q⟩ := rfl
theorem exec_jr (t : Nat) : exec (.jr t) ⟨b, q⟩ = .next ⟨jrEff t b, q⟩ := rfl
theorem exec_vop (t : Nat) : exec (.vop t) ⟨b, q⟩ = .next ⟨vopEff t b, q⟩ := rfl
theorem exec_vops (t : Nat) : exec (.vops t) ⟨b, q⟩ = .next ⟨vopsEff t b, q⟩ := rfl
theorem exec_vred (t : Nat) : exec (.vred t) ⟨b, q⟩ = .next ⟨vredEff t b, q⟩ := rfl
theorem exec_vcmp (t : Nat) : exec (.vcmp t) ⟨b, q⟩ = .next ⟨vcmpEff t b, q⟩ := rfl
theorem exec_smup (t : Nat) : exec (.smup t) ⟨b, q⟩ = .next ⟨smupEff t b, q⟩ := rfl
theorem exec_vaddm (t : Nat) : exec (.vaddm t) ⟨b, q⟩ = .next ⟨vaddmEff t b, q⟩ := rfl
theorem exec_setvl (t : Nat) : exec (.setvl t) ⟨b, q⟩ = .next ⟨setvlEff t b, q⟩ := rfl
theorem exec_rationReq (t : Nat) : exec (.rationReq t) ⟨b, q⟩ = .next ⟨rationReqEff t b, q⟩ := rfl
theorem exec_rationRel (t : Nat) : exec (.rationRel t) ⟨b, q⟩ = .next ⟨rationRelEff t b, q⟩ := rfl
theorem exec_fence (t : Nat) : exec (.fence t) ⟨b, q⟩ = .next ⟨fenceEff t b, q⟩ := rfl
theorem exec_arrPut (t : Nat) : exec (.arrPut t) ⟨b, q⟩ = .next ⟨arrPutEff t b, q⟩ := rfl
theorem exec_arrRun (t : Nat) : exec (.arrRun t) ⟨b, q⟩ = .next ⟨arrRunEff t b, q⟩ := rfl
theorem exec_arrAbort (t : Nat) : exec (.arrAbort t) ⟨b, q⟩ = .next ⟨arrAbortEff t b, q⟩ := rfl
theorem exec_arrStat (t : Nat) : exec (.arrStat t) ⟨b, q⟩ = .next ⟨arrStatEff t b, q⟩ := rfl
theorem exec_arrWait (t : Nat) : exec (.arrWait t) ⟨b, q⟩ = .next ⟨arrWaitEff t b, q⟩ := rfl
theorem exec_csrr (t : Nat) : exec (.csrr t) ⟨b, q⟩ = .next ⟨csrrEff t b, q⟩ := rfl
theorem exec_csrw (t : Nat) : exec (.csrw t) ⟨b, q⟩ = .next ⟨csrwEff t b, q⟩ := rfl
theorem exec_tbar (t : Nat) : exec (.tbar t) ⟨b, q⟩ = .next ⟨tbarEff t b, q⟩ := rfl
theorem exec_yield (t : Nat) : exec (.yield t) ⟨b, q⟩ = .next ⟨yieldEff t b, q⟩ := rfl
theorem exec_pchk (t : Nat) : exec (.pchk t) ⟨b, q⟩ = .next ⟨pchkEff t b, q⟩ := rfl
theorem exec_endCmd (t : Nat) : exec (.endCmd t) ⟨b, q⟩ = .next ⟨endCmdEff t b, q⟩ := rfl
theorem exec_loadTile (f : Nat) (n : Nat) : exec (.loadTile f n) ⟨b, q⟩ = .next ⟨loadTileEff f n b, q⟩ := rfl
theorem exec_swap (f : Nat) (n : Nat) : exec (.swap f n) ⟨b, q⟩ = .next ⟨swapEff f n b, q⟩ := rfl
theorem exec_stream (f : Nat) (n : Nat) : exec (.stream f n) ⟨b, q⟩ = .next ⟨streamEff f n b, q⟩ := rfl
theorem exec_drain (f : Nat) (n : Nat) : exec (.drain f n) ⟨b, q⟩ = .next ⟨drainEff f n b, q⟩ := rfl
theorem exec_chain (f : Nat) (n : Nat) : exec (.chain f n) ⟨b, q⟩ = .next ⟨chainEff f n b, q⟩ := rfl
theorem exec_arrayEnd (f : Nat) (n : Nat) : exec (.arrayEnd f n) ⟨b, q⟩ = .next ⟨arrayEndEff f n b, q⟩ := rfl
theorem exec_arrayNop (f : Nat) (n : Nat) : exec (.arrayNop f n) ⟨b, q⟩ = .next ⟨arrayNopEff f n b, q⟩ := rfl
theorem exec_shiftComplete (f : Nat) (n : Nat) : exec (.shiftComplete f n) ⟨b, q⟩ = .next ⟨shiftCompleteEff f n b, q⟩ := rfl
theorem exec_abortComplete (f : Nat) (n : Nat) : exec (.abortComplete f n) ⟨b, q⟩ = .next ⟨abortCompleteEff f n b, q⟩ := rfl
theorem exec_arrayStall (f : Nat) (n : Nat) : exec (.arrayStall f n) ⟨b, q⟩ = .next ⟨arrayStallEff f n b, q⟩ := rfl
theorem exec_dmaElementDone (f : Nat) (slot : Nat) (w : DmaWork) : exec (.dmaElementDone f slot w) ⟨b, q⟩ = .next ⟨dmaElementDoneEff f slot w b, q⟩ := rfl
theorem exec_pageWalk (f : Nat) (slot : Nat) (pair : Nat) (first : Nat) (last : Nat) (core : Nat) (off : Nat) : exec (.pageWalk f slot pair first last core off) ⟨b, q⟩ = .next ⟨pageWalkEff f slot pair first last core off b, q⟩ := rfl
theorem exec_pageQuery (fn : Nat) (word : Nat) (value : Nat) : exec (.pageQuery fn word value) ⟨b, q⟩ = .next ⟨pageQueryEff fn word value b, q⟩ := rfl
theorem exec_partialArrive (c : Nat) (slot : Nat) (pair : Nat) (pos : Nat) (src : Nat) (lvl : Nat) (idx : Nat) : exec (.partialArrive c slot pair pos src lvl idx) ⟨b, q⟩ = .next ⟨partialArriveEff c slot pair pos src lvl idx b, q⟩ := rfl
theorem exec_ringPiece (c : Nat) (f : Nat) (slot : Nat) (layer : Nat) (row : Nat) (src : Nat) (pages : List RingPage) : exec (.ringPiece c f slot layer row src pages) ⟨b, q⟩ = .next ⟨ringPieceEff c f slot layer row src pages b, q⟩ := rfl
theorem exec_sampleRow (c : Nat) (f : Nat) (slot : Nat) (pos : Nat) (logits : List Nat) (poison : Bool) : exec (.sampleRow c f slot pos logits poison) ⟨b, q⟩ = .next ⟨sampleRowEff c f slot pos logits poison b, q⟩ := rfl
theorem exec_mergeRecord (c : Nat) (slot : Nat) (pos : Nat) (pass : Nat) (lvl : Nat) (idx : Nat) : exec (.mergeRecord c slot pos pass lvl idx) ⟨b, q⟩ = .next ⟨mergeRecordEff c slot pos pass lvl idx b, q⟩ := rfl
theorem exec_pass2Start (c : Nat) (slot : Nat) (pos : Nat) (f : Nat) : exec (.pass2Start c slot pos f) ⟨b, q⟩ = .next ⟨pass2StartEff c slot pos f b, q⟩ := rfl
theorem exec_generatorTest (fn : Nat) (off : Nat) (value : Nat) : exec (.generatorTest fn off value) ⟨b, q⟩ = .next ⟨generatorTestEff fn off value b, q⟩ := rfl
theorem exec_generate (camp : Nat) (seq : Nat) (tokens : List Nat) (readBad : Nat) : exec (.generate camp seq tokens readBad) ⟨b, q⟩ = .next ⟨generateEff camp seq tokens readBad b, q⟩ := rfl
theorem exec_forkGroup (camp : Nat) (seq : Nat) (tokens : List Nat) (readBad : Nat) : exec (.forkGroup camp seq tokens readBad) ⟨b, q⟩ = .next ⟨forkGroupEff camp seq tokens readBad b, q⟩ := rfl
theorem exec_score (camp : Nat) (seq : Nat) (tokens : List Nat) (readBad : Nat) : exec (.score camp seq tokens readBad) ⟨b, q⟩ = .next ⟨scoreEff camp seq tokens readBad b, q⟩ := rfl
theorem exec_cancel (camp : Nat) (seq : Nat) : exec (.cancel camp seq) ⟨b, q⟩ = .next ⟨cancelEff camp seq b, q⟩ := rfl
theorem exec_setPolicy (camp : Nat) (seq : Nat) : exec (.setPolicy camp seq) ⟨b, q⟩ = .next ⟨setPolicyEff camp seq b, q⟩ := rfl
theorem exec_fenceDescriptor (camp : Nat) (seq : Nat) : exec (.fenceDescriptor camp seq) ⟨b, q⟩ = .next ⟨fenceDescriptorEff camp seq b, q⟩ := rfl
theorem exec_stats (camp : Nat) (seq : Nat) : exec (.stats camp seq) ⟨b, q⟩ = .next ⟨statsEff camp seq b, q⟩ := rfl
theorem exec_slotQuery (fn : Nat) (value : Nat) : exec (.slotQuery fn value) ⟨b, q⟩ = .next ⟨slotQueryEff fn value b, q⟩ := rfl
theorem exec_phase (camp : Nat) (seq : Nat) (table : List Nat) (readBad : Nat) : exec (.phase camp seq table readBad) ⟨b, q⟩ = .next ⟨phaseEff camp seq table readBad b, q⟩ := rfl
theorem exec_phaseDrainLimit (c : Nat) : exec (.phaseDrainLimit c) ⟨b, q⟩ = .next ⟨phaseDrainLimitEff c b, q⟩ := rfl
theorem exec_refresh (camp : Nat) (seq : Nat) (covered : Bool) : exec (.refresh camp seq covered) ⟨b, q⟩ = .next ⟨refreshEff camp seq covered b, q⟩ := rfl
theorem exec_refreshComplete (camp : Nat) (seq : Nat) (own : List RefreshTile) (scales : List RefreshScale) (gathered : List GatheredTile) (failure : Option RefreshFail) : exec (.refreshComplete camp seq own scales gathered failure) ⟨b, q⟩ = .next ⟨refreshCompleteEff camp seq own scales gathered failure b, q⟩ := rfl
theorem exec_loadModel (camp : Nat) (seq : Nat) (m : ModelSpec) : exec (.loadModel camp seq m) ⟨b, q⟩ = .next ⟨loadModelEff camp seq m b, q⟩ := rfl
theorem exec_unloadModel (camp : Nat) (seq : Nat) : exec (.unloadModel camp seq) ⟨b, q⟩ = .next ⟨unloadModelEff camp seq b, q⟩ := rfl
theorem exec_copy (camp : Nat) (seq : Nat) : exec (.copy camp seq) ⟨b, q⟩ = .next ⟨copyEff camp seq b, q⟩ := rfl
theorem exec_hostLinkUp (p : Nat) (speed : Nat) (width : Nat) (flit : Bool) : exec (.hostLinkUp p speed width flit) ⟨b, q⟩ = .next ⟨hostLinkUpEff p speed width flit b, q⟩ := rfl
theorem exec_hostLinkDown (p : Nat) (ltssm : Nat) : exec (.hostLinkDown p ltssm) ⟨b, q⟩ = .next ⟨hostLinkDownEff p ltssm b, q⟩ := rfl
theorem exec_functionLevelReset (fn : Nat) : exec (.functionLevelReset fn) ⟨b, q⟩ = .next ⟨functionLevelResetEff fn b, q⟩ := rfl
theorem exec_vfEnableClear (p : Nat) : exec (.vfEnableClear p) ⟨b, q⟩ = .next ⟨vfEnableClearEff p b, q⟩ := rfl
theorem exec_hotReset (p : Nat) (disable : Bool) : exec (.hotReset p disable) ⟨b, q⟩ = .next ⟨hotResetEff p disable b, q⟩ := rfl
theorem exec_hostReadCompletion (w : HostRead) (status : Nat) (addr : Nat) (data : Nat) : exec (.hostReadCompletion w status addr data) ⟨b, q⟩ = .next ⟨hostReadCompletionEff w status addr data b, q⟩ := rfl
theorem exec_hostReadTimeout (w : HostRead) (addr : Nat) : exec (.hostReadTimeout w addr) ⟨b, q⟩ = .next ⟨hostReadTimeoutEff w addr b, q⟩ := rfl
theorem exec_barWritePoisoned (fn : Nat) : exec (.barWritePoisoned fn) ⟨b, q⟩ = .next ⟨barWritePoisonedEff fn b, q⟩ := rfl
theorem exec_msixHoldoff (fn : Nat) (v : Nat) : exec (.msixHoldoff fn v) ⟨b, q⟩ = .next ⟨msixHoldoffEff fn v b, q⟩ := rfl
theorem exec_msixUnmask (fn : Nat) (v : Nat) : exec (.msixUnmask fn v) ⟨b, q⟩ = .next ⟨msixUnmaskEff fn v b, q⟩ := rfl
theorem exec_ideCheckFail (p : Nat) (strm : Nat) : exec (.ideCheckFail p strm) ⟨b, q⟩ = .next ⟨ideCheckFailEff p strm b, q⟩ := rfl
theorem exec_doorbell (fn : Nat) (off : Nat) (idx : Nat) (covers : Bool) : exec (.doorbell fn off idx covers) ⟨b, q⟩ = .next ⟨doorbellEff fn off idx covers b, q⟩ := rfl
theorem exec_ringEnable (fn : Nat) (k : Nat) (value : Nat) : exec (.ringEnable fn k value) ⟨b, q⟩ = .next ⟨ringEnableEff fn k value b, q⟩ := rfl
theorem exec_ringDisable (fn : Nat) (k : Nat) (value : Nat) : exec (.ringDisable fn k value) ⟨b, q⟩ = .next ⟨ringDisableEff fn k value b, q⟩ := rfl
theorem exec_descriptorFetch (fn : Nat) (i : Nat) (raw : Nat) : exec (.descriptorFetch fn i raw) ⟨b, q⟩ = .next ⟨descriptorFetchEff fn i raw b, q⟩ := rfl
theorem exec_recordWrite (fn : Nat) (i : Nat) : exec (.recordWrite fn i) ⟨b, q⟩ = .next ⟨recordWriteEff fn i b, q⟩ := rfl
theorem exec_ygLaneRequest (p : Nat) : exec (.ygLaneRequest p) ⟨b, q⟩ = .next ⟨ygLaneRequestEff p b, q⟩ := rfl
theorem exec_ygPortUp (p : Nat) (peer : Nat) (peerPort : Nat) (shape : Nat) (delay : Nat) (eye : Nat) (lane : Nat) (hits : Nat) : exec (.ygPortUp p peer peerPort shape delay eye lane hits) ⟨b, q⟩ = .next ⟨ygPortUpEff p peer peerPort shape delay eye lane hits b, q⟩ := rfl
theorem exec_ygTrainRetry (p : Nat) : exec (.ygTrainRetry p) ⟨b, q⟩ = .next ⟨ygTrainRetryEff p b, q⟩ := rfl
theorem exec_ygRetrain (p : Nat) (cause : Nat) (lane : Nat) : exec (.ygRetrain p cause lane) ⟨b, q⟩ = .next ⟨ygRetrainEff p cause lane b, q⟩ := rfl
theorem exec_ygPortHeld (p : Nat) : exec (.ygPortHeld p) ⟨b, q⟩ = .next ⟨ygPortHeldEff p b, q⟩ := rfl
theorem exec_ygHoldEnd (p : Nat) : exec (.ygHoldEnd p) ⟨b, q⟩ = .next ⟨ygHoldEndEff p b, q⟩ := rfl
theorem exec_codewordReceive (p : Nat) (seq : Nat) (replay : Bool) (good : Bool) (corrected : List Nat) (flits : List Nat) : exec (.codewordReceive p seq replay good corrected flits) ⟨b, q⟩ = .next ⟨codewordReceiveEff p seq replay good corrected flits b, q⟩ := rfl
theorem exec_linkFlit (p : Nat) (room : Bool) : exec (.linkFlit p room) ⟨b, q⟩ = .next ⟨linkFlitEff p room b, q⟩ := rfl
theorem exec_yilgilPacket (p : Nat) (msg : YgMsg) (room : Bool) : exec (.yilgilPacket p msg room) ⟨b, q⟩ = .next ⟨yilgilPacketEff p msg room b, q⟩ := rfl
theorem exec_domainTimeMessage (root : Nat) (offset : Int) : exec (.domainTimeMessage root offset) ⟨b, q⟩ = .next ⟨domainTimeMessageEff root offset b, q⟩ := rfl
theorem exec_domainUnlocked : exec .domainUnlocked ⟨b, q⟩ = .next ⟨domainUnlockedEff b, q⟩ := rfl
theorem exec_collQueueEntry (c : Nat) (f : Nat) : exec (.collQueueEntry c f) ⟨b, q⟩ = .next ⟨collQueueEntryEff c f b, q⟩ := rfl
theorem exec_collPartComplete (part : Nat) (slot : Nat) (failed : Nat) (others : List CollSource) (data : CollData) : exec (.collPartComplete part slot failed others data) ⟨b, q⟩ = .next ⟨collPartCompleteEff part slot failed others data b, q⟩ := rfl
theorem exec_collLate (part : Nat) (rank : Nat) (field : Nat) : exec (.collLate part rank field) ⟨b, q⟩ = .next ⟨collLateEff part rank field b, q⟩ := rfl
theorem exec_collAbortMessage (c : Nat) (id : Nat) (f : Nat) (rank : Nat) (field : Nat) (sender : Nat) : exec (.collAbortMessage c id f rank field sender) ⟨b, q⟩ = .next ⟨collAbortMessageEff c id f rank field sender b, q⟩ := rfl
theorem exec_collSettle (c : Nat) (id : Nat) : exec (.collSettle c id) ⟨b, q⟩ = .next ⟨collSettleEff c id b, q⟩ := rfl
theorem exec_consentCopy (mc : Bool) (fn : Nat) : exec (.consentCopy mc fn) ⟨b, q⟩ = .next ⟨consentCopyEff mc fn b, q⟩ := rfl
theorem exec_writeStage (mc : Bool) (fn : Nat) (off : Nat) (data : List Nat) : exec (.writeStage mc fn off data) ⟨b, q⟩ = .next ⟨writeStageEff mc fn off data b, q⟩ := rfl
theorem exec_propose (mc : Bool) (fn : Nat) : exec (.propose mc fn) ⟨b, q⟩ = .next ⟨proposeEff mc fn b, q⟩ := rfl
theorem exec_countersign (mc : Bool) (fn : Nat) (data : List Nat) : exec (.countersign mc fn data) ⟨b, q⟩ = .next ⟨countersignEff mc fn data b, q⟩ := rfl
theorem exec_consentAbort (mc : Bool) (fn : Nat) : exec (.consentAbort mc fn) ⟨b, q⟩ = .next ⟨consentAbortEff mc fn b, q⟩ := rfl
theorem exec_getStatus : exec .getStatus ⟨b, q⟩ = .next ⟨getStatusEff b, q⟩ := rfl
theorem exec_readImage (image : Nat) (off : Nat) (len : Nat) : exec (.readImage image off len) ⟨b, q⟩ = .next ⟨readImageEff image off len b, q⟩ := rfl
theorem exec_consentWindowExpiry : exec .consentWindowExpiry ⟨b, q⟩ = .next ⟨consentWindowExpiryEff b, q⟩ := rfl
theorem exec_consentApply (storeOk : Bool) : exec (.consentApply storeOk) ⟨b, q⟩ = .next ⟨consentApplyEff storeOk b, q⟩ := rfl
theorem exec_campResetCmd (fn : Nat) (value : Nat) : exec (.campResetCmd fn value) ⟨b, q⟩ = .next ⟨campResetCmdEff fn value b, q⟩ := rfl
theorem exec_campResetDone (c : Nat) : exec (.campResetDone c) ⟨b, q⟩ = .next ⟨campResetDoneEff c b, q⟩ := rfl
theorem exec_campResetStuck (c : Nat) : exec (.campResetStuck c) ⟨b, q⟩ = .next ⟨campResetStuckEff c b, q⟩ := rfl
theorem exec_mctpControl (typ : Nat) (cmd : Nat) (arg : Nat) : exec (.mctpControl typ cmd arg) ⟨b, q⟩ = .next ⟨mctpControlEff typ cmd arg b, q⟩ := rfl
theorem exec_pldmGetSensor (kind : Nat) (f : Nat) : exec (.pldmGetSensor kind f) ⟨b, q⟩ = .next ⟨pldmGetSensorEff kind f b, q⟩ := rfl
theorem exec_pldmSetWaferCap (value : Nat) : exec (.pldmSetWaferCap value) ⟨b, q⟩ = .next ⟨pldmSetWaferCapEff value b, q⟩ := rfl
theorem exec_pldmFirmwareUpdate (signed : Bool) (svn : Nat) : exec (.pldmFirmwareUpdate signed svn) ⟨b, q⟩ = .next ⟨pldmFirmwareUpdateEff signed svn b, q⟩ := rfl
theorem exec_pldmPowerOff : exec .pldmPowerOff ⟨b, q⟩ = .next ⟨pldmPowerOffEff b, q⟩ := rfl
theorem exec_pldmPowerCycle (vcore : Nat) : exec (.pldmPowerCycle vcore) ⟨b, q⟩ = .next ⟨pldmPowerCycleEff vcore b, q⟩ := rfl
theorem exec_pldmWaferReset : exec .pldmWaferReset ⟨b, q⟩ = .next ⟨pldmWaferResetEff b, q⟩ := rfl
theorem exec_getDigests (doe : Bool) : exec (.getDigests doe) ⟨b, q⟩ = .next ⟨getDigestsEff doe b, q⟩ := rfl
theorem exec_getCertificate (doe : Bool) (off : Nat) (len : Nat) : exec (.getCertificate doe off len) ⟨b, q⟩ = .next ⟨getCertificateEff doe off len b, q⟩ := rfl
theorem exec_challenge (doe : Bool) : exec (.challenge doe) ⟨b, q⟩ = .next ⟨challengeEff doe b, q⟩ := rfl
theorem exec_getMeasurements (doe : Bool) (index : Nat) : exec (.getMeasurements doe index) ⟨b, q⟩ = .next ⟨getMeasurementsEff doe index b, q⟩ := rfl
theorem exec_keyExchange (doe : Bool) (port : Nat) : exec (.keyExchange doe port) ⟨b, q⟩ = .next ⟨keyExchangeEff doe port b, q⟩ := rfl
theorem exec_finish (doe : Bool) (port : Nat) : exec (.finish doe port) ⟨b, q⟩ = .next ⟨finishEff doe port b, q⟩ := rfl
theorem exec_powerOn (vin : Nat) (iin : Nat) (pin : Nat) (aux : Nat) (vcore : Nat) : exec (.powerOn vin iin pin aux vcore) ⟨b, q⟩ = .next ⟨powerOnEff vin iin pin aux vcore b, q⟩ := rfl
theorem exec_inputUndervolt (vin : Nat) : exec (.inputUndervolt vin) ⟨b, q⟩ = .next ⟨inputUndervoltEff vin b, q⟩ := rfl
theorem exec_inputRecover (vin : Nat) : exec (.inputRecover vin) ⟨b, q⟩ = .next ⟨inputRecoverEff vin b, q⟩ := rfl
theorem exec_undervoltPowerOff (vin : Nat) : exec (.undervoltPowerOff vin) ⟨b, q⟩ = .next ⟨undervoltPowerOffEff vin b, q⟩ := rfl
theorem exec_shuntCatch (watts : Nat) : exec (.shuntCatch watts) ⟨b, q⟩ = .next ⟨shuntCatchEff watts b, q⟩ := rfl
theorem exec_powerOver (watts : Nat) (iin : Nat) (slew : Nat) : exec (.powerOver watts iin slew) ⟨b, q⟩ = .next ⟨powerOverEff watts iin slew b, q⟩ := rfl
theorem exec_coolantSample (inlet : Nat) (outlet : Nat) (flow : Nat) : exec (.coolantSample inlet outlet flow) ⟨b, q⟩ = .next ⟨coolantSampleEff inlet outlet flow b, q⟩ := rfl
theorem exec_logicThermalSample (temps : List Nat) : exec (.logicThermalSample temps) ⟨b, q⟩ = .next ⟨logicThermalSampleEff temps b, q⟩ := rfl
theorem exec_logicThrottleStep : exec .logicThrottleStep ⟨b, q⟩ = .next ⟨logicThrottleStepEff b, q⟩ := rfl
theorem exec_logicSensorsSilent (f : Nat) : exec (.logicSensorsSilent f) ⟨b, q⟩ = .next ⟨logicSensorsSilentEff f b, q⟩ := rfl
theorem exec_perstAssert (p : Nat) : exec (.perstAssert p) ⟨b, q⟩ = .next ⟨perstAssertEff p b, q⟩ := rfl
theorem exec_perstDeassert (p : Nat) : exec (.perstDeassert p) ⟨b, q⟩ = .next ⟨perstDeassertEff p b, q⟩ := rfl
theorem exec_perstStuck (p : Nat) : exec (.perstStuck p) ⟨b, q⟩ = .next ⟨perstStuckEff p b, q⟩ := rfl
theorem exec_forceThrottleAssert : exec .forceThrottleAssert ⟨b, q⟩ = .next ⟨forceThrottleAssertEff b, q⟩ := rfl
theorem exec_forceThrottleDeassert : exec .forceThrottleDeassert ⟨b, q⟩ = .next ⟨forceThrottleDeassertEff b, q⟩ := rfl
theorem exec_forceThrottleHeld : exec .forceThrottleHeld ⟨b, q⟩ = .next ⟨forceThrottleHeldEff b, q⟩ := rfl
theorem exec_fieldStageFault (f : Nat) (rail : Nat) (watts : Nat) : exec (.fieldStageFault f rail watts) ⟨b, q⟩ = .next ⟨fieldStageFaultEff f rail watts b, q⟩ := rfl
theorem exec_resetCtrl (fn : Nat) (value : Nat) : exec (.resetCtrl fn value) ⟨b, q⟩ = .next ⟨resetCtrlEff fn value b, q⟩ := rfl
theorem exec_startupStageDone (w : StageWork) : exec (.startupStageDone w) ⟨b, q⟩ = .next ⟨startupStageDoneEff w b, q⟩ := rfl
theorem exec_bootContinue (fn : Nat) (value : Nat) (us : Nat) : exec (.bootContinue fn value us) ⟨b, q⟩ = .next ⟨bootContinueEff fn value us b, q⟩ := rfl
theorem exec_fwStopped : exec .fwStopped ⟨b, q⟩ = .next ⟨fwStoppedEff b, q⟩ := rfl
theorem exec_dbgWindowAccess (fn : Nat) (off : Nat) (len : Nat) (write : Bool) (data : Nat) : exec (.dbgWindowAccess fn off len write data) ⟨b, q⟩ = .next ⟨dbgWindowAccessEff fn off len write data b, q⟩ := rfl
theorem exec_dbgCaptureWrite (fn : Nat) (value : Nat) : exec (.dbgCaptureWrite fn value) ⟨b, q⟩ = .next ⟨dbgCaptureWriteEff fn value b, q⟩ := rfl
theorem exec_streamDone (f : Nat) (n : Nat) : exec (.streamDone f n) ⟨b, q⟩ = .next ⟨streamDoneEff f n b, q⟩ := rfl
theorem exec_drainDone (f : Nat) (n : Nat) : exec (.drainDone f n) ⟨b, q⟩ = .next ⟨drainDoneEff f n b, q⟩ := rfl
theorem exec_ygTrainingFailed (p : Nat) (cause : Nat) (found : Nat) : exec (.ygTrainingFailed p cause found) ⟨b, q⟩ = .next ⟨ygTrainingFailedEff p cause found b, q⟩ := rfl
theorem exec_configurationRequest (fn : Nat) (req : CfgReq) : exec (.configurationRequest fn req) ⟨b, q⟩ = .next ⟨configurationRequestEff fn req b, q⟩ := rfl
theorem exec_ideKm (p : Nat) (strm : Nat) (lo : Nat) (hi : Nat) : exec (.ideKm p strm lo hi) ⟨b, q⟩ = .next ⟨ideKmEff p strm lo hi b, q⟩ := rfl
theorem exec_hostLinkRecovery (p : Nat) (replays : Nat) (corr : Nat) : exec (.hostLinkRecovery p replays corr) ⟨b, q⟩ = .next ⟨hostLinkRecoveryEff p replays corr b, q⟩ := rfl
theorem exec_pldmEventFetch : exec .pldmEventFetch ⟨b, q⟩ = .next ⟨pldmEventFetchEff b, q⟩ := rfl
theorem exec_shuntTaperEnd : exec .shuntTaperEnd ⟨b, q⟩ = .next ⟨shuntTaperEndEff b, q⟩ := rfl
theorem exec_perstGlitch : exec .perstGlitch ⟨b, q⟩ = .next ⟨perstGlitchEff b, q⟩ := rfl
theorem exec_forceThrottleGlitch : exec .forceThrottleGlitch ⟨b, q⟩ = .next ⟨forceThrottleGlitchEff b, q⟩ := rfl

end Sys2Proof.Machine
end

