-- ==== Sys2Proof/Laws/Sparse.lean ====
section
/-! SUPPORT. The laws of sparse stores: a read after a write, on any store; and the canonical form that every write keeps. -/
namespace Sys2Proof.Machine

variable {α : Type} {d : Nat → α} {m : Sparse α} {k j lo : Nat} {v : α}

theorem sget_dropKey : sget d (m.filter fun x => x.1 != k) j = if j = k then d k else sget d m j := by
  induction m with
  | nil => by_cases h : j = k <;> simp [sget, h]
  | cons x r ih =>
    obtain ⟨a, w⟩ := x
    by_cases ha : a = k
    · subst ha
      by_cases hj : j = a
      · subst hj; simpa using ih
      · simp [ih, hj, sget]
    · by_cases hj : j = a
      · subst hj; simp [ha, sget]
      · simp [ha, sget, hj, ih]

theorem sget_sput (h : ∀ x ∈ m, x.1 ≠ k) : sget d (sput m k v) j = if j = k then v else sget d m j := by
  induction m with
  | nil => by_cases hj : j = k <;> simp [sput, sget, hj]
  | cons x r ih =>
    obtain ⟨a, w⟩ := x
    have hr : ∀ x ∈ r, x.1 ≠ k := fun x hx => h x (List.mem_cons_of_mem _ hx)
    have ha : a ≠ k := h (a, w) List.mem_cons_self
    by_cases h1 : k < a
    · by_cases hj : j = k <;> simp [sput, sget, h1, hj]
    · by_cases hj : j = a
      · subst hj; simp [sput, sget, h1, ha]
      · simp [sput, sget, h1, hj, ih hr]

theorem dropKey_ne : ∀ x ∈ m.filter (fun x => x.1 != k), x.1 ≠ k := fun x hx => by simpa using (List.mem_filter.mp hx).2

variable [DecidableEq α]

/-- A read after a write. -/
theorem sget_sset : sget d (sset d m k v) j = if j = k then v else sget d m j := by
  by_cases hv : v = d k
  · by_cases hj : j = k <;> simp [sset, hv, sget_dropKey, hj]
  · by_cases hj : j = k <;> simp [sset, hv, sget_sput dropKey_ne, sget_dropKey, hj]

@[simp] theorem sget_sset_self : sget d (sset d m k v) k = v := by simp [sget_sset]

theorem sget_sset_ne (h : j ≠ k) : sget d (sset d m k v) j = sget d m j := by simp [sget_sset, h]

/-- An update reads as the updated value. -/
theorem sget_supd {f : α → α} : sget d (supd d m k f) j = if j = k then f (sget d m k) else sget d m j := sget_sset

/-- The canonical form from a key holds from every lower key. -/
theorem sparseFrom_mono {lo hi : Nat} (h : sparseFrom d hi m = true) (hl : lo ≤ hi) : sparseFrom d lo m = true := by
  cases m with
  | nil => rfl
  | cons x r =>
    obtain ⟨k, v⟩ := x
    simp only [sparseFrom, Bool.and_eq_true, decide_eq_true_eq] at h ⊢
    exact ⟨⟨hl.trans h.1.1, h.1.2⟩, h.2⟩

/-- Leaving entries out keeps the canonical form. -/
theorem filter_sparseFrom (p : Nat × α → Bool) (h : sparseFrom d lo m = true) : sparseFrom d lo (m.filter p) = true := by
  induction m generalizing lo with
  | nil => rfl
  | cons x r ih =>
    obtain ⟨a, w⟩ := x
    simp only [sparseFrom, Bool.and_eq_true, decide_eq_true_eq] at h
    by_cases hp : p (a, w) = true
    · simp only [List.filter_cons, hp, if_true, sparseFrom, Bool.and_eq_true, decide_eq_true_eq]
      exact ⟨h.1, ih h.2⟩
    · simp only [List.filter_cons, hp]
      exact sparseFrom_mono (ih h.2) (h.1.1.trans (Nat.le_succ a))

theorem sput_sparseFrom (h : sparseFrom d lo m = true) (hk : lo ≤ k) (hv : v ≠ d k) (hm : ∀ x ∈ m, x.1 ≠ k) :
    sparseFrom d lo (sput m k v) = true := by
  induction m generalizing lo with
  | nil => simp [sput, sparseFrom, hk, hv]
  | cons x r ih =>
    obtain ⟨a, w⟩ := x
    have hr : ∀ x ∈ r, x.1 ≠ k := fun x hx => hm x (List.mem_cons_of_mem _ hx)
    have ha : a ≠ k := hm (a, w) List.mem_cons_self
    simp only [sparseFrom, Bool.and_eq_true, decide_eq_true_eq] at h
    by_cases h1 : k < a
    · simp only [sput, h1, if_true, sparseFrom, Bool.and_eq_true, decide_eq_true_eq]
      exact ⟨⟨hk, hv⟩, ⟨h1, h.1.2⟩, h.2⟩
    · have hak : a < k := lt_of_le_of_ne (not_lt.mp h1) ha
      simp only [sput, h1, if_false, sparseFrom, Bool.and_eq_true, decide_eq_true_eq]
      exact ⟨h.1, ih h.2 hak hr⟩

/-- A write keeps the canonical form. -/
theorem sset_wf (h : sparseWf d m = true) : sparseWf d (sset d m k v) = true := by
  by_cases hv : v = d k
  · simpa [sset, hv, sparseWf] using filter_sparseFrom _ h
  · simpa [sset, hv, sparseWf] using sput_sparseFrom (filter_sparseFrom _ h) (Nat.zero_le k) hv dropKey_ne

/-- An update keeps the canonical form. -/
theorem supd_wf {f : α → α} (h : sparseWf d m = true) : sparseWf d (supd d m k f) = true := sset_wf h

/-- The empty store is in canonical form. -/
@[simp] theorem sparseWf_nil : sparseWf d ([] : Sparse α) = true := rfl

end Sys2Proof.Machine
end

