-- ==== Sys2Proof/Laws/State.lean ====
section
/-! SUPPORT. What each update of the block leaves as it was, one lemma per field, and what it puts into its own part. -/
namespace Sys2Proof.Machine

variable (b : Block)

@[simp] theorem fset_force (f : Fld) (v : Nat) : (b.fset f v).force = b.force := rfl
@[simp] theorem fset_latch (f : Fld) (v : Nat) : (b.fset f v).latch = b.latch := rfl
@[simp] theorem fset_staged (f : Fld) (v : Nat) : (b.fset f v).staged = b.staged := rfl
@[simp] theorem fset_wafer (f : Fld) (v : Nat) : (b.fset f v).wafer = b.wafer := rfl
@[simp] theorem fset_fab (f : Fld) (v : Nat) : (b.fset f v).fab = b.fab := rfl
@[simp] theorem fset_host (f : Fld) (v : Nat) : (b.fset f v).host = b.host := rfl
@[simp] theorem fset_ring (f : Fld) (v : Nat) : (b.fset f v).ring = b.ring := rfl
@[simp] theorem fset_camp (f : Fld) (v : Nat) : (b.fset f v).camp = b.camp := rfl
@[simp] theorem fset_boot (f : Fld) (v : Nat) : (b.fset f v).boot = b.boot := rfl
@[simp] theorem fset_dbg (f : Fld) (v : Nat) : (b.fset f v).dbg = b.dbg := rfl
@[simp] theorem fset_out (f : Fld) (v : Nat) : (b.fset f v).out = b.out := rfl
@[simp] theorem fset_free (f : Fld) (v : Nat) : (b.fset f v).free = b.free := rfl
@[simp] theorem fset_rat (f : Fld) (v : Nat) : (b.fset f v).rat = b.rat := rfl
@[simp] theorem fset_modu (f : Fld) (v : Nat) : (b.fset f v).modu = b.modu := rfl
@[simp] theorem fset_tc (f : Fld) (v : Nat) : (b.fset f v).tc = b.tc := rfl
@[simp] theorem fset_arr (f : Fld) (v : Nat) : (b.fset f v).arr = b.arr := rfl
@[simp] theorem fset_att (f : Fld) (v : Nat) : (b.fset f v).att = b.att := rfl
@[simp] theorem fset_samp (f : Fld) (v : Nat) : (b.fset f v).samp = b.samp := rfl
@[simp] theorem fset_mem (f : Fld) (v : Nat) : (b.fset f v).mem = b.mem := rfl
@[simp] theorem fset_tier (f : Fld) (v : Nat) : (b.fset f v).tier = b.tier := rfl
@[simp] theorem fset_dram (f : Fld) (v : Nat) : (b.fset f v).dram = b.dram := rfl
@[simp] theorem fset_integ (f : Fld) (v : Nat) : (b.fset f v).integ = b.integ := rfl
@[simp] theorem fset_cellar (f : Fld) (v : Nat) : (b.fset f v).cellar = b.cellar := rfl
@[simp] theorem fset_page (f : Fld) (v : Nat) : (b.fset f v).page = b.page := rfl
@[simp] theorem fset_serve (f : Fld) (v : Nat) : (b.fset f v).serve = b.serve := rfl
@[simp] theorem fset_yg (f : Fld) (v : Nat) : (b.fset f v).yg = b.yg := rfl

@[simp] theorem count_force (f : Fld) (n : Nat) : (b.count f n).force = b.force := rfl
@[simp] theorem count_latch (f : Fld) (n : Nat) : (b.count f n).latch = b.latch := rfl
@[simp] theorem count_staged (f : Fld) (n : Nat) : (b.count f n).staged = b.staged := rfl
@[simp] theorem count_wafer (f : Fld) (n : Nat) : (b.count f n).wafer = b.wafer := rfl
@[simp] theorem count_fab (f : Fld) (n : Nat) : (b.count f n).fab = b.fab := rfl
@[simp] theorem count_host (f : Fld) (n : Nat) : (b.count f n).host = b.host := rfl
@[simp] theorem count_ring (f : Fld) (n : Nat) : (b.count f n).ring = b.ring := rfl
@[simp] theorem count_camp (f : Fld) (n : Nat) : (b.count f n).camp = b.camp := rfl
@[simp] theorem count_boot (f : Fld) (n : Nat) : (b.count f n).boot = b.boot := rfl
@[simp] theorem count_dbg (f : Fld) (n : Nat) : (b.count f n).dbg = b.dbg := rfl
@[simp] theorem count_out (f : Fld) (n : Nat) : (b.count f n).out = b.out := rfl
@[simp] theorem count_free (f : Fld) (n : Nat) : (b.count f n).free = b.free := rfl
@[simp] theorem count_rat (f : Fld) (n : Nat) : (b.count f n).rat = b.rat := rfl
@[simp] theorem count_modu (f : Fld) (n : Nat) : (b.count f n).modu = b.modu := rfl
@[simp] theorem count_tc (f : Fld) (n : Nat) : (b.count f n).tc = b.tc := rfl
@[simp] theorem count_arr (f : Fld) (n : Nat) : (b.count f n).arr = b.arr := rfl
@[simp] theorem count_att (f : Fld) (n : Nat) : (b.count f n).att = b.att := rfl
@[simp] theorem count_samp (f : Fld) (n : Nat) : (b.count f n).samp = b.samp := rfl
@[simp] theorem count_mem (f : Fld) (n : Nat) : (b.count f n).mem = b.mem := rfl
@[simp] theorem count_tier (f : Fld) (n : Nat) : (b.count f n).tier = b.tier := rfl
@[simp] theorem count_dram (f : Fld) (n : Nat) : (b.count f n).dram = b.dram := rfl
@[simp] theorem count_integ (f : Fld) (n : Nat) : (b.count f n).integ = b.integ := rfl
@[simp] theorem count_cellar (f : Fld) (n : Nat) : (b.count f n).cellar = b.cellar := rfl
@[simp] theorem count_page (f : Fld) (n : Nat) : (b.count f n).page = b.page := rfl
@[simp] theorem count_serve (f : Fld) (n : Nat) : (b.count f n).serve = b.serve := rfl
@[simp] theorem count_yg (f : Fld) (n : Nat) : (b.count f n).yg = b.yg := rfl

@[simp] theorem bump_force (f : Fld) : (b.bump f).force = b.force := rfl
@[simp] theorem bump_latch (f : Fld) : (b.bump f).latch = b.latch := rfl
@[simp] theorem bump_staged (f : Fld) : (b.bump f).staged = b.staged := rfl
@[simp] theorem bump_wafer (f : Fld) : (b.bump f).wafer = b.wafer := rfl
@[simp] theorem bump_fab (f : Fld) : (b.bump f).fab = b.fab := rfl
@[simp] theorem bump_host (f : Fld) : (b.bump f).host = b.host := rfl
@[simp] theorem bump_ring (f : Fld) : (b.bump f).ring = b.ring := rfl
@[simp] theorem bump_camp (f : Fld) : (b.bump f).camp = b.camp := rfl
@[simp] theorem bump_boot (f : Fld) : (b.bump f).boot = b.boot := rfl
@[simp] theorem bump_dbg (f : Fld) : (b.bump f).dbg = b.dbg := rfl
@[simp] theorem bump_out (f : Fld) : (b.bump f).out = b.out := rfl
@[simp] theorem bump_free (f : Fld) : (b.bump f).free = b.free := rfl
@[simp] theorem bump_rat (f : Fld) : (b.bump f).rat = b.rat := rfl
@[simp] theorem bump_modu (f : Fld) : (b.bump f).modu = b.modu := rfl
@[simp] theorem bump_tc (f : Fld) : (b.bump f).tc = b.tc := rfl
@[simp] theorem bump_arr (f : Fld) : (b.bump f).arr = b.arr := rfl
@[simp] theorem bump_att (f : Fld) : (b.bump f).att = b.att := rfl
@[simp] theorem bump_samp (f : Fld) : (b.bump f).samp = b.samp := rfl
@[simp] theorem bump_mem (f : Fld) : (b.bump f).mem = b.mem := rfl
@[simp] theorem bump_tier (f : Fld) : (b.bump f).tier = b.tier := rfl
@[simp] theorem bump_dram (f : Fld) : (b.bump f).dram = b.dram := rfl
@[simp] theorem bump_integ (f : Fld) : (b.bump f).integ = b.integ := rfl
@[simp] theorem bump_cellar (f : Fld) : (b.bump f).cellar = b.cellar := rfl
@[simp] theorem bump_page (f : Fld) : (b.bump f).page = b.page := rfl
@[simp] theorem bump_serve (f : Fld) : (b.bump f).serve = b.serve := rfl
@[simp] theorem bump_yg (f : Fld) : (b.bump f).yg = b.yg := rfl

@[simp] theorem peak_force (f : Fld) (v : Nat) : (b.peak f v).force = b.force := rfl
@[simp] theorem peak_latch (f : Fld) (v : Nat) : (b.peak f v).latch = b.latch := rfl
@[simp] theorem peak_staged (f : Fld) (v : Nat) : (b.peak f v).staged = b.staged := rfl
@[simp] theorem peak_wafer (f : Fld) (v : Nat) : (b.peak f v).wafer = b.wafer := rfl
@[simp] theorem peak_fab (f : Fld) (v : Nat) : (b.peak f v).fab = b.fab := rfl
@[simp] theorem peak_host (f : Fld) (v : Nat) : (b.peak f v).host = b.host := rfl
@[simp] theorem peak_ring (f : Fld) (v : Nat) : (b.peak f v).ring = b.ring := rfl
@[simp] theorem peak_camp (f : Fld) (v : Nat) : (b.peak f v).camp = b.camp := rfl
@[simp] theorem peak_boot (f : Fld) (v : Nat) : (b.peak f v).boot = b.boot := rfl
@[simp] theorem peak_dbg (f : Fld) (v : Nat) : (b.peak f v).dbg = b.dbg := rfl
@[simp] theorem peak_out (f : Fld) (v : Nat) : (b.peak f v).out = b.out := rfl
@[simp] theorem peak_free (f : Fld) (v : Nat) : (b.peak f v).free = b.free := rfl
@[simp] theorem peak_rat (f : Fld) (v : Nat) : (b.peak f v).rat = b.rat := rfl
@[simp] theorem peak_modu (f : Fld) (v : Nat) : (b.peak f v).modu = b.modu := rfl
@[simp] theorem peak_tc (f : Fld) (v : Nat) : (b.peak f v).tc = b.tc := rfl
@[simp] theorem peak_arr (f : Fld) (v : Nat) : (b.peak f v).arr = b.arr := rfl
@[simp] theorem peak_att (f : Fld) (v : Nat) : (b.peak f v).att = b.att := rfl
@[simp] theorem peak_samp (f : Fld) (v : Nat) : (b.peak f v).samp = b.samp := rfl
@[simp] theorem peak_mem (f : Fld) (v : Nat) : (b.peak f v).mem = b.mem := rfl
@[simp] theorem peak_tier (f : Fld) (v : Nat) : (b.peak f v).tier = b.tier := rfl
@[simp] theorem peak_dram (f : Fld) (v : Nat) : (b.peak f v).dram = b.dram := rfl
@[simp] theorem peak_integ (f : Fld) (v : Nat) : (b.peak f v).integ = b.integ := rfl
@[simp] theorem peak_cellar (f : Fld) (v : Nat) : (b.peak f v).cellar = b.cellar := rfl
@[simp] theorem peak_page (f : Fld) (v : Nat) : (b.peak f v).page = b.page := rfl
@[simp] theorem peak_serve (f : Fld) (v : Nat) : (b.peak f v).serve = b.serve := rfl
@[simp] theorem peak_yg (f : Fld) (v : Nat) : (b.peak f v).yg = b.yg := rfl

@[simp] theorem send_regs (o : Out) : (b.send o).regs = b.regs := rfl
@[simp] theorem send_force (o : Out) : (b.send o).force = b.force := rfl
@[simp] theorem send_latch (o : Out) : (b.send o).latch = b.latch := rfl
@[simp] theorem send_staged (o : Out) : (b.send o).staged = b.staged := rfl
@[simp] theorem send_wafer (o : Out) : (b.send o).wafer = b.wafer := rfl
@[simp] theorem send_fab (o : Out) : (b.send o).fab = b.fab := rfl
@[simp] theorem send_host (o : Out) : (b.send o).host = b.host := rfl
@[simp] theorem send_ring (o : Out) : (b.send o).ring = b.ring := rfl
@[simp] theorem send_camp (o : Out) : (b.send o).camp = b.camp := rfl
@[simp] theorem send_boot (o : Out) : (b.send o).boot = b.boot := rfl
@[simp] theorem send_dbg (o : Out) : (b.send o).dbg = b.dbg := rfl
@[simp] theorem send_free (o : Out) : (b.send o).free = b.free := rfl
@[simp] theorem send_rat (o : Out) : (b.send o).rat = b.rat := rfl
@[simp] theorem send_modu (o : Out) : (b.send o).modu = b.modu := rfl
@[simp] theorem send_tc (o : Out) : (b.send o).tc = b.tc := rfl
@[simp] theorem send_arr (o : Out) : (b.send o).arr = b.arr := rfl
@[simp] theorem send_att (o : Out) : (b.send o).att = b.att := rfl
@[simp] theorem send_samp (o : Out) : (b.send o).samp = b.samp := rfl
@[simp] theorem send_mem (o : Out) : (b.send o).mem = b.mem := rfl
@[simp] theorem send_tier (o : Out) : (b.send o).tier = b.tier := rfl
@[simp] theorem send_dram (o : Out) : (b.send o).dram = b.dram := rfl
@[simp] theorem send_integ (o : Out) : (b.send o).integ = b.integ := rfl
@[simp] theorem send_cellar (o : Out) : (b.send o).cellar = b.cellar := rfl
@[simp] theorem send_page (o : Out) : (b.send o).page = b.page := rfl
@[simp] theorem send_serve (o : Out) : (b.send o).serve = b.serve := rfl
@[simp] theorem send_yg (o : Out) : (b.send o).yg = b.yg := rfl

@[simp] theorem tick_regs : (b.tick).regs = b.regs := rfl
@[simp] theorem tick_force : (b.tick).force = b.force := rfl
@[simp] theorem tick_latch : (b.tick).latch = b.latch := rfl
@[simp] theorem tick_staged : (b.tick).staged = b.staged := rfl
@[simp] theorem tick_wafer : (b.tick).wafer = b.wafer := rfl
@[simp] theorem tick_fab : (b.tick).fab = b.fab := rfl
@[simp] theorem tick_host : (b.tick).host = b.host := rfl
@[simp] theorem tick_ring : (b.tick).ring = b.ring := rfl
@[simp] theorem tick_camp : (b.tick).camp = b.camp := rfl
@[simp] theorem tick_boot : (b.tick).boot = b.boot := rfl
@[simp] theorem tick_dbg : (b.tick).dbg = b.dbg := rfl
@[simp] theorem tick_out : (b.tick).out = b.out := rfl
@[simp] theorem tick_rat : (b.tick).rat = b.rat := rfl
@[simp] theorem tick_modu : (b.tick).modu = b.modu := rfl
@[simp] theorem tick_tc : (b.tick).tc = b.tc := rfl
@[simp] theorem tick_arr : (b.tick).arr = b.arr := rfl
@[simp] theorem tick_att : (b.tick).att = b.att := rfl
@[simp] theorem tick_samp : (b.tick).samp = b.samp := rfl
@[simp] theorem tick_mem : (b.tick).mem = b.mem := rfl
@[simp] theorem tick_tier : (b.tick).tier = b.tier := rfl
@[simp] theorem tick_dram : (b.tick).dram = b.dram := rfl
@[simp] theorem tick_integ : (b.tick).integ = b.integ := rfl
@[simp] theorem tick_cellar : (b.tick).cellar = b.cellar := rfl
@[simp] theorem tick_page : (b.tick).page = b.page := rfl
@[simp] theorem tick_serve : (b.tick).serve = b.serve := rfl
@[simp] theorem tick_yg : (b.tick).yg = b.yg := rfl

@[simp] theorem raise_force (code source camp payload : Nat) : (b.raise code source camp payload).force = b.force := rfl
@[simp] theorem raise_latch (code source camp payload : Nat) : (b.raise code source camp payload).latch = b.latch := rfl
@[simp] theorem raise_staged (code source camp payload : Nat) : (b.raise code source camp payload).staged = b.staged := rfl
@[simp] theorem raise_wafer (code source camp payload : Nat) : (b.raise code source camp payload).wafer = b.wafer := rfl
@[simp] theorem raise_fab (code source camp payload : Nat) : (b.raise code source camp payload).fab = b.fab := rfl
@[simp] theorem raise_host (code source camp payload : Nat) : (b.raise code source camp payload).host = b.host := rfl
@[simp] theorem raise_camp (code source camp payload : Nat) : (b.raise code source camp payload).camp = b.camp := rfl
@[simp] theorem raise_dbg (code source camp payload : Nat) : (b.raise code source camp payload).dbg = b.dbg := rfl
@[simp] theorem raise_out (code source camp payload : Nat) : (b.raise code source camp payload).out = b.out := rfl
@[simp] theorem raise_free (code source camp payload : Nat) : (b.raise code source camp payload).free = b.free := rfl
@[simp] theorem raise_rat (code source camp payload : Nat) : (b.raise code source camp payload).rat = b.rat := rfl
@[simp] theorem raise_modu (code source camp payload : Nat) : (b.raise code source camp payload).modu = b.modu := rfl
@[simp] theorem raise_tc (code source camp payload : Nat) : (b.raise code source camp payload).tc = b.tc := rfl
@[simp] theorem raise_arr (code source camp payload : Nat) : (b.raise code source camp payload).arr = b.arr := rfl
@[simp] theorem raise_att (code source camp payload : Nat) : (b.raise code source camp payload).att = b.att := rfl
@[simp] theorem raise_samp (code source camp payload : Nat) : (b.raise code source camp payload).samp = b.samp := rfl
@[simp] theorem raise_mem (code source camp payload : Nat) : (b.raise code source camp payload).mem = b.mem := rfl
@[simp] theorem raise_tier (code source camp payload : Nat) : (b.raise code source camp payload).tier = b.tier := rfl
@[simp] theorem raise_dram (code source camp payload : Nat) : (b.raise code source camp payload).dram = b.dram := rfl
@[simp] theorem raise_integ (code source camp payload : Nat) : (b.raise code source camp payload).integ = b.integ := rfl
@[simp] theorem raise_cellar (code source camp payload : Nat) : (b.raise code source camp payload).cellar = b.cellar := rfl
@[simp] theorem raise_page (code source camp payload : Nat) : (b.raise code source camp payload).page = b.page := rfl
@[simp] theorem raise_serve (code source camp payload : Nat) : (b.raise code source camp payload).serve = b.serve := rfl
@[simp] theorem raise_yg (code source camp payload : Nat) : (b.raise code source camp payload).yg = b.yg := rfl

@[simp] theorem record_regs (r : Rec) : (b.record r).regs = b.regs := rfl
@[simp] theorem record_force (r : Rec) : (b.record r).force = b.force := rfl
@[simp] theorem record_latch (r : Rec) : (b.record r).latch = b.latch := rfl
@[simp] theorem record_staged (r : Rec) : (b.record r).staged = b.staged := rfl
@[simp] theorem record_wafer (r : Rec) : (b.record r).wafer = b.wafer := rfl
@[simp] theorem record_fab (r : Rec) : (b.record r).fab = b.fab := rfl
@[simp] theorem record_host (r : Rec) : (b.record r).host = b.host := rfl
@[simp] theorem record_camp (r : Rec) : (b.record r).camp = b.camp := rfl
@[simp] theorem record_boot (r : Rec) : (b.record r).boot = b.boot := rfl
@[simp] theorem record_dbg (r : Rec) : (b.record r).dbg = b.dbg := rfl
@[simp] theorem record_out (r : Rec) : (b.record r).out = b.out := rfl
@[simp] theorem record_free (r : Rec) : (b.record r).free = b.free := rfl
@[simp] theorem record_rat (r : Rec) : (b.record r).rat = b.rat := rfl
@[simp] theorem record_modu (r : Rec) : (b.record r).modu = b.modu := rfl
@[simp] theorem record_tc (r : Rec) : (b.record r).tc = b.tc := rfl
@[simp] theorem record_arr (r : Rec) : (b.record r).arr = b.arr := rfl
@[simp] theorem record_att (r : Rec) : (b.record r).att = b.att := rfl
@[simp] theorem record_samp (r : Rec) : (b.record r).samp = b.samp := rfl
@[simp] theorem record_mem (r : Rec) : (b.record r).mem = b.mem := rfl
@[simp] theorem record_tier (r : Rec) : (b.record r).tier = b.tier := rfl
@[simp] theorem record_dram (r : Rec) : (b.record r).dram = b.dram := rfl
@[simp] theorem record_integ (r : Rec) : (b.record r).integ = b.integ := rfl
@[simp] theorem record_cellar (r : Rec) : (b.record r).cellar = b.cellar := rfl
@[simp] theorem record_page (r : Rec) : (b.record r).page = b.page := rfl
@[simp] theorem record_serve (r : Rec) : (b.record r).serve = b.serve := rfl
@[simp] theorem record_yg (r : Rec) : (b.record r).yg = b.yg := rfl

@[simp] theorem setDesk_regs (f : Nat) (d : Desk) : (b.setDesk f d).regs = b.regs := rfl
@[simp] theorem setDesk_force (f : Nat) (d : Desk) : (b.setDesk f d).force = b.force := rfl
@[simp] theorem setDesk_latch (f : Nat) (d : Desk) : (b.setDesk f d).latch = b.latch := rfl
@[simp] theorem setDesk_staged (f : Nat) (d : Desk) : (b.setDesk f d).staged = b.staged := rfl
@[simp] theorem setDesk_wafer (f : Nat) (d : Desk) : (b.setDesk f d).wafer = b.wafer := rfl
@[simp] theorem setDesk_fab (f : Nat) (d : Desk) : (b.setDesk f d).fab = b.fab := rfl
@[simp] theorem setDesk_host (f : Nat) (d : Desk) : (b.setDesk f d).host = b.host := rfl
@[simp] theorem setDesk_ring (f : Nat) (d : Desk) : (b.setDesk f d).ring = b.ring := rfl
@[simp] theorem setDesk_camp (f : Nat) (d : Desk) : (b.setDesk f d).camp = b.camp := rfl
@[simp] theorem setDesk_boot (f : Nat) (d : Desk) : (b.setDesk f d).boot = b.boot := rfl
@[simp] theorem setDesk_dbg (f : Nat) (d : Desk) : (b.setDesk f d).dbg = b.dbg := rfl
@[simp] theorem setDesk_out (f : Nat) (d : Desk) : (b.setDesk f d).out = b.out := rfl
@[simp] theorem setDesk_free (f : Nat) (d : Desk) : (b.setDesk f d).free = b.free := rfl
@[simp] theorem setDesk_modu (f : Nat) (d : Desk) : (b.setDesk f d).modu = b.modu := rfl
@[simp] theorem setDesk_tc (f : Nat) (d : Desk) : (b.setDesk f d).tc = b.tc := rfl
@[simp] theorem setDesk_arr (f : Nat) (d : Desk) : (b.setDesk f d).arr = b.arr := rfl
@[simp] theorem setDesk_att (f : Nat) (d : Desk) : (b.setDesk f d).att = b.att := rfl
@[simp] theorem setDesk_samp (f : Nat) (d : Desk) : (b.setDesk f d).samp = b.samp := rfl
@[simp] theorem setDesk_mem (f : Nat) (d : Desk) : (b.setDesk f d).mem = b.mem := rfl
@[simp] theorem setDesk_tier (f : Nat) (d : Desk) : (b.setDesk f d).tier = b.tier := rfl
@[simp] theorem setDesk_dram (f : Nat) (d : Desk) : (b.setDesk f d).dram = b.dram := rfl
@[simp] theorem setDesk_integ (f : Nat) (d : Desk) : (b.setDesk f d).integ = b.integ := rfl
@[simp] theorem setDesk_cellar (f : Nat) (d : Desk) : (b.setDesk f d).cellar = b.cellar := rfl
@[simp] theorem setDesk_page (f : Nat) (d : Desk) : (b.setDesk f d).page = b.page := rfl
@[simp] theorem setDesk_serve (f : Nat) (d : Desk) : (b.setDesk f d).serve = b.serve := rfl
@[simp] theorem setDesk_yg (f : Nat) (d : Desk) : (b.setDesk f d).yg = b.yg := rfl

@[simp] theorem setThread_regs (t : Nat) (x : ThreadSt) : (b.setThread t x).regs = b.regs := rfl
@[simp] theorem setThread_force (t : Nat) (x : ThreadSt) : (b.setThread t x).force = b.force := rfl
@[simp] theorem setThread_latch (t : Nat) (x : ThreadSt) : (b.setThread t x).latch = b.latch := rfl
@[simp] theorem setThread_staged (t : Nat) (x : ThreadSt) : (b.setThread t x).staged = b.staged := rfl
@[simp] theorem setThread_wafer (t : Nat) (x : ThreadSt) : (b.setThread t x).wafer = b.wafer := rfl
@[simp] theorem setThread_fab (t : Nat) (x : ThreadSt) : (b.setThread t x).fab = b.fab := rfl
@[simp] theorem setThread_host (t : Nat) (x : ThreadSt) : (b.setThread t x).host = b.host := rfl
@[simp] theorem setThread_ring (t : Nat) (x : ThreadSt) : (b.setThread t x).ring = b.ring := rfl
@[simp] theorem setThread_camp (t : Nat) (x : ThreadSt) : (b.setThread t x).camp = b.camp := rfl
@[simp] theorem setThread_boot (t : Nat) (x : ThreadSt) : (b.setThread t x).boot = b.boot := rfl
@[simp] theorem setThread_dbg (t : Nat) (x : ThreadSt) : (b.setThread t x).dbg = b.dbg := rfl
@[simp] theorem setThread_out (t : Nat) (x : ThreadSt) : (b.setThread t x).out = b.out := rfl
@[simp] theorem setThread_free (t : Nat) (x : ThreadSt) : (b.setThread t x).free = b.free := rfl
@[simp] theorem setThread_rat (t : Nat) (x : ThreadSt) : (b.setThread t x).rat = b.rat := rfl
@[simp] theorem setThread_modu (t : Nat) (x : ThreadSt) : (b.setThread t x).modu = b.modu := rfl
@[simp] theorem setThread_arr (t : Nat) (x : ThreadSt) : (b.setThread t x).arr = b.arr := rfl
@[simp] theorem setThread_att (t : Nat) (x : ThreadSt) : (b.setThread t x).att = b.att := rfl
@[simp] theorem setThread_samp (t : Nat) (x : ThreadSt) : (b.setThread t x).samp = b.samp := rfl
@[simp] theorem setThread_mem (t : Nat) (x : ThreadSt) : (b.setThread t x).mem = b.mem := rfl
@[simp] theorem setThread_tier (t : Nat) (x : ThreadSt) : (b.setThread t x).tier = b.tier := rfl
@[simp] theorem setThread_dram (t : Nat) (x : ThreadSt) : (b.setThread t x).dram = b.dram := rfl
@[simp] theorem setThread_integ (t : Nat) (x : ThreadSt) : (b.setThread t x).integ = b.integ := rfl
@[simp] theorem setThread_cellar (t : Nat) (x : ThreadSt) : (b.setThread t x).cellar = b.cellar := rfl
@[simp] theorem setThread_page (t : Nat) (x : ThreadSt) : (b.setThread t x).page = b.page := rfl
@[simp] theorem setThread_serve (t : Nat) (x : ThreadSt) : (b.setThread t x).serve = b.serve := rfl
@[simp] theorem setThread_yg (t : Nat) (x : ThreadSt) : (b.setThread t x).yg = b.yg := rfl

@[simp] theorem setCore_regs (f core : Nat) (x : CoreSt) : (b.setCore f core x).regs = b.regs := rfl
@[simp] theorem setCore_force (f core : Nat) (x : CoreSt) : (b.setCore f core x).force = b.force := rfl
@[simp] theorem setCore_latch (f core : Nat) (x : CoreSt) : (b.setCore f core x).latch = b.latch := rfl
@[simp] theorem setCore_staged (f core : Nat) (x : CoreSt) : (b.setCore f core x).staged = b.staged := rfl
@[simp] theorem setCore_wafer (f core : Nat) (x : CoreSt) : (b.setCore f core x).wafer = b.wafer := rfl
@[simp] theorem setCore_fab (f core : Nat) (x : CoreSt) : (b.setCore f core x).fab = b.fab := rfl
@[simp] theorem setCore_host (f core : Nat) (x : CoreSt) : (b.setCore f core x).host = b.host := rfl
@[simp] theorem setCore_ring (f core : Nat) (x : CoreSt) : (b.setCore f core x).ring = b.ring := rfl
@[simp] theorem setCore_camp (f core : Nat) (x : CoreSt) : (b.setCore f core x).camp = b.camp := rfl
@[simp] theorem setCore_boot (f core : Nat) (x : CoreSt) : (b.setCore f core x).boot = b.boot := rfl
@[simp] theorem setCore_dbg (f core : Nat) (x : CoreSt) : (b.setCore f core x).dbg = b.dbg := rfl
@[simp] theorem setCore_out (f core : Nat) (x : CoreSt) : (b.setCore f core x).out = b.out := rfl
@[simp] theorem setCore_free (f core : Nat) (x : CoreSt) : (b.setCore f core x).free = b.free := rfl
@[simp] theorem setCore_rat (f core : Nat) (x : CoreSt) : (b.setCore f core x).rat = b.rat := rfl
@[simp] theorem setCore_modu (f core : Nat) (x : CoreSt) : (b.setCore f core x).modu = b.modu := rfl
@[simp] theorem setCore_arr (f core : Nat) (x : CoreSt) : (b.setCore f core x).arr = b.arr := rfl
@[simp] theorem setCore_att (f core : Nat) (x : CoreSt) : (b.setCore f core x).att = b.att := rfl
@[simp] theorem setCore_samp (f core : Nat) (x : CoreSt) : (b.setCore f core x).samp = b.samp := rfl
@[simp] theorem setCore_mem (f core : Nat) (x : CoreSt) : (b.setCore f core x).mem = b.mem := rfl
@[simp] theorem setCore_tier (f core : Nat) (x : CoreSt) : (b.setCore f core x).tier = b.tier := rfl
@[simp] theorem setCore_dram (f core : Nat) (x : CoreSt) : (b.setCore f core x).dram = b.dram := rfl
@[simp] theorem setCore_integ (f core : Nat) (x : CoreSt) : (b.setCore f core x).integ = b.integ := rfl
@[simp] theorem setCore_cellar (f core : Nat) (x : CoreSt) : (b.setCore f core x).cellar = b.cellar := rfl
@[simp] theorem setCore_page (f core : Nat) (x : CoreSt) : (b.setCore f core x).page = b.page := rfl
@[simp] theorem setCore_serve (f core : Nat) (x : CoreSt) : (b.setCore f core x).serve = b.serve := rfl
@[simp] theorem setCore_yg (f core : Nat) (x : CoreSt) : (b.setCore f core x).yg = b.yg := rfl

@[simp] theorem setJob_regs (id : Nat) (h : Job → Job) : (b.setJob id h).regs = b.regs := rfl
@[simp] theorem setJob_force (id : Nat) (h : Job → Job) : (b.setJob id h).force = b.force := rfl
@[simp] theorem setJob_latch (id : Nat) (h : Job → Job) : (b.setJob id h).latch = b.latch := rfl
@[simp] theorem setJob_staged (id : Nat) (h : Job → Job) : (b.setJob id h).staged = b.staged := rfl
@[simp] theorem setJob_wafer (id : Nat) (h : Job → Job) : (b.setJob id h).wafer = b.wafer := rfl
@[simp] theorem setJob_fab (id : Nat) (h : Job → Job) : (b.setJob id h).fab = b.fab := rfl
@[simp] theorem setJob_host (id : Nat) (h : Job → Job) : (b.setJob id h).host = b.host := rfl
@[simp] theorem setJob_ring (id : Nat) (h : Job → Job) : (b.setJob id h).ring = b.ring := rfl
@[simp] theorem setJob_camp (id : Nat) (h : Job → Job) : (b.setJob id h).camp = b.camp := rfl
@[simp] theorem setJob_boot (id : Nat) (h : Job → Job) : (b.setJob id h).boot = b.boot := rfl
@[simp] theorem setJob_dbg (id : Nat) (h : Job → Job) : (b.setJob id h).dbg = b.dbg := rfl
@[simp] theorem setJob_out (id : Nat) (h : Job → Job) : (b.setJob id h).out = b.out := rfl
@[simp] theorem setJob_free (id : Nat) (h : Job → Job) : (b.setJob id h).free = b.free := rfl
@[simp] theorem setJob_rat (id : Nat) (h : Job → Job) : (b.setJob id h).rat = b.rat := rfl
@[simp] theorem setJob_modu (id : Nat) (h : Job → Job) : (b.setJob id h).modu = b.modu := rfl
@[simp] theorem setJob_arr (id : Nat) (h : Job → Job) : (b.setJob id h).arr = b.arr := rfl
@[simp] theorem setJob_att (id : Nat) (h : Job → Job) : (b.setJob id h).att = b.att := rfl
@[simp] theorem setJob_samp (id : Nat) (h : Job → Job) : (b.setJob id h).samp = b.samp := rfl
@[simp] theorem setJob_mem (id : Nat) (h : Job → Job) : (b.setJob id h).mem = b.mem := rfl
@[simp] theorem setJob_tier (id : Nat) (h : Job → Job) : (b.setJob id h).tier = b.tier := rfl
@[simp] theorem setJob_dram (id : Nat) (h : Job → Job) : (b.setJob id h).dram = b.dram := rfl
@[simp] theorem setJob_integ (id : Nat) (h : Job → Job) : (b.setJob id h).integ = b.integ := rfl
@[simp] theorem setJob_cellar (id : Nat) (h : Job → Job) : (b.setJob id h).cellar = b.cellar := rfl
@[simp] theorem setJob_page (id : Nat) (h : Job → Job) : (b.setJob id h).page = b.page := rfl
@[simp] theorem setJob_serve (id : Nat) (h : Job → Job) : (b.setJob id h).serve = b.serve := rfl
@[simp] theorem setJob_yg (id : Nat) (h : Job → Job) : (b.setJob id h).yg = b.yg := rfl

@[simp] theorem setArray_regs (f n : Nat) (x : ArrSt) : (b.setArray f n x).regs = b.regs := rfl
@[simp] theorem setArray_force (f n : Nat) (x : ArrSt) : (b.setArray f n x).force = b.force := rfl
@[simp] theorem setArray_latch (f n : Nat) (x : ArrSt) : (b.setArray f n x).latch = b.latch := rfl
@[simp] theorem setArray_staged (f n : Nat) (x : ArrSt) : (b.setArray f n x).staged = b.staged := rfl
@[simp] theorem setArray_wafer (f n : Nat) (x : ArrSt) : (b.setArray f n x).wafer = b.wafer := rfl
@[simp] theorem setArray_fab (f n : Nat) (x : ArrSt) : (b.setArray f n x).fab = b.fab := rfl
@[simp] theorem setArray_host (f n : Nat) (x : ArrSt) : (b.setArray f n x).host = b.host := rfl
@[simp] theorem setArray_ring (f n : Nat) (x : ArrSt) : (b.setArray f n x).ring = b.ring := rfl
@[simp] theorem setArray_camp (f n : Nat) (x : ArrSt) : (b.setArray f n x).camp = b.camp := rfl
@[simp] theorem setArray_boot (f n : Nat) (x : ArrSt) : (b.setArray f n x).boot = b.boot := rfl
@[simp] theorem setArray_dbg (f n : Nat) (x : ArrSt) : (b.setArray f n x).dbg = b.dbg := rfl
@[simp] theorem setArray_out (f n : Nat) (x : ArrSt) : (b.setArray f n x).out = b.out := rfl
@[simp] theorem setArray_free (f n : Nat) (x : ArrSt) : (b.setArray f n x).free = b.free := rfl
@[simp] theorem setArray_rat (f n : Nat) (x : ArrSt) : (b.setArray f n x).rat = b.rat := rfl
@[simp] theorem setArray_modu (f n : Nat) (x : ArrSt) : (b.setArray f n x).modu = b.modu := rfl
@[simp] theorem setArray_tc (f n : Nat) (x : ArrSt) : (b.setArray f n x).tc = b.tc := rfl
@[simp] theorem setArray_att (f n : Nat) (x : ArrSt) : (b.setArray f n x).att = b.att := rfl
@[simp] theorem setArray_samp (f n : Nat) (x : ArrSt) : (b.setArray f n x).samp = b.samp := rfl
@[simp] theorem setArray_mem (f n : Nat) (x : ArrSt) : (b.setArray f n x).mem = b.mem := rfl
@[simp] theorem setArray_tier (f n : Nat) (x : ArrSt) : (b.setArray f n x).tier = b.tier := rfl
@[simp] theorem setArray_dram (f n : Nat) (x : ArrSt) : (b.setArray f n x).dram = b.dram := rfl
@[simp] theorem setArray_integ (f n : Nat) (x : ArrSt) : (b.setArray f n x).integ = b.integ := rfl
@[simp] theorem setArray_cellar (f n : Nat) (x : ArrSt) : (b.setArray f n x).cellar = b.cellar := rfl
@[simp] theorem setArray_page (f n : Nat) (x : ArrSt) : (b.setArray f n x).page = b.page := rfl
@[simp] theorem setArray_serve (f n : Nat) (x : ArrSt) : (b.setArray f n x).serve = b.serve := rfl
@[simp] theorem setArray_yg (f n : Nat) (x : ArrSt) : (b.setArray f n x).yg = b.yg := rfl

@[simp] theorem setRing_regs (k : Nat) (s : RingSt) : (b.setRing k s).regs = b.regs := rfl
@[simp] theorem setRing_force (k : Nat) (s : RingSt) : (b.setRing k s).force = b.force := rfl
@[simp] theorem setRing_latch (k : Nat) (s : RingSt) : (b.setRing k s).latch = b.latch := rfl
@[simp] theorem setRing_staged (k : Nat) (s : RingSt) : (b.setRing k s).staged = b.staged := rfl
@[simp] theorem setRing_wafer (k : Nat) (s : RingSt) : (b.setRing k s).wafer = b.wafer := rfl
@[simp] theorem setRing_fab (k : Nat) (s : RingSt) : (b.setRing k s).fab = b.fab := rfl
@[simp] theorem setRing_host (k : Nat) (s : RingSt) : (b.setRing k s).host = b.host := rfl
@[simp] theorem setRing_camp (k : Nat) (s : RingSt) : (b.setRing k s).camp = b.camp := rfl
@[simp] theorem setRing_boot (k : Nat) (s : RingSt) : (b.setRing k s).boot = b.boot := rfl
@[simp] theorem setRing_dbg (k : Nat) (s : RingSt) : (b.setRing k s).dbg = b.dbg := rfl
@[simp] theorem setRing_out (k : Nat) (s : RingSt) : (b.setRing k s).out = b.out := rfl
@[simp] theorem setRing_free (k : Nat) (s : RingSt) : (b.setRing k s).free = b.free := rfl
@[simp] theorem setRing_rat (k : Nat) (s : RingSt) : (b.setRing k s).rat = b.rat := rfl
@[simp] theorem setRing_modu (k : Nat) (s : RingSt) : (b.setRing k s).modu = b.modu := rfl
@[simp] theorem setRing_tc (k : Nat) (s : RingSt) : (b.setRing k s).tc = b.tc := rfl
@[simp] theorem setRing_arr (k : Nat) (s : RingSt) : (b.setRing k s).arr = b.arr := rfl
@[simp] theorem setRing_att (k : Nat) (s : RingSt) : (b.setRing k s).att = b.att := rfl
@[simp] theorem setRing_samp (k : Nat) (s : RingSt) : (b.setRing k s).samp = b.samp := rfl
@[simp] theorem setRing_mem (k : Nat) (s : RingSt) : (b.setRing k s).mem = b.mem := rfl
@[simp] theorem setRing_tier (k : Nat) (s : RingSt) : (b.setRing k s).tier = b.tier := rfl
@[simp] theorem setRing_dram (k : Nat) (s : RingSt) : (b.setRing k s).dram = b.dram := rfl
@[simp] theorem setRing_integ (k : Nat) (s : RingSt) : (b.setRing k s).integ = b.integ := rfl
@[simp] theorem setRing_cellar (k : Nat) (s : RingSt) : (b.setRing k s).cellar = b.cellar := rfl
@[simp] theorem setRing_page (k : Nat) (s : RingSt) : (b.setRing k s).page = b.page := rfl
@[simp] theorem setRing_serve (k : Nat) (s : RingSt) : (b.setRing k s).serve = b.serve := rfl
@[simp] theorem setRing_yg (k : Nat) (s : RingSt) : (b.setRing k s).yg = b.yg := rfl

@[simp] theorem setVec_regs (fn v : Nat) (s : VecSt) : (b.setVec fn v s).regs = b.regs := rfl
@[simp] theorem setVec_force (fn v : Nat) (s : VecSt) : (b.setVec fn v s).force = b.force := rfl
@[simp] theorem setVec_latch (fn v : Nat) (s : VecSt) : (b.setVec fn v s).latch = b.latch := rfl
@[simp] theorem setVec_staged (fn v : Nat) (s : VecSt) : (b.setVec fn v s).staged = b.staged := rfl
@[simp] theorem setVec_wafer (fn v : Nat) (s : VecSt) : (b.setVec fn v s).wafer = b.wafer := rfl
@[simp] theorem setVec_fab (fn v : Nat) (s : VecSt) : (b.setVec fn v s).fab = b.fab := rfl
@[simp] theorem setVec_ring (fn v : Nat) (s : VecSt) : (b.setVec fn v s).ring = b.ring := rfl
@[simp] theorem setVec_camp (fn v : Nat) (s : VecSt) : (b.setVec fn v s).camp = b.camp := rfl
@[simp] theorem setVec_boot (fn v : Nat) (s : VecSt) : (b.setVec fn v s).boot = b.boot := rfl
@[simp] theorem setVec_dbg (fn v : Nat) (s : VecSt) : (b.setVec fn v s).dbg = b.dbg := rfl
@[simp] theorem setVec_out (fn v : Nat) (s : VecSt) : (b.setVec fn v s).out = b.out := rfl
@[simp] theorem setVec_free (fn v : Nat) (s : VecSt) : (b.setVec fn v s).free = b.free := rfl
@[simp] theorem setVec_rat (fn v : Nat) (s : VecSt) : (b.setVec fn v s).rat = b.rat := rfl
@[simp] theorem setVec_modu (fn v : Nat) (s : VecSt) : (b.setVec fn v s).modu = b.modu := rfl
@[simp] theorem setVec_tc (fn v : Nat) (s : VecSt) : (b.setVec fn v s).tc = b.tc := rfl
@[simp] theorem setVec_arr (fn v : Nat) (s : VecSt) : (b.setVec fn v s).arr = b.arr := rfl
@[simp] theorem setVec_att (fn v : Nat) (s : VecSt) : (b.setVec fn v s).att = b.att := rfl
@[simp] theorem setVec_samp (fn v : Nat) (s : VecSt) : (b.setVec fn v s).samp = b.samp := rfl
@[simp] theorem setVec_mem (fn v : Nat) (s : VecSt) : (b.setVec fn v s).mem = b.mem := rfl
@[simp] theorem setVec_tier (fn v : Nat) (s : VecSt) : (b.setVec fn v s).tier = b.tier := rfl
@[simp] theorem setVec_dram (fn v : Nat) (s : VecSt) : (b.setVec fn v s).dram = b.dram := rfl
@[simp] theorem setVec_integ (fn v : Nat) (s : VecSt) : (b.setVec fn v s).integ = b.integ := rfl
@[simp] theorem setVec_cellar (fn v : Nat) (s : VecSt) : (b.setVec fn v s).cellar = b.cellar := rfl
@[simp] theorem setVec_page (fn v : Nat) (s : VecSt) : (b.setVec fn v s).page = b.page := rfl
@[simp] theorem setVec_serve (fn v : Nat) (s : VecSt) : (b.setVec fn v s).serve = b.serve := rfl
@[simp] theorem setVec_yg (fn v : Nat) (s : VecSt) : (b.setVec fn v s).yg = b.yg := rfl

@[simp] theorem setPort_regs (p : Nat) (x : YgPort) : (b.setPort p x).regs = b.regs := rfl
@[simp] theorem setPort_force (p : Nat) (x : YgPort) : (b.setPort p x).force = b.force := rfl
@[simp] theorem setPort_latch (p : Nat) (x : YgPort) : (b.setPort p x).latch = b.latch := rfl
@[simp] theorem setPort_staged (p : Nat) (x : YgPort) : (b.setPort p x).staged = b.staged := rfl
@[simp] theorem setPort_wafer (p : Nat) (x : YgPort) : (b.setPort p x).wafer = b.wafer := rfl
@[simp] theorem setPort_fab (p : Nat) (x : YgPort) : (b.setPort p x).fab = b.fab := rfl
@[simp] theorem setPort_host (p : Nat) (x : YgPort) : (b.setPort p x).host = b.host := rfl
@[simp] theorem setPort_ring (p : Nat) (x : YgPort) : (b.setPort p x).ring = b.ring := rfl
@[simp] theorem setPort_camp (p : Nat) (x : YgPort) : (b.setPort p x).camp = b.camp := rfl
@[simp] theorem setPort_boot (p : Nat) (x : YgPort) : (b.setPort p x).boot = b.boot := rfl
@[simp] theorem setPort_dbg (p : Nat) (x : YgPort) : (b.setPort p x).dbg = b.dbg := rfl
@[simp] theorem setPort_out (p : Nat) (x : YgPort) : (b.setPort p x).out = b.out := rfl
@[simp] theorem setPort_free (p : Nat) (x : YgPort) : (b.setPort p x).free = b.free := rfl
@[simp] theorem setPort_rat (p : Nat) (x : YgPort) : (b.setPort p x).rat = b.rat := rfl
@[simp] theorem setPort_modu (p : Nat) (x : YgPort) : (b.setPort p x).modu = b.modu := rfl
@[simp] theorem setPort_tc (p : Nat) (x : YgPort) : (b.setPort p x).tc = b.tc := rfl
@[simp] theorem setPort_arr (p : Nat) (x : YgPort) : (b.setPort p x).arr = b.arr := rfl
@[simp] theorem setPort_att (p : Nat) (x : YgPort) : (b.setPort p x).att = b.att := rfl
@[simp] theorem setPort_samp (p : Nat) (x : YgPort) : (b.setPort p x).samp = b.samp := rfl
@[simp] theorem setPort_mem (p : Nat) (x : YgPort) : (b.setPort p x).mem = b.mem := rfl
@[simp] theorem setPort_tier (p : Nat) (x : YgPort) : (b.setPort p x).tier = b.tier := rfl
@[simp] theorem setPort_dram (p : Nat) (x : YgPort) : (b.setPort p x).dram = b.dram := rfl
@[simp] theorem setPort_integ (p : Nat) (x : YgPort) : (b.setPort p x).integ = b.integ := rfl
@[simp] theorem setPort_cellar (p : Nat) (x : YgPort) : (b.setPort p x).cellar = b.cellar := rfl
@[simp] theorem setPort_page (p : Nat) (x : YgPort) : (b.setPort p x).page = b.page := rfl
@[simp] theorem setPort_serve (p : Nat) (x : YgPort) : (b.setPort p x).serve = b.serve := rfl

@[simp] theorem setLine_regs (p : Nat) (l : Option Line) : (b.setLine p l).regs = b.regs := rfl
@[simp] theorem setLine_force (p : Nat) (l : Option Line) : (b.setLine p l).force = b.force := rfl
@[simp] theorem setLine_latch (p : Nat) (l : Option Line) : (b.setLine p l).latch = b.latch := rfl
@[simp] theorem setLine_staged (p : Nat) (l : Option Line) : (b.setLine p l).staged = b.staged := rfl
@[simp] theorem setLine_wafer (p : Nat) (l : Option Line) : (b.setLine p l).wafer = b.wafer := rfl
@[simp] theorem setLine_fab (p : Nat) (l : Option Line) : (b.setLine p l).fab = b.fab := rfl
@[simp] theorem setLine_host (p : Nat) (l : Option Line) : (b.setLine p l).host = b.host := rfl
@[simp] theorem setLine_ring (p : Nat) (l : Option Line) : (b.setLine p l).ring = b.ring := rfl
@[simp] theorem setLine_camp (p : Nat) (l : Option Line) : (b.setLine p l).camp = b.camp := rfl
@[simp] theorem setLine_boot (p : Nat) (l : Option Line) : (b.setLine p l).boot = b.boot := rfl
@[simp] theorem setLine_dbg (p : Nat) (l : Option Line) : (b.setLine p l).dbg = b.dbg := rfl
@[simp] theorem setLine_out (p : Nat) (l : Option Line) : (b.setLine p l).out = b.out := rfl
@[simp] theorem setLine_free (p : Nat) (l : Option Line) : (b.setLine p l).free = b.free := rfl
@[simp] theorem setLine_rat (p : Nat) (l : Option Line) : (b.setLine p l).rat = b.rat := rfl
@[simp] theorem setLine_modu (p : Nat) (l : Option Line) : (b.setLine p l).modu = b.modu := rfl
@[simp] theorem setLine_tc (p : Nat) (l : Option Line) : (b.setLine p l).tc = b.tc := rfl
@[simp] theorem setLine_arr (p : Nat) (l : Option Line) : (b.setLine p l).arr = b.arr := rfl
@[simp] theorem setLine_att (p : Nat) (l : Option Line) : (b.setLine p l).att = b.att := rfl
@[simp] theorem setLine_samp (p : Nat) (l : Option Line) : (b.setLine p l).samp = b.samp := rfl
@[simp] theorem setLine_tier (p : Nat) (l : Option Line) : (b.setLine p l).tier = b.tier := rfl
@[simp] theorem setLine_dram (p : Nat) (l : Option Line) : (b.setLine p l).dram = b.dram := rfl
@[simp] theorem setLine_integ (p : Nat) (l : Option Line) : (b.setLine p l).integ = b.integ := rfl
@[simp] theorem setLine_cellar (p : Nat) (l : Option Line) : (b.setLine p l).cellar = b.cellar := rfl
@[simp] theorem setLine_page (p : Nat) (l : Option Line) : (b.setLine p l).page = b.page := rfl
@[simp] theorem setLine_serve (p : Nat) (l : Option Line) : (b.setLine p l).serve = b.serve := rfl
@[simp] theorem setLine_yg (p : Nat) (l : Option Line) : (b.setLine p l).yg = b.yg := rfl

@[simp] theorem setChan_regs (f n : Nat) (x : ChanSt) : (b.setChan f n x).regs = b.regs := rfl
@[simp] theorem setChan_force (f n : Nat) (x : ChanSt) : (b.setChan f n x).force = b.force := rfl
@[simp] theorem setChan_latch (f n : Nat) (x : ChanSt) : (b.setChan f n x).latch = b.latch := rfl
@[simp] theorem setChan_staged (f n : Nat) (x : ChanSt) : (b.setChan f n x).staged = b.staged := rfl
@[simp] theorem setChan_wafer (f n : Nat) (x : ChanSt) : (b.setChan f n x).wafer = b.wafer := rfl
@[simp] theorem setChan_fab (f n : Nat) (x : ChanSt) : (b.setChan f n x).fab = b.fab := rfl
@[simp] theorem setChan_host (f n : Nat) (x : ChanSt) : (b.setChan f n x).host = b.host := rfl
@[simp] theorem setChan_ring (f n : Nat) (x : ChanSt) : (b.setChan f n x).ring = b.ring := rfl
@[simp] theorem setChan_camp (f n : Nat) (x : ChanSt) : (b.setChan f n x).camp = b.camp := rfl
@[simp] theorem setChan_boot (f n : Nat) (x : ChanSt) : (b.setChan f n x).boot = b.boot := rfl
@[simp] theorem setChan_dbg (f n : Nat) (x : ChanSt) : (b.setChan f n x).dbg = b.dbg := rfl
@[simp] theorem setChan_out (f n : Nat) (x : ChanSt) : (b.setChan f n x).out = b.out := rfl
@[simp] theorem setChan_free (f n : Nat) (x : ChanSt) : (b.setChan f n x).free = b.free := rfl
@[simp] theorem setChan_rat (f n : Nat) (x : ChanSt) : (b.setChan f n x).rat = b.rat := rfl
@[simp] theorem setChan_modu (f n : Nat) (x : ChanSt) : (b.setChan f n x).modu = b.modu := rfl
@[simp] theorem setChan_tc (f n : Nat) (x : ChanSt) : (b.setChan f n x).tc = b.tc := rfl
@[simp] theorem setChan_arr (f n : Nat) (x : ChanSt) : (b.setChan f n x).arr = b.arr := rfl
@[simp] theorem setChan_att (f n : Nat) (x : ChanSt) : (b.setChan f n x).att = b.att := rfl
@[simp] theorem setChan_samp (f n : Nat) (x : ChanSt) : (b.setChan f n x).samp = b.samp := rfl
@[simp] theorem setChan_mem (f n : Nat) (x : ChanSt) : (b.setChan f n x).mem = b.mem := rfl
@[simp] theorem setChan_tier (f n : Nat) (x : ChanSt) : (b.setChan f n x).tier = b.tier := rfl
@[simp] theorem setChan_integ (f n : Nat) (x : ChanSt) : (b.setChan f n x).integ = b.integ := rfl
@[simp] theorem setChan_cellar (f n : Nat) (x : ChanSt) : (b.setChan f n x).cellar = b.cellar := rfl
@[simp] theorem setChan_page (f n : Nat) (x : ChanSt) : (b.setChan f n x).page = b.page := rfl
@[simp] theorem setChan_serve (f n : Nat) (x : ChanSt) : (b.setChan f n x).serve = b.serve := rfl
@[simp] theorem setChan_yg (f n : Nat) (x : ChanSt) : (b.setChan f n x).yg = b.yg := rfl

@[simp] theorem setStack_regs (f : Nat) (x : StackSt) : (b.setStack f x).regs = b.regs := rfl
@[simp] theorem setStack_force (f : Nat) (x : StackSt) : (b.setStack f x).force = b.force := rfl
@[simp] theorem setStack_latch (f : Nat) (x : StackSt) : (b.setStack f x).latch = b.latch := rfl
@[simp] theorem setStack_staged (f : Nat) (x : StackSt) : (b.setStack f x).staged = b.staged := rfl
@[simp] theorem setStack_wafer (f : Nat) (x : StackSt) : (b.setStack f x).wafer = b.wafer := rfl
@[simp] theorem setStack_fab (f : Nat) (x : StackSt) : (b.setStack f x).fab = b.fab := rfl
@[simp] theorem setStack_host (f : Nat) (x : StackSt) : (b.setStack f x).host = b.host := rfl
@[simp] theorem setStack_ring (f : Nat) (x : StackSt) : (b.setStack f x).ring = b.ring := rfl
@[simp] theorem setStack_camp (f : Nat) (x : StackSt) : (b.setStack f x).camp = b.camp := rfl
@[simp] theorem setStack_boot (f : Nat) (x : StackSt) : (b.setStack f x).boot = b.boot := rfl
@[simp] theorem setStack_dbg (f : Nat) (x : StackSt) : (b.setStack f x).dbg = b.dbg := rfl
@[simp] theorem setStack_out (f : Nat) (x : StackSt) : (b.setStack f x).out = b.out := rfl
@[simp] theorem setStack_free (f : Nat) (x : StackSt) : (b.setStack f x).free = b.free := rfl
@[simp] theorem setStack_rat (f : Nat) (x : StackSt) : (b.setStack f x).rat = b.rat := rfl
@[simp] theorem setStack_modu (f : Nat) (x : StackSt) : (b.setStack f x).modu = b.modu := rfl
@[simp] theorem setStack_tc (f : Nat) (x : StackSt) : (b.setStack f x).tc = b.tc := rfl
@[simp] theorem setStack_arr (f : Nat) (x : StackSt) : (b.setStack f x).arr = b.arr := rfl
@[simp] theorem setStack_att (f : Nat) (x : StackSt) : (b.setStack f x).att = b.att := rfl
@[simp] theorem setStack_samp (f : Nat) (x : StackSt) : (b.setStack f x).samp = b.samp := rfl
@[simp] theorem setStack_mem (f : Nat) (x : StackSt) : (b.setStack f x).mem = b.mem := rfl
@[simp] theorem setStack_tier (f : Nat) (x : StackSt) : (b.setStack f x).tier = b.tier := rfl
@[simp] theorem setStack_integ (f : Nat) (x : StackSt) : (b.setStack f x).integ = b.integ := rfl
@[simp] theorem setStack_cellar (f : Nat) (x : StackSt) : (b.setStack f x).cellar = b.cellar := rfl
@[simp] theorem setStack_page (f : Nat) (x : StackSt) : (b.setStack f x).page = b.page := rfl
@[simp] theorem setStack_serve (f : Nat) (x : StackSt) : (b.setStack f x).serve = b.serve := rfl
@[simp] theorem setStack_yg (f : Nat) (x : StackSt) : (b.setStack f x).yg = b.yg := rfl

@[simp] theorem setTest_regs (f : Nat) (x : TestPort) : (b.setTest f x).regs = b.regs := rfl
@[simp] theorem setTest_force (f : Nat) (x : TestPort) : (b.setTest f x).force = b.force := rfl
@[simp] theorem setTest_latch (f : Nat) (x : TestPort) : (b.setTest f x).latch = b.latch := rfl
@[simp] theorem setTest_staged (f : Nat) (x : TestPort) : (b.setTest f x).staged = b.staged := rfl
@[simp] theorem setTest_wafer (f : Nat) (x : TestPort) : (b.setTest f x).wafer = b.wafer := rfl
@[simp] theorem setTest_fab (f : Nat) (x : TestPort) : (b.setTest f x).fab = b.fab := rfl
@[simp] theorem setTest_host (f : Nat) (x : TestPort) : (b.setTest f x).host = b.host := rfl
@[simp] theorem setTest_ring (f : Nat) (x : TestPort) : (b.setTest f x).ring = b.ring := rfl
@[simp] theorem setTest_camp (f : Nat) (x : TestPort) : (b.setTest f x).camp = b.camp := rfl
@[simp] theorem setTest_boot (f : Nat) (x : TestPort) : (b.setTest f x).boot = b.boot := rfl
@[simp] theorem setTest_dbg (f : Nat) (x : TestPort) : (b.setTest f x).dbg = b.dbg := rfl
@[simp] theorem setTest_out (f : Nat) (x : TestPort) : (b.setTest f x).out = b.out := rfl
@[simp] theorem setTest_free (f : Nat) (x : TestPort) : (b.setTest f x).free = b.free := rfl
@[simp] theorem setTest_rat (f : Nat) (x : TestPort) : (b.setTest f x).rat = b.rat := rfl
@[simp] theorem setTest_modu (f : Nat) (x : TestPort) : (b.setTest f x).modu = b.modu := rfl
@[simp] theorem setTest_tc (f : Nat) (x : TestPort) : (b.setTest f x).tc = b.tc := rfl
@[simp] theorem setTest_arr (f : Nat) (x : TestPort) : (b.setTest f x).arr = b.arr := rfl
@[simp] theorem setTest_att (f : Nat) (x : TestPort) : (b.setTest f x).att = b.att := rfl
@[simp] theorem setTest_samp (f : Nat) (x : TestPort) : (b.setTest f x).samp = b.samp := rfl
@[simp] theorem setTest_mem (f : Nat) (x : TestPort) : (b.setTest f x).mem = b.mem := rfl
@[simp] theorem setTest_tier (f : Nat) (x : TestPort) : (b.setTest f x).tier = b.tier := rfl
@[simp] theorem setTest_integ (f : Nat) (x : TestPort) : (b.setTest f x).integ = b.integ := rfl
@[simp] theorem setTest_cellar (f : Nat) (x : TestPort) : (b.setTest f x).cellar = b.cellar := rfl
@[simp] theorem setTest_page (f : Nat) (x : TestPort) : (b.setTest f x).page = b.page := rfl
@[simp] theorem setTest_serve (f : Nat) (x : TestPort) : (b.setTest f x).serve = b.serve := rfl
@[simp] theorem setTest_yg (f : Nat) (x : TestPort) : (b.setTest f x).yg = b.yg := rfl

@[simp] theorem setSite_regs (s : Nat) (x : SiteSt) : (b.setSite s x).regs = b.regs := rfl
@[simp] theorem setSite_force (s : Nat) (x : SiteSt) : (b.setSite s x).force = b.force := rfl
@[simp] theorem setSite_latch (s : Nat) (x : SiteSt) : (b.setSite s x).latch = b.latch := rfl
@[simp] theorem setSite_staged (s : Nat) (x : SiteSt) : (b.setSite s x).staged = b.staged := rfl
@[simp] theorem setSite_wafer (s : Nat) (x : SiteSt) : (b.setSite s x).wafer = b.wafer := rfl
@[simp] theorem setSite_host (s : Nat) (x : SiteSt) : (b.setSite s x).host = b.host := rfl
@[simp] theorem setSite_ring (s : Nat) (x : SiteSt) : (b.setSite s x).ring = b.ring := rfl
@[simp] theorem setSite_camp (s : Nat) (x : SiteSt) : (b.setSite s x).camp = b.camp := rfl
@[simp] theorem setSite_boot (s : Nat) (x : SiteSt) : (b.setSite s x).boot = b.boot := rfl
@[simp] theorem setSite_dbg (s : Nat) (x : SiteSt) : (b.setSite s x).dbg = b.dbg := rfl
@[simp] theorem setSite_out (s : Nat) (x : SiteSt) : (b.setSite s x).out = b.out := rfl
@[simp] theorem setSite_free (s : Nat) (x : SiteSt) : (b.setSite s x).free = b.free := rfl
@[simp] theorem setSite_rat (s : Nat) (x : SiteSt) : (b.setSite s x).rat = b.rat := rfl
@[simp] theorem setSite_modu (s : Nat) (x : SiteSt) : (b.setSite s x).modu = b.modu := rfl
@[simp] theorem setSite_tc (s : Nat) (x : SiteSt) : (b.setSite s x).tc = b.tc := rfl
@[simp] theorem setSite_arr (s : Nat) (x : SiteSt) : (b.setSite s x).arr = b.arr := rfl
@[simp] theorem setSite_att (s : Nat) (x : SiteSt) : (b.setSite s x).att = b.att := rfl
@[simp] theorem setSite_samp (s : Nat) (x : SiteSt) : (b.setSite s x).samp = b.samp := rfl
@[simp] theorem setSite_mem (s : Nat) (x : SiteSt) : (b.setSite s x).mem = b.mem := rfl
@[simp] theorem setSite_tier (s : Nat) (x : SiteSt) : (b.setSite s x).tier = b.tier := rfl
@[simp] theorem setSite_dram (s : Nat) (x : SiteSt) : (b.setSite s x).dram = b.dram := rfl
@[simp] theorem setSite_integ (s : Nat) (x : SiteSt) : (b.setSite s x).integ = b.integ := rfl
@[simp] theorem setSite_cellar (s : Nat) (x : SiteSt) : (b.setSite s x).cellar = b.cellar := rfl
@[simp] theorem setSite_page (s : Nat) (x : SiteSt) : (b.setSite s x).page = b.page := rfl
@[simp] theorem setSite_serve (s : Nat) (x : SiteSt) : (b.setSite s x).serve = b.serve := rfl
@[simp] theorem setSite_yg (s : Nat) (x : SiteSt) : (b.setSite s x).yg = b.yg := rfl

@[simp] theorem setCampField_regs (c f : Nat) (x : CampField) : (b.setCampField c f x).regs = b.regs := rfl
@[simp] theorem setCampField_force (c f : Nat) (x : CampField) : (b.setCampField c f x).force = b.force := rfl
@[simp] theorem setCampField_latch (c f : Nat) (x : CampField) : (b.setCampField c f x).latch = b.latch := rfl
@[simp] theorem setCampField_staged (c f : Nat) (x : CampField) : (b.setCampField c f x).staged = b.staged := rfl
@[simp] theorem setCampField_wafer (c f : Nat) (x : CampField) : (b.setCampField c f x).wafer = b.wafer := rfl
@[simp] theorem setCampField_host (c f : Nat) (x : CampField) : (b.setCampField c f x).host = b.host := rfl
@[simp] theorem setCampField_ring (c f : Nat) (x : CampField) : (b.setCampField c f x).ring = b.ring := rfl
@[simp] theorem setCampField_camp (c f : Nat) (x : CampField) : (b.setCampField c f x).camp = b.camp := rfl
@[simp] theorem setCampField_boot (c f : Nat) (x : CampField) : (b.setCampField c f x).boot = b.boot := rfl
@[simp] theorem setCampField_dbg (c f : Nat) (x : CampField) : (b.setCampField c f x).dbg = b.dbg := rfl
@[simp] theorem setCampField_out (c f : Nat) (x : CampField) : (b.setCampField c f x).out = b.out := rfl
@[simp] theorem setCampField_free (c f : Nat) (x : CampField) : (b.setCampField c f x).free = b.free := rfl
@[simp] theorem setCampField_rat (c f : Nat) (x : CampField) : (b.setCampField c f x).rat = b.rat := rfl
@[simp] theorem setCampField_modu (c f : Nat) (x : CampField) : (b.setCampField c f x).modu = b.modu := rfl
@[simp] theorem setCampField_tc (c f : Nat) (x : CampField) : (b.setCampField c f x).tc = b.tc := rfl
@[simp] theorem setCampField_arr (c f : Nat) (x : CampField) : (b.setCampField c f x).arr = b.arr := rfl
@[simp] theorem setCampField_att (c f : Nat) (x : CampField) : (b.setCampField c f x).att = b.att := rfl
@[simp] theorem setCampField_samp (c f : Nat) (x : CampField) : (b.setCampField c f x).samp = b.samp := rfl
@[simp] theorem setCampField_mem (c f : Nat) (x : CampField) : (b.setCampField c f x).mem = b.mem := rfl
@[simp] theorem setCampField_tier (c f : Nat) (x : CampField) : (b.setCampField c f x).tier = b.tier := rfl
@[simp] theorem setCampField_dram (c f : Nat) (x : CampField) : (b.setCampField c f x).dram = b.dram := rfl
@[simp] theorem setCampField_integ (c f : Nat) (x : CampField) : (b.setCampField c f x).integ = b.integ := rfl
@[simp] theorem setCampField_cellar (c f : Nat) (x : CampField) : (b.setCampField c f x).cellar = b.cellar := rfl
@[simp] theorem setCampField_page (c f : Nat) (x : CampField) : (b.setCampField c f x).page = b.page := rfl
@[simp] theorem setCampField_serve (c f : Nat) (x : CampField) : (b.setCampField c f x).serve = b.serve := rfl
@[simp] theorem setCampField_yg (c f : Nat) (x : CampField) : (b.setCampField c f x).yg = b.yg := rfl

@[simp] theorem setStepSt_regs (c : Nat) (x : StepSt) : (b.setStepSt c x).regs = b.regs := rfl
@[simp] theorem setStepSt_force (c : Nat) (x : StepSt) : (b.setStepSt c x).force = b.force := rfl
@[simp] theorem setStepSt_latch (c : Nat) (x : StepSt) : (b.setStepSt c x).latch = b.latch := rfl
@[simp] theorem setStepSt_staged (c : Nat) (x : StepSt) : (b.setStepSt c x).staged = b.staged := rfl
@[simp] theorem setStepSt_wafer (c : Nat) (x : StepSt) : (b.setStepSt c x).wafer = b.wafer := rfl
@[simp] theorem setStepSt_host (c : Nat) (x : StepSt) : (b.setStepSt c x).host = b.host := rfl
@[simp] theorem setStepSt_ring (c : Nat) (x : StepSt) : (b.setStepSt c x).ring = b.ring := rfl
@[simp] theorem setStepSt_camp (c : Nat) (x : StepSt) : (b.setStepSt c x).camp = b.camp := rfl
@[simp] theorem setStepSt_boot (c : Nat) (x : StepSt) : (b.setStepSt c x).boot = b.boot := rfl
@[simp] theorem setStepSt_dbg (c : Nat) (x : StepSt) : (b.setStepSt c x).dbg = b.dbg := rfl
@[simp] theorem setStepSt_out (c : Nat) (x : StepSt) : (b.setStepSt c x).out = b.out := rfl
@[simp] theorem setStepSt_free (c : Nat) (x : StepSt) : (b.setStepSt c x).free = b.free := rfl
@[simp] theorem setStepSt_rat (c : Nat) (x : StepSt) : (b.setStepSt c x).rat = b.rat := rfl
@[simp] theorem setStepSt_modu (c : Nat) (x : StepSt) : (b.setStepSt c x).modu = b.modu := rfl
@[simp] theorem setStepSt_tc (c : Nat) (x : StepSt) : (b.setStepSt c x).tc = b.tc := rfl
@[simp] theorem setStepSt_arr (c : Nat) (x : StepSt) : (b.setStepSt c x).arr = b.arr := rfl
@[simp] theorem setStepSt_att (c : Nat) (x : StepSt) : (b.setStepSt c x).att = b.att := rfl
@[simp] theorem setStepSt_samp (c : Nat) (x : StepSt) : (b.setStepSt c x).samp = b.samp := rfl
@[simp] theorem setStepSt_mem (c : Nat) (x : StepSt) : (b.setStepSt c x).mem = b.mem := rfl
@[simp] theorem setStepSt_tier (c : Nat) (x : StepSt) : (b.setStepSt c x).tier = b.tier := rfl
@[simp] theorem setStepSt_dram (c : Nat) (x : StepSt) : (b.setStepSt c x).dram = b.dram := rfl
@[simp] theorem setStepSt_integ (c : Nat) (x : StepSt) : (b.setStepSt c x).integ = b.integ := rfl
@[simp] theorem setStepSt_cellar (c : Nat) (x : StepSt) : (b.setStepSt c x).cellar = b.cellar := rfl
@[simp] theorem setStepSt_page (c : Nat) (x : StepSt) : (b.setStepSt c x).page = b.page := rfl
@[simp] theorem setStepSt_serve (c : Nat) (x : StepSt) : (b.setStepSt c x).serve = b.serve := rfl
@[simp] theorem setStepSt_yg (c : Nat) (x : StepSt) : (b.setStepSt c x).yg = b.yg := rfl

@[simp] theorem setDir_regs (f g : Nat) (e : DirEntry) : (b.setDir f g e).regs = b.regs := rfl
@[simp] theorem setDir_force (f g : Nat) (e : DirEntry) : (b.setDir f g e).force = b.force := rfl
@[simp] theorem setDir_latch (f g : Nat) (e : DirEntry) : (b.setDir f g e).latch = b.latch := rfl
@[simp] theorem setDir_staged (f g : Nat) (e : DirEntry) : (b.setDir f g e).staged = b.staged := rfl
@[simp] theorem setDir_wafer (f g : Nat) (e : DirEntry) : (b.setDir f g e).wafer = b.wafer := rfl
@[simp] theorem setDir_fab (f g : Nat) (e : DirEntry) : (b.setDir f g e).fab = b.fab := rfl
@[simp] theorem setDir_host (f g : Nat) (e : DirEntry) : (b.setDir f g e).host = b.host := rfl
@[simp] theorem setDir_ring (f g : Nat) (e : DirEntry) : (b.setDir f g e).ring = b.ring := rfl
@[simp] theorem setDir_camp (f g : Nat) (e : DirEntry) : (b.setDir f g e).camp = b.camp := rfl
@[simp] theorem setDir_boot (f g : Nat) (e : DirEntry) : (b.setDir f g e).boot = b.boot := rfl
@[simp] theorem setDir_dbg (f g : Nat) (e : DirEntry) : (b.setDir f g e).dbg = b.dbg := rfl
@[simp] theorem setDir_out (f g : Nat) (e : DirEntry) : (b.setDir f g e).out = b.out := rfl
@[simp] theorem setDir_free (f g : Nat) (e : DirEntry) : (b.setDir f g e).free = b.free := rfl
@[simp] theorem setDir_rat (f g : Nat) (e : DirEntry) : (b.setDir f g e).rat = b.rat := rfl
@[simp] theorem setDir_modu (f g : Nat) (e : DirEntry) : (b.setDir f g e).modu = b.modu := rfl
@[simp] theorem setDir_tc (f g : Nat) (e : DirEntry) : (b.setDir f g e).tc = b.tc := rfl
@[simp] theorem setDir_arr (f g : Nat) (e : DirEntry) : (b.setDir f g e).arr = b.arr := rfl
@[simp] theorem setDir_att (f g : Nat) (e : DirEntry) : (b.setDir f g e).att = b.att := rfl
@[simp] theorem setDir_samp (f g : Nat) (e : DirEntry) : (b.setDir f g e).samp = b.samp := rfl
@[simp] theorem setDir_mem (f g : Nat) (e : DirEntry) : (b.setDir f g e).mem = b.mem := rfl
@[simp] theorem setDir_dram (f g : Nat) (e : DirEntry) : (b.setDir f g e).dram = b.dram := rfl
@[simp] theorem setDir_integ (f g : Nat) (e : DirEntry) : (b.setDir f g e).integ = b.integ := rfl
@[simp] theorem setDir_cellar (f g : Nat) (e : DirEntry) : (b.setDir f g e).cellar = b.cellar := rfl
@[simp] theorem setDir_page (f g : Nat) (e : DirEntry) : (b.setDir f g e).page = b.page := rfl
@[simp] theorem setDir_serve (f g : Nat) (e : DirEntry) : (b.setDir f g e).serve = b.serve := rfl
@[simp] theorem setDir_yg (f g : Nat) (e : DirEntry) : (b.setDir f g e).yg = b.yg := rfl

@[simp] theorem setObj_regs (f n : Nat) (o : TierObj) : (b.setObj f n o).regs = b.regs := rfl
@[simp] theorem setObj_force (f n : Nat) (o : TierObj) : (b.setObj f n o).force = b.force := rfl
@[simp] theorem setObj_latch (f n : Nat) (o : TierObj) : (b.setObj f n o).latch = b.latch := rfl
@[simp] theorem setObj_staged (f n : Nat) (o : TierObj) : (b.setObj f n o).staged = b.staged := rfl
@[simp] theorem setObj_wafer (f n : Nat) (o : TierObj) : (b.setObj f n o).wafer = b.wafer := rfl
@[simp] theorem setObj_fab (f n : Nat) (o : TierObj) : (b.setObj f n o).fab = b.fab := rfl
@[simp] theorem setObj_host (f n : Nat) (o : TierObj) : (b.setObj f n o).host = b.host := rfl
@[simp] theorem setObj_ring (f n : Nat) (o : TierObj) : (b.setObj f n o).ring = b.ring := rfl
@[simp] theorem setObj_camp (f n : Nat) (o : TierObj) : (b.setObj f n o).camp = b.camp := rfl
@[simp] theorem setObj_boot (f n : Nat) (o : TierObj) : (b.setObj f n o).boot = b.boot := rfl
@[simp] theorem setObj_dbg (f n : Nat) (o : TierObj) : (b.setObj f n o).dbg = b.dbg := rfl
@[simp] theorem setObj_out (f n : Nat) (o : TierObj) : (b.setObj f n o).out = b.out := rfl
@[simp] theorem setObj_free (f n : Nat) (o : TierObj) : (b.setObj f n o).free = b.free := rfl
@[simp] theorem setObj_rat (f n : Nat) (o : TierObj) : (b.setObj f n o).rat = b.rat := rfl
@[simp] theorem setObj_modu (f n : Nat) (o : TierObj) : (b.setObj f n o).modu = b.modu := rfl
@[simp] theorem setObj_tc (f n : Nat) (o : TierObj) : (b.setObj f n o).tc = b.tc := rfl
@[simp] theorem setObj_arr (f n : Nat) (o : TierObj) : (b.setObj f n o).arr = b.arr := rfl
@[simp] theorem setObj_att (f n : Nat) (o : TierObj) : (b.setObj f n o).att = b.att := rfl
@[simp] theorem setObj_samp (f n : Nat) (o : TierObj) : (b.setObj f n o).samp = b.samp := rfl
@[simp] theorem setObj_mem (f n : Nat) (o : TierObj) : (b.setObj f n o).mem = b.mem := rfl
@[simp] theorem setObj_dram (f n : Nat) (o : TierObj) : (b.setObj f n o).dram = b.dram := rfl
@[simp] theorem setObj_integ (f n : Nat) (o : TierObj) : (b.setObj f n o).integ = b.integ := rfl
@[simp] theorem setObj_cellar (f n : Nat) (o : TierObj) : (b.setObj f n o).cellar = b.cellar := rfl
@[simp] theorem setObj_page (f n : Nat) (o : TierObj) : (b.setObj f n o).page = b.page := rfl
@[simp] theorem setObj_serve (f n : Nat) (o : TierObj) : (b.setObj f n o).serve = b.serve := rfl
@[simp] theorem setObj_yg (f n : Nat) (o : TierObj) : (b.setObj f n o).yg = b.yg := rfl

@[simp] theorem setFrame_regs (f tier n : Nat) (u : FrameUse) : (b.setFrame f tier n u).regs = b.regs := rfl
@[simp] theorem setFrame_force (f tier n : Nat) (u : FrameUse) : (b.setFrame f tier n u).force = b.force := rfl
@[simp] theorem setFrame_latch (f tier n : Nat) (u : FrameUse) : (b.setFrame f tier n u).latch = b.latch := rfl
@[simp] theorem setFrame_staged (f tier n : Nat) (u : FrameUse) : (b.setFrame f tier n u).staged = b.staged := rfl
@[simp] theorem setFrame_wafer (f tier n : Nat) (u : FrameUse) : (b.setFrame f tier n u).wafer = b.wafer := rfl
@[simp] theorem setFrame_fab (f tier n : Nat) (u : FrameUse) : (b.setFrame f tier n u).fab = b.fab := rfl
@[simp] theorem setFrame_host (f tier n : Nat) (u : FrameUse) : (b.setFrame f tier n u).host = b.host := rfl
@[simp] theorem setFrame_ring (f tier n : Nat) (u : FrameUse) : (b.setFrame f tier n u).ring = b.ring := rfl
@[simp] theorem setFrame_camp (f tier n : Nat) (u : FrameUse) : (b.setFrame f tier n u).camp = b.camp := rfl
@[simp] theorem setFrame_boot (f tier n : Nat) (u : FrameUse) : (b.setFrame f tier n u).boot = b.boot := rfl
@[simp] theorem setFrame_dbg (f tier n : Nat) (u : FrameUse) : (b.setFrame f tier n u).dbg = b.dbg := rfl
@[simp] theorem setFrame_out (f tier n : Nat) (u : FrameUse) : (b.setFrame f tier n u).out = b.out := rfl
@[simp] theorem setFrame_free (f tier n : Nat) (u : FrameUse) : (b.setFrame f tier n u).free = b.free := rfl
@[simp] theorem setFrame_rat (f tier n : Nat) (u : FrameUse) : (b.setFrame f tier n u).rat = b.rat := rfl
@[simp] theorem setFrame_modu (f tier n : Nat) (u : FrameUse) : (b.setFrame f tier n u).modu = b.modu := rfl
@[simp] theorem setFrame_tc (f tier n : Nat) (u : FrameUse) : (b.setFrame f tier n u).tc = b.tc := rfl
@[simp] theorem setFrame_arr (f tier n : Nat) (u : FrameUse) : (b.setFrame f tier n u).arr = b.arr := rfl
@[simp] theorem setFrame_att (f tier n : Nat) (u : FrameUse) : (b.setFrame f tier n u).att = b.att := rfl
@[simp] theorem setFrame_samp (f tier n : Nat) (u : FrameUse) : (b.setFrame f tier n u).samp = b.samp := rfl
@[simp] theorem setFrame_mem (f tier n : Nat) (u : FrameUse) : (b.setFrame f tier n u).mem = b.mem := rfl
@[simp] theorem setFrame_dram (f tier n : Nat) (u : FrameUse) : (b.setFrame f tier n u).dram = b.dram := rfl
@[simp] theorem setFrame_integ (f tier n : Nat) (u : FrameUse) : (b.setFrame f tier n u).integ = b.integ := rfl
@[simp] theorem setFrame_cellar (f tier n : Nat) (u : FrameUse) : (b.setFrame f tier n u).cellar = b.cellar := rfl
@[simp] theorem setFrame_page (f tier n : Nat) (u : FrameUse) : (b.setFrame f tier n u).page = b.page := rfl
@[simp] theorem setFrame_serve (f tier n : Nat) (u : FrameUse) : (b.setFrame f tier n u).serve = b.serve := rfl
@[simp] theorem setFrame_yg (f tier n : Nat) (u : FrameUse) : (b.setFrame f tier n u).yg = b.yg := rfl

@[simp] theorem setInteg_regs (f : Nat) (x : IntegField) : (b.setInteg f x).regs = b.regs := rfl
@[simp] theorem setInteg_force (f : Nat) (x : IntegField) : (b.setInteg f x).force = b.force := rfl
@[simp] theorem setInteg_latch (f : Nat) (x : IntegField) : (b.setInteg f x).latch = b.latch := rfl
@[simp] theorem setInteg_staged (f : Nat) (x : IntegField) : (b.setInteg f x).staged = b.staged := rfl
@[simp] theorem setInteg_wafer (f : Nat) (x : IntegField) : (b.setInteg f x).wafer = b.wafer := rfl
@[simp] theorem setInteg_fab (f : Nat) (x : IntegField) : (b.setInteg f x).fab = b.fab := rfl
@[simp] theorem setInteg_host (f : Nat) (x : IntegField) : (b.setInteg f x).host = b.host := rfl
@[simp] theorem setInteg_ring (f : Nat) (x : IntegField) : (b.setInteg f x).ring = b.ring := rfl
@[simp] theorem setInteg_camp (f : Nat) (x : IntegField) : (b.setInteg f x).camp = b.camp := rfl
@[simp] theorem setInteg_boot (f : Nat) (x : IntegField) : (b.setInteg f x).boot = b.boot := rfl
@[simp] theorem setInteg_dbg (f : Nat) (x : IntegField) : (b.setInteg f x).dbg = b.dbg := rfl
@[simp] theorem setInteg_out (f : Nat) (x : IntegField) : (b.setInteg f x).out = b.out := rfl
@[simp] theorem setInteg_free (f : Nat) (x : IntegField) : (b.setInteg f x).free = b.free := rfl
@[simp] theorem setInteg_rat (f : Nat) (x : IntegField) : (b.setInteg f x).rat = b.rat := rfl
@[simp] theorem setInteg_modu (f : Nat) (x : IntegField) : (b.setInteg f x).modu = b.modu := rfl
@[simp] theorem setInteg_tc (f : Nat) (x : IntegField) : (b.setInteg f x).tc = b.tc := rfl
@[simp] theorem setInteg_arr (f : Nat) (x : IntegField) : (b.setInteg f x).arr = b.arr := rfl
@[simp] theorem setInteg_att (f : Nat) (x : IntegField) : (b.setInteg f x).att = b.att := rfl
@[simp] theorem setInteg_samp (f : Nat) (x : IntegField) : (b.setInteg f x).samp = b.samp := rfl
@[simp] theorem setInteg_mem (f : Nat) (x : IntegField) : (b.setInteg f x).mem = b.mem := rfl
@[simp] theorem setInteg_tier (f : Nat) (x : IntegField) : (b.setInteg f x).tier = b.tier := rfl
@[simp] theorem setInteg_dram (f : Nat) (x : IntegField) : (b.setInteg f x).dram = b.dram := rfl
@[simp] theorem setInteg_cellar (f : Nat) (x : IntegField) : (b.setInteg f x).cellar = b.cellar := rfl
@[simp] theorem setInteg_page (f : Nat) (x : IntegField) : (b.setInteg f x).page = b.page := rfl
@[simp] theorem setInteg_serve (f : Nat) (x : IntegField) : (b.setInteg f x).serve = b.serve := rfl
@[simp] theorem setInteg_yg (f : Nat) (x : IntegField) : (b.setInteg f x).yg = b.yg := rfl

@[simp] theorem setCc_regs (k : Nat) (x : CcSt) : (b.setCc k x).regs = b.regs := rfl
@[simp] theorem setCc_force (k : Nat) (x : CcSt) : (b.setCc k x).force = b.force := rfl
@[simp] theorem setCc_latch (k : Nat) (x : CcSt) : (b.setCc k x).latch = b.latch := rfl
@[simp] theorem setCc_staged (k : Nat) (x : CcSt) : (b.setCc k x).staged = b.staged := rfl
@[simp] theorem setCc_wafer (k : Nat) (x : CcSt) : (b.setCc k x).wafer = b.wafer := rfl
@[simp] theorem setCc_fab (k : Nat) (x : CcSt) : (b.setCc k x).fab = b.fab := rfl
@[simp] theorem setCc_host (k : Nat) (x : CcSt) : (b.setCc k x).host = b.host := rfl
@[simp] theorem setCc_ring (k : Nat) (x : CcSt) : (b.setCc k x).ring = b.ring := rfl
@[simp] theorem setCc_camp (k : Nat) (x : CcSt) : (b.setCc k x).camp = b.camp := rfl
@[simp] theorem setCc_boot (k : Nat) (x : CcSt) : (b.setCc k x).boot = b.boot := rfl
@[simp] theorem setCc_dbg (k : Nat) (x : CcSt) : (b.setCc k x).dbg = b.dbg := rfl
@[simp] theorem setCc_out (k : Nat) (x : CcSt) : (b.setCc k x).out = b.out := rfl
@[simp] theorem setCc_free (k : Nat) (x : CcSt) : (b.setCc k x).free = b.free := rfl
@[simp] theorem setCc_rat (k : Nat) (x : CcSt) : (b.setCc k x).rat = b.rat := rfl
@[simp] theorem setCc_modu (k : Nat) (x : CcSt) : (b.setCc k x).modu = b.modu := rfl
@[simp] theorem setCc_tc (k : Nat) (x : CcSt) : (b.setCc k x).tc = b.tc := rfl
@[simp] theorem setCc_arr (k : Nat) (x : CcSt) : (b.setCc k x).arr = b.arr := rfl
@[simp] theorem setCc_att (k : Nat) (x : CcSt) : (b.setCc k x).att = b.att := rfl
@[simp] theorem setCc_samp (k : Nat) (x : CcSt) : (b.setCc k x).samp = b.samp := rfl
@[simp] theorem setCc_mem (k : Nat) (x : CcSt) : (b.setCc k x).mem = b.mem := rfl
@[simp] theorem setCc_tier (k : Nat) (x : CcSt) : (b.setCc k x).tier = b.tier := rfl
@[simp] theorem setCc_dram (k : Nat) (x : CcSt) : (b.setCc k x).dram = b.dram := rfl
@[simp] theorem setCc_integ (k : Nat) (x : CcSt) : (b.setCc k x).integ = b.integ := rfl
@[simp] theorem setCc_page (k : Nat) (x : CcSt) : (b.setCc k x).page = b.page := rfl
@[simp] theorem setCc_serve (k : Nat) (x : CcSt) : (b.setCc k x).serve = b.serve := rfl
@[simp] theorem setCc_yg (k : Nat) (x : CcSt) : (b.setCc k x).yg = b.yg := rfl

@[simp] theorem setPBlock_regs (key : Nat) (x : PBlock) : (b.setPBlock key x).regs = b.regs := rfl
@[simp] theorem setPBlock_force (key : Nat) (x : PBlock) : (b.setPBlock key x).force = b.force := rfl
@[simp] theorem setPBlock_latch (key : Nat) (x : PBlock) : (b.setPBlock key x).latch = b.latch := rfl
@[simp] theorem setPBlock_staged (key : Nat) (x : PBlock) : (b.setPBlock key x).staged = b.staged := rfl
@[simp] theorem setPBlock_wafer (key : Nat) (x : PBlock) : (b.setPBlock key x).wafer = b.wafer := rfl
@[simp] theorem setPBlock_fab (key : Nat) (x : PBlock) : (b.setPBlock key x).fab = b.fab := rfl
@[simp] theorem setPBlock_host (key : Nat) (x : PBlock) : (b.setPBlock key x).host = b.host := rfl
@[simp] theorem setPBlock_ring (key : Nat) (x : PBlock) : (b.setPBlock key x).ring = b.ring := rfl
@[simp] theorem setPBlock_camp (key : Nat) (x : PBlock) : (b.setPBlock key x).camp = b.camp := rfl
@[simp] theorem setPBlock_boot (key : Nat) (x : PBlock) : (b.setPBlock key x).boot = b.boot := rfl
@[simp] theorem setPBlock_dbg (key : Nat) (x : PBlock) : (b.setPBlock key x).dbg = b.dbg := rfl
@[simp] theorem setPBlock_out (key : Nat) (x : PBlock) : (b.setPBlock key x).out = b.out := rfl
@[simp] theorem setPBlock_free (key : Nat) (x : PBlock) : (b.setPBlock key x).free = b.free := rfl
@[simp] theorem setPBlock_rat (key : Nat) (x : PBlock) : (b.setPBlock key x).rat = b.rat := rfl
@[simp] theorem setPBlock_modu (key : Nat) (x : PBlock) : (b.setPBlock key x).modu = b.modu := rfl
@[simp] theorem setPBlock_tc (key : Nat) (x : PBlock) : (b.setPBlock key x).tc = b.tc := rfl
@[simp] theorem setPBlock_arr (key : Nat) (x : PBlock) : (b.setPBlock key x).arr = b.arr := rfl
@[simp] theorem setPBlock_att (key : Nat) (x : PBlock) : (b.setPBlock key x).att = b.att := rfl
@[simp] theorem setPBlock_samp (key : Nat) (x : PBlock) : (b.setPBlock key x).samp = b.samp := rfl
@[simp] theorem setPBlock_mem (key : Nat) (x : PBlock) : (b.setPBlock key x).mem = b.mem := rfl
@[simp] theorem setPBlock_tier (key : Nat) (x : PBlock) : (b.setPBlock key x).tier = b.tier := rfl
@[simp] theorem setPBlock_dram (key : Nat) (x : PBlock) : (b.setPBlock key x).dram = b.dram := rfl
@[simp] theorem setPBlock_integ (key : Nat) (x : PBlock) : (b.setPBlock key x).integ = b.integ := rfl
@[simp] theorem setPBlock_page (key : Nat) (x : PBlock) : (b.setPBlock key x).page = b.page := rfl
@[simp] theorem setPBlock_serve (key : Nat) (x : PBlock) : (b.setPBlock key x).serve = b.serve := rfl
@[simp] theorem setPBlock_yg (key : Nat) (x : PBlock) : (b.setPBlock key x).yg = b.yg := rfl

@[simp] theorem setCtl_regs (f p : Nat) (x : CtlSt) : (b.setCtl f p x).regs = b.regs := rfl
@[simp] theorem setCtl_force (f p : Nat) (x : CtlSt) : (b.setCtl f p x).force = b.force := rfl
@[simp] theorem setCtl_latch (f p : Nat) (x : CtlSt) : (b.setCtl f p x).latch = b.latch := rfl
@[simp] theorem setCtl_staged (f p : Nat) (x : CtlSt) : (b.setCtl f p x).staged = b.staged := rfl
@[simp] theorem setCtl_wafer (f p : Nat) (x : CtlSt) : (b.setCtl f p x).wafer = b.wafer := rfl
@[simp] theorem setCtl_fab (f p : Nat) (x : CtlSt) : (b.setCtl f p x).fab = b.fab := rfl
@[simp] theorem setCtl_host (f p : Nat) (x : CtlSt) : (b.setCtl f p x).host = b.host := rfl
@[simp] theorem setCtl_ring (f p : Nat) (x : CtlSt) : (b.setCtl f p x).ring = b.ring := rfl
@[simp] theorem setCtl_camp (f p : Nat) (x : CtlSt) : (b.setCtl f p x).camp = b.camp := rfl
@[simp] theorem setCtl_boot (f p : Nat) (x : CtlSt) : (b.setCtl f p x).boot = b.boot := rfl
@[simp] theorem setCtl_dbg (f p : Nat) (x : CtlSt) : (b.setCtl f p x).dbg = b.dbg := rfl
@[simp] theorem setCtl_out (f p : Nat) (x : CtlSt) : (b.setCtl f p x).out = b.out := rfl
@[simp] theorem setCtl_free (f p : Nat) (x : CtlSt) : (b.setCtl f p x).free = b.free := rfl
@[simp] theorem setCtl_rat (f p : Nat) (x : CtlSt) : (b.setCtl f p x).rat = b.rat := rfl
@[simp] theorem setCtl_modu (f p : Nat) (x : CtlSt) : (b.setCtl f p x).modu = b.modu := rfl
@[simp] theorem setCtl_tc (f p : Nat) (x : CtlSt) : (b.setCtl f p x).tc = b.tc := rfl
@[simp] theorem setCtl_arr (f p : Nat) (x : CtlSt) : (b.setCtl f p x).arr = b.arr := rfl
@[simp] theorem setCtl_att (f p : Nat) (x : CtlSt) : (b.setCtl f p x).att = b.att := rfl
@[simp] theorem setCtl_samp (f p : Nat) (x : CtlSt) : (b.setCtl f p x).samp = b.samp := rfl
@[simp] theorem setCtl_mem (f p : Nat) (x : CtlSt) : (b.setCtl f p x).mem = b.mem := rfl
@[simp] theorem setCtl_tier (f p : Nat) (x : CtlSt) : (b.setCtl f p x).tier = b.tier := rfl
@[simp] theorem setCtl_integ (f p : Nat) (x : CtlSt) : (b.setCtl f p x).integ = b.integ := rfl
@[simp] theorem setCtl_cellar (f p : Nat) (x : CtlSt) : (b.setCtl f p x).cellar = b.cellar := rfl
@[simp] theorem setCtl_page (f p : Nat) (x : CtlSt) : (b.setCtl f p x).page = b.page := rfl
@[simp] theorem setCtl_serve (f p : Nat) (x : CtlSt) : (b.setCtl f p x).serve = b.serve := rfl
@[simp] theorem setCtl_yg (f p : Nat) (x : CtlSt) : (b.setCtl f p x).yg = b.yg := rfl

@[simp] theorem setWeeder_regs (f mem : Nat) (x : Weeder) : (b.setWeeder f mem x).regs = b.regs := rfl
@[simp] theorem setWeeder_force (f mem : Nat) (x : Weeder) : (b.setWeeder f mem x).force = b.force := rfl
@[simp] theorem setWeeder_latch (f mem : Nat) (x : Weeder) : (b.setWeeder f mem x).latch = b.latch := rfl
@[simp] theorem setWeeder_staged (f mem : Nat) (x : Weeder) : (b.setWeeder f mem x).staged = b.staged := rfl
@[simp] theorem setWeeder_wafer (f mem : Nat) (x : Weeder) : (b.setWeeder f mem x).wafer = b.wafer := rfl
@[simp] theorem setWeeder_fab (f mem : Nat) (x : Weeder) : (b.setWeeder f mem x).fab = b.fab := rfl
@[simp] theorem setWeeder_host (f mem : Nat) (x : Weeder) : (b.setWeeder f mem x).host = b.host := rfl
@[simp] theorem setWeeder_ring (f mem : Nat) (x : Weeder) : (b.setWeeder f mem x).ring = b.ring := rfl
@[simp] theorem setWeeder_camp (f mem : Nat) (x : Weeder) : (b.setWeeder f mem x).camp = b.camp := rfl
@[simp] theorem setWeeder_boot (f mem : Nat) (x : Weeder) : (b.setWeeder f mem x).boot = b.boot := rfl
@[simp] theorem setWeeder_dbg (f mem : Nat) (x : Weeder) : (b.setWeeder f mem x).dbg = b.dbg := rfl
@[simp] theorem setWeeder_out (f mem : Nat) (x : Weeder) : (b.setWeeder f mem x).out = b.out := rfl
@[simp] theorem setWeeder_free (f mem : Nat) (x : Weeder) : (b.setWeeder f mem x).free = b.free := rfl
@[simp] theorem setWeeder_rat (f mem : Nat) (x : Weeder) : (b.setWeeder f mem x).rat = b.rat := rfl
@[simp] theorem setWeeder_modu (f mem : Nat) (x : Weeder) : (b.setWeeder f mem x).modu = b.modu := rfl
@[simp] theorem setWeeder_tc (f mem : Nat) (x : Weeder) : (b.setWeeder f mem x).tc = b.tc := rfl
@[simp] theorem setWeeder_arr (f mem : Nat) (x : Weeder) : (b.setWeeder f mem x).arr = b.arr := rfl
@[simp] theorem setWeeder_att (f mem : Nat) (x : Weeder) : (b.setWeeder f mem x).att = b.att := rfl
@[simp] theorem setWeeder_samp (f mem : Nat) (x : Weeder) : (b.setWeeder f mem x).samp = b.samp := rfl
@[simp] theorem setWeeder_mem (f mem : Nat) (x : Weeder) : (b.setWeeder f mem x).mem = b.mem := rfl
@[simp] theorem setWeeder_tier (f mem : Nat) (x : Weeder) : (b.setWeeder f mem x).tier = b.tier := rfl
@[simp] theorem setWeeder_dram (f mem : Nat) (x : Weeder) : (b.setWeeder f mem x).dram = b.dram := rfl
@[simp] theorem setWeeder_cellar (f mem : Nat) (x : Weeder) : (b.setWeeder f mem x).cellar = b.cellar := rfl
@[simp] theorem setWeeder_page (f mem : Nat) (x : Weeder) : (b.setWeeder f mem x).page = b.page := rfl
@[simp] theorem setWeeder_serve (f mem : Nat) (x : Weeder) : (b.setWeeder f mem x).serve = b.serve := rfl
@[simp] theorem setWeeder_yg (f mem : Nat) (x : Weeder) : (b.setWeeder f mem x).yg = b.yg := rfl

@[simp] theorem setSlot_regs (s : Nat) (h : Slot → Slot) : (b.setSlot s h).regs = b.regs := rfl
@[simp] theorem setSlot_force (s : Nat) (h : Slot → Slot) : (b.setSlot s h).force = b.force := rfl
@[simp] theorem setSlot_latch (s : Nat) (h : Slot → Slot) : (b.setSlot s h).latch = b.latch := rfl
@[simp] theorem setSlot_staged (s : Nat) (h : Slot → Slot) : (b.setSlot s h).staged = b.staged := rfl
@[simp] theorem setSlot_wafer (s : Nat) (h : Slot → Slot) : (b.setSlot s h).wafer = b.wafer := rfl
@[simp] theorem setSlot_fab (s : Nat) (h : Slot → Slot) : (b.setSlot s h).fab = b.fab := rfl
@[simp] theorem setSlot_host (s : Nat) (h : Slot → Slot) : (b.setSlot s h).host = b.host := rfl
@[simp] theorem setSlot_ring (s : Nat) (h : Slot → Slot) : (b.setSlot s h).ring = b.ring := rfl
@[simp] theorem setSlot_camp (s : Nat) (h : Slot → Slot) : (b.setSlot s h).camp = b.camp := rfl
@[simp] theorem setSlot_boot (s : Nat) (h : Slot → Slot) : (b.setSlot s h).boot = b.boot := rfl
@[simp] theorem setSlot_dbg (s : Nat) (h : Slot → Slot) : (b.setSlot s h).dbg = b.dbg := rfl
@[simp] theorem setSlot_out (s : Nat) (h : Slot → Slot) : (b.setSlot s h).out = b.out := rfl
@[simp] theorem setSlot_free (s : Nat) (h : Slot → Slot) : (b.setSlot s h).free = b.free := rfl
@[simp] theorem setSlot_rat (s : Nat) (h : Slot → Slot) : (b.setSlot s h).rat = b.rat := rfl
@[simp] theorem setSlot_modu (s : Nat) (h : Slot → Slot) : (b.setSlot s h).modu = b.modu := rfl
@[simp] theorem setSlot_tc (s : Nat) (h : Slot → Slot) : (b.setSlot s h).tc = b.tc := rfl
@[simp] theorem setSlot_arr (s : Nat) (h : Slot → Slot) : (b.setSlot s h).arr = b.arr := rfl
@[simp] theorem setSlot_att (s : Nat) (h : Slot → Slot) : (b.setSlot s h).att = b.att := rfl
@[simp] theorem setSlot_samp (s : Nat) (h : Slot → Slot) : (b.setSlot s h).samp = b.samp := rfl
@[simp] theorem setSlot_mem (s : Nat) (h : Slot → Slot) : (b.setSlot s h).mem = b.mem := rfl
@[simp] theorem setSlot_tier (s : Nat) (h : Slot → Slot) : (b.setSlot s h).tier = b.tier := rfl
@[simp] theorem setSlot_dram (s : Nat) (h : Slot → Slot) : (b.setSlot s h).dram = b.dram := rfl
@[simp] theorem setSlot_integ (s : Nat) (h : Slot → Slot) : (b.setSlot s h).integ = b.integ := rfl
@[simp] theorem setSlot_cellar (s : Nat) (h : Slot → Slot) : (b.setSlot s h).cellar = b.cellar := rfl
@[simp] theorem setSlot_page (s : Nat) (h : Slot → Slot) : (b.setSlot s h).page = b.page := rfl
@[simp] theorem setSlot_yg (s : Nat) (h : Slot → Slot) : (b.setSlot s h).yg = b.yg := rfl

@[simp] theorem setVc_regs (k : Nat) (x : VcSt) : (b.setVc k x).regs = b.regs := rfl
@[simp] theorem setVc_force (k : Nat) (x : VcSt) : (b.setVc k x).force = b.force := rfl
@[simp] theorem setVc_latch (k : Nat) (x : VcSt) : (b.setVc k x).latch = b.latch := rfl
@[simp] theorem setVc_staged (k : Nat) (x : VcSt) : (b.setVc k x).staged = b.staged := rfl
@[simp] theorem setVc_wafer (k : Nat) (x : VcSt) : (b.setVc k x).wafer = b.wafer := rfl
@[simp] theorem setVc_host (k : Nat) (x : VcSt) : (b.setVc k x).host = b.host := rfl
@[simp] theorem setVc_ring (k : Nat) (x : VcSt) : (b.setVc k x).ring = b.ring := rfl
@[simp] theorem setVc_camp (k : Nat) (x : VcSt) : (b.setVc k x).camp = b.camp := rfl
@[simp] theorem setVc_boot (k : Nat) (x : VcSt) : (b.setVc k x).boot = b.boot := rfl
@[simp] theorem setVc_dbg (k : Nat) (x : VcSt) : (b.setVc k x).dbg = b.dbg := rfl
@[simp] theorem setVc_out (k : Nat) (x : VcSt) : (b.setVc k x).out = b.out := rfl
@[simp] theorem setVc_free (k : Nat) (x : VcSt) : (b.setVc k x).free = b.free := rfl
@[simp] theorem setVc_rat (k : Nat) (x : VcSt) : (b.setVc k x).rat = b.rat := rfl
@[simp] theorem setVc_modu (k : Nat) (x : VcSt) : (b.setVc k x).modu = b.modu := rfl
@[simp] theorem setVc_tc (k : Nat) (x : VcSt) : (b.setVc k x).tc = b.tc := rfl
@[simp] theorem setVc_arr (k : Nat) (x : VcSt) : (b.setVc k x).arr = b.arr := rfl
@[simp] theorem setVc_att (k : Nat) (x : VcSt) : (b.setVc k x).att = b.att := rfl
@[simp] theorem setVc_samp (k : Nat) (x : VcSt) : (b.setVc k x).samp = b.samp := rfl
@[simp] theorem setVc_mem (k : Nat) (x : VcSt) : (b.setVc k x).mem = b.mem := rfl
@[simp] theorem setVc_tier (k : Nat) (x : VcSt) : (b.setVc k x).tier = b.tier := rfl
@[simp] theorem setVc_dram (k : Nat) (x : VcSt) : (b.setVc k x).dram = b.dram := rfl
@[simp] theorem setVc_integ (k : Nat) (x : VcSt) : (b.setVc k x).integ = b.integ := rfl
@[simp] theorem setVc_cellar (k : Nat) (x : VcSt) : (b.setVc k x).cellar = b.cellar := rfl
@[simp] theorem setVc_page (k : Nat) (x : VcSt) : (b.setVc k x).page = b.page := rfl
@[simp] theorem setVc_serve (k : Nat) (x : VcSt) : (b.setVc k x).serve = b.serve := rfl
@[simp] theorem setVc_yg (k : Nat) (x : VcSt) : (b.setVc k x).yg = b.yg := rfl

@[simp] theorem setWire_regs (k : Nat) (x : List Flit) : (b.setWire k x).regs = b.regs := rfl
@[simp] theorem setWire_force (k : Nat) (x : List Flit) : (b.setWire k x).force = b.force := rfl
@[simp] theorem setWire_latch (k : Nat) (x : List Flit) : (b.setWire k x).latch = b.latch := rfl
@[simp] theorem setWire_staged (k : Nat) (x : List Flit) : (b.setWire k x).staged = b.staged := rfl
@[simp] theorem setWire_wafer (k : Nat) (x : List Flit) : (b.setWire k x).wafer = b.wafer := rfl
@[simp] theorem setWire_host (k : Nat) (x : List Flit) : (b.setWire k x).host = b.host := rfl
@[simp] theorem setWire_ring (k : Nat) (x : List Flit) : (b.setWire k x).ring = b.ring := rfl
@[simp] theorem setWire_camp (k : Nat) (x : List Flit) : (b.setWire k x).camp = b.camp := rfl
@[simp] theorem setWire_boot (k : Nat) (x : List Flit) : (b.setWire k x).boot = b.boot := rfl
@[simp] theorem setWire_dbg (k : Nat) (x : List Flit) : (b.setWire k x).dbg = b.dbg := rfl
@[simp] theorem setWire_out (k : Nat) (x : List Flit) : (b.setWire k x).out = b.out := rfl
@[simp] theorem setWire_free (k : Nat) (x : List Flit) : (b.setWire k x).free = b.free := rfl
@[simp] theorem setWire_rat (k : Nat) (x : List Flit) : (b.setWire k x).rat = b.rat := rfl
@[simp] theorem setWire_modu (k : Nat) (x : List Flit) : (b.setWire k x).modu = b.modu := rfl
@[simp] theorem setWire_tc (k : Nat) (x : List Flit) : (b.setWire k x).tc = b.tc := rfl
@[simp] theorem setWire_arr (k : Nat) (x : List Flit) : (b.setWire k x).arr = b.arr := rfl
@[simp] theorem setWire_att (k : Nat) (x : List Flit) : (b.setWire k x).att = b.att := rfl
@[simp] theorem setWire_samp (k : Nat) (x : List Flit) : (b.setWire k x).samp = b.samp := rfl
@[simp] theorem setWire_mem (k : Nat) (x : List Flit) : (b.setWire k x).mem = b.mem := rfl
@[simp] theorem setWire_tier (k : Nat) (x : List Flit) : (b.setWire k x).tier = b.tier := rfl
@[simp] theorem setWire_dram (k : Nat) (x : List Flit) : (b.setWire k x).dram = b.dram := rfl
@[simp] theorem setWire_integ (k : Nat) (x : List Flit) : (b.setWire k x).integ = b.integ := rfl
@[simp] theorem setWire_cellar (k : Nat) (x : List Flit) : (b.setWire k x).cellar = b.cellar := rfl
@[simp] theorem setWire_page (k : Nat) (x : List Flit) : (b.setWire k x).page = b.page := rfl
@[simp] theorem setWire_serve (k : Nat) (x : List Flit) : (b.setWire k x).serve = b.serve := rfl
@[simp] theorem setWire_yg (k : Nat) (x : List Flit) : (b.setWire k x).yg = b.yg := rfl

@[simp] theorem setOut_regs (k : Nat) (x : OutSt) : (b.setOut k x).regs = b.regs := rfl
@[simp] theorem setOut_force (k : Nat) (x : OutSt) : (b.setOut k x).force = b.force := rfl
@[simp] theorem setOut_latch (k : Nat) (x : OutSt) : (b.setOut k x).latch = b.latch := rfl
@[simp] theorem setOut_staged (k : Nat) (x : OutSt) : (b.setOut k x).staged = b.staged := rfl
@[simp] theorem setOut_wafer (k : Nat) (x : OutSt) : (b.setOut k x).wafer = b.wafer := rfl
@[simp] theorem setOut_host (k : Nat) (x : OutSt) : (b.setOut k x).host = b.host := rfl
@[simp] theorem setOut_ring (k : Nat) (x : OutSt) : (b.setOut k x).ring = b.ring := rfl
@[simp] theorem setOut_camp (k : Nat) (x : OutSt) : (b.setOut k x).camp = b.camp := rfl
@[simp] theorem setOut_boot (k : Nat) (x : OutSt) : (b.setOut k x).boot = b.boot := rfl
@[simp] theorem setOut_dbg (k : Nat) (x : OutSt) : (b.setOut k x).dbg = b.dbg := rfl
@[simp] theorem setOut_out (k : Nat) (x : OutSt) : (b.setOut k x).out = b.out := rfl
@[simp] theorem setOut_free (k : Nat) (x : OutSt) : (b.setOut k x).free = b.free := rfl
@[simp] theorem setOut_rat (k : Nat) (x : OutSt) : (b.setOut k x).rat = b.rat := rfl
@[simp] theorem setOut_modu (k : Nat) (x : OutSt) : (b.setOut k x).modu = b.modu := rfl
@[simp] theorem setOut_tc (k : Nat) (x : OutSt) : (b.setOut k x).tc = b.tc := rfl
@[simp] theorem setOut_arr (k : Nat) (x : OutSt) : (b.setOut k x).arr = b.arr := rfl
@[simp] theorem setOut_att (k : Nat) (x : OutSt) : (b.setOut k x).att = b.att := rfl
@[simp] theorem setOut_samp (k : Nat) (x : OutSt) : (b.setOut k x).samp = b.samp := rfl
@[simp] theorem setOut_mem (k : Nat) (x : OutSt) : (b.setOut k x).mem = b.mem := rfl
@[simp] theorem setOut_tier (k : Nat) (x : OutSt) : (b.setOut k x).tier = b.tier := rfl
@[simp] theorem setOut_dram (k : Nat) (x : OutSt) : (b.setOut k x).dram = b.dram := rfl
@[simp] theorem setOut_integ (k : Nat) (x : OutSt) : (b.setOut k x).integ = b.integ := rfl
@[simp] theorem setOut_cellar (k : Nat) (x : OutSt) : (b.setOut k x).cellar = b.cellar := rfl
@[simp] theorem setOut_page (k : Nat) (x : OutSt) : (b.setOut k x).page = b.page := rfl
@[simp] theorem setOut_serve (k : Nat) (x : OutSt) : (b.setOut k x).serve = b.serve := rfl
@[simp] theorem setOut_yg (k : Nat) (x : OutSt) : (b.setOut k x).yg = b.yg := rfl

@[simp] theorem setPage_regs (f fr : Nat) (x : Option PageEnt) : (b.setPage f fr x).regs = b.regs := rfl
@[simp] theorem setPage_force (f fr : Nat) (x : Option PageEnt) : (b.setPage f fr x).force = b.force := rfl
@[simp] theorem setPage_latch (f fr : Nat) (x : Option PageEnt) : (b.setPage f fr x).latch = b.latch := rfl
@[simp] theorem setPage_staged (f fr : Nat) (x : Option PageEnt) : (b.setPage f fr x).staged = b.staged := rfl
@[simp] theorem setPage_wafer (f fr : Nat) (x : Option PageEnt) : (b.setPage f fr x).wafer = b.wafer := rfl
@[simp] theorem setPage_fab (f fr : Nat) (x : Option PageEnt) : (b.setPage f fr x).fab = b.fab := rfl
@[simp] theorem setPage_host (f fr : Nat) (x : Option PageEnt) : (b.setPage f fr x).host = b.host := rfl
@[simp] theorem setPage_ring (f fr : Nat) (x : Option PageEnt) : (b.setPage f fr x).ring = b.ring := rfl
@[simp] theorem setPage_camp (f fr : Nat) (x : Option PageEnt) : (b.setPage f fr x).camp = b.camp := rfl
@[simp] theorem setPage_boot (f fr : Nat) (x : Option PageEnt) : (b.setPage f fr x).boot = b.boot := rfl
@[simp] theorem setPage_dbg (f fr : Nat) (x : Option PageEnt) : (b.setPage f fr x).dbg = b.dbg := rfl
@[simp] theorem setPage_out (f fr : Nat) (x : Option PageEnt) : (b.setPage f fr x).out = b.out := rfl
@[simp] theorem setPage_free (f fr : Nat) (x : Option PageEnt) : (b.setPage f fr x).free = b.free := rfl
@[simp] theorem setPage_rat (f fr : Nat) (x : Option PageEnt) : (b.setPage f fr x).rat = b.rat := rfl
@[simp] theorem setPage_modu (f fr : Nat) (x : Option PageEnt) : (b.setPage f fr x).modu = b.modu := rfl
@[simp] theorem setPage_tc (f fr : Nat) (x : Option PageEnt) : (b.setPage f fr x).tc = b.tc := rfl
@[simp] theorem setPage_arr (f fr : Nat) (x : Option PageEnt) : (b.setPage f fr x).arr = b.arr := rfl
@[simp] theorem setPage_att (f fr : Nat) (x : Option PageEnt) : (b.setPage f fr x).att = b.att := rfl
@[simp] theorem setPage_samp (f fr : Nat) (x : Option PageEnt) : (b.setPage f fr x).samp = b.samp := rfl
@[simp] theorem setPage_mem (f fr : Nat) (x : Option PageEnt) : (b.setPage f fr x).mem = b.mem := rfl
@[simp] theorem setPage_tier (f fr : Nat) (x : Option PageEnt) : (b.setPage f fr x).tier = b.tier := rfl
@[simp] theorem setPage_dram (f fr : Nat) (x : Option PageEnt) : (b.setPage f fr x).dram = b.dram := rfl
@[simp] theorem setPage_integ (f fr : Nat) (x : Option PageEnt) : (b.setPage f fr x).integ = b.integ := rfl
@[simp] theorem setPage_cellar (f fr : Nat) (x : Option PageEnt) : (b.setPage f fr x).cellar = b.cellar := rfl
@[simp] theorem setPage_serve (f fr : Nat) (x : Option PageEnt) : (b.setPage f fr x).serve = b.serve := rfl
@[simp] theorem setPage_yg (f fr : Nat) (x : Option PageEnt) : (b.setPage f fr x).yg = b.yg := rfl

@[simp] theorem setPool_regs (m : Model) (f : Nat) (l : List Nat) : (b.setPool m f l).regs = b.regs := rfl
@[simp] theorem setPool_force (m : Model) (f : Nat) (l : List Nat) : (b.setPool m f l).force = b.force := rfl
@[simp] theorem setPool_latch (m : Model) (f : Nat) (l : List Nat) : (b.setPool m f l).latch = b.latch := rfl
@[simp] theorem setPool_staged (m : Model) (f : Nat) (l : List Nat) : (b.setPool m f l).staged = b.staged := rfl
@[simp] theorem setPool_wafer (m : Model) (f : Nat) (l : List Nat) : (b.setPool m f l).wafer = b.wafer := rfl
@[simp] theorem setPool_fab (m : Model) (f : Nat) (l : List Nat) : (b.setPool m f l).fab = b.fab := rfl
@[simp] theorem setPool_host (m : Model) (f : Nat) (l : List Nat) : (b.setPool m f l).host = b.host := rfl
@[simp] theorem setPool_ring (m : Model) (f : Nat) (l : List Nat) : (b.setPool m f l).ring = b.ring := rfl
@[simp] theorem setPool_camp (m : Model) (f : Nat) (l : List Nat) : (b.setPool m f l).camp = b.camp := rfl
@[simp] theorem setPool_boot (m : Model) (f : Nat) (l : List Nat) : (b.setPool m f l).boot = b.boot := rfl
@[simp] theorem setPool_dbg (m : Model) (f : Nat) (l : List Nat) : (b.setPool m f l).dbg = b.dbg := rfl
@[simp] theorem setPool_out (m : Model) (f : Nat) (l : List Nat) : (b.setPool m f l).out = b.out := rfl
@[simp] theorem setPool_free (m : Model) (f : Nat) (l : List Nat) : (b.setPool m f l).free = b.free := rfl
@[simp] theorem setPool_rat (m : Model) (f : Nat) (l : List Nat) : (b.setPool m f l).rat = b.rat := rfl
@[simp] theorem setPool_modu (m : Model) (f : Nat) (l : List Nat) : (b.setPool m f l).modu = b.modu := rfl
@[simp] theorem setPool_tc (m : Model) (f : Nat) (l : List Nat) : (b.setPool m f l).tc = b.tc := rfl
@[simp] theorem setPool_arr (m : Model) (f : Nat) (l : List Nat) : (b.setPool m f l).arr = b.arr := rfl
@[simp] theorem setPool_att (m : Model) (f : Nat) (l : List Nat) : (b.setPool m f l).att = b.att := rfl
@[simp] theorem setPool_samp (m : Model) (f : Nat) (l : List Nat) : (b.setPool m f l).samp = b.samp := rfl
@[simp] theorem setPool_mem (m : Model) (f : Nat) (l : List Nat) : (b.setPool m f l).mem = b.mem := rfl
@[simp] theorem setPool_tier (m : Model) (f : Nat) (l : List Nat) : (b.setPool m f l).tier = b.tier := rfl
@[simp] theorem setPool_dram (m : Model) (f : Nat) (l : List Nat) : (b.setPool m f l).dram = b.dram := rfl
@[simp] theorem setPool_integ (m : Model) (f : Nat) (l : List Nat) : (b.setPool m f l).integ = b.integ := rfl
@[simp] theorem setPool_cellar (m : Model) (f : Nat) (l : List Nat) : (b.setPool m f l).cellar = b.cellar := rfl
@[simp] theorem setPool_serve (m : Model) (f : Nat) (l : List Nat) : (b.setPool m f l).serve = b.serve := rfl
@[simp] theorem setPool_yg (m : Model) (f : Nat) (l : List Nat) : (b.setPool m f l).yg = b.yg := rfl

@[simp] theorem setFn_regs (fn : Nat) (h : FnSt → FnSt) : (b.setFn fn h).regs = b.regs := rfl
@[simp] theorem setFn_force (fn : Nat) (h : FnSt → FnSt) : (b.setFn fn h).force = b.force := rfl
@[simp] theorem setFn_latch (fn : Nat) (h : FnSt → FnSt) : (b.setFn fn h).latch = b.latch := rfl
@[simp] theorem setFn_staged (fn : Nat) (h : FnSt → FnSt) : (b.setFn fn h).staged = b.staged := rfl
@[simp] theorem setFn_wafer (fn : Nat) (h : FnSt → FnSt) : (b.setFn fn h).wafer = b.wafer := rfl
@[simp] theorem setFn_fab (fn : Nat) (h : FnSt → FnSt) : (b.setFn fn h).fab = b.fab := rfl
@[simp] theorem setFn_ring (fn : Nat) (h : FnSt → FnSt) : (b.setFn fn h).ring = b.ring := rfl
@[simp] theorem setFn_camp (fn : Nat) (h : FnSt → FnSt) : (b.setFn fn h).camp = b.camp := rfl
@[simp] theorem setFn_boot (fn : Nat) (h : FnSt → FnSt) : (b.setFn fn h).boot = b.boot := rfl
@[simp] theorem setFn_dbg (fn : Nat) (h : FnSt → FnSt) : (b.setFn fn h).dbg = b.dbg := rfl
@[simp] theorem setFn_out (fn : Nat) (h : FnSt → FnSt) : (b.setFn fn h).out = b.out := rfl
@[simp] theorem setFn_free (fn : Nat) (h : FnSt → FnSt) : (b.setFn fn h).free = b.free := rfl
@[simp] theorem setFn_rat (fn : Nat) (h : FnSt → FnSt) : (b.setFn fn h).rat = b.rat := rfl
@[simp] theorem setFn_modu (fn : Nat) (h : FnSt → FnSt) : (b.setFn fn h).modu = b.modu := rfl
@[simp] theorem setFn_tc (fn : Nat) (h : FnSt → FnSt) : (b.setFn fn h).tc = b.tc := rfl
@[simp] theorem setFn_arr (fn : Nat) (h : FnSt → FnSt) : (b.setFn fn h).arr = b.arr := rfl
@[simp] theorem setFn_att (fn : Nat) (h : FnSt → FnSt) : (b.setFn fn h).att = b.att := rfl
@[simp] theorem setFn_samp (fn : Nat) (h : FnSt → FnSt) : (b.setFn fn h).samp = b.samp := rfl
@[simp] theorem setFn_mem (fn : Nat) (h : FnSt → FnSt) : (b.setFn fn h).mem = b.mem := rfl
@[simp] theorem setFn_tier (fn : Nat) (h : FnSt → FnSt) : (b.setFn fn h).tier = b.tier := rfl
@[simp] theorem setFn_dram (fn : Nat) (h : FnSt → FnSt) : (b.setFn fn h).dram = b.dram := rfl
@[simp] theorem setFn_integ (fn : Nat) (h : FnSt → FnSt) : (b.setFn fn h).integ = b.integ := rfl
@[simp] theorem setFn_cellar (fn : Nat) (h : FnSt → FnSt) : (b.setFn fn h).cellar = b.cellar := rfl
@[simp] theorem setFn_page (fn : Nat) (h : FnSt → FnSt) : (b.setFn fn h).page = b.page := rfl
@[simp] theorem setFn_serve (fn : Nat) (h : FnSt → FnSt) : (b.setFn fn h).serve = b.serve := rfl
@[simp] theorem setFn_yg (fn : Nat) (h : FnSt → FnSt) : (b.setFn fn h).yg = b.yg := rfl

@[simp] theorem setSlotUse_regs (f slot : Nat) (u : Option SlotUse) : (b.setSlotUse f slot u).regs = b.regs := rfl
@[simp] theorem setSlotUse_force (f slot : Nat) (u : Option SlotUse) : (b.setSlotUse f slot u).force = b.force := rfl
@[simp] theorem setSlotUse_latch (f slot : Nat) (u : Option SlotUse) : (b.setSlotUse f slot u).latch = b.latch := rfl
@[simp] theorem setSlotUse_staged (f slot : Nat) (u : Option SlotUse) : (b.setSlotUse f slot u).staged = b.staged := rfl
@[simp] theorem setSlotUse_wafer (f slot : Nat) (u : Option SlotUse) : (b.setSlotUse f slot u).wafer = b.wafer := rfl
@[simp] theorem setSlotUse_fab (f slot : Nat) (u : Option SlotUse) : (b.setSlotUse f slot u).fab = b.fab := rfl
@[simp] theorem setSlotUse_ring (f slot : Nat) (u : Option SlotUse) : (b.setSlotUse f slot u).ring = b.ring := rfl
@[simp] theorem setSlotUse_camp (f slot : Nat) (u : Option SlotUse) : (b.setSlotUse f slot u).camp = b.camp := rfl
@[simp] theorem setSlotUse_boot (f slot : Nat) (u : Option SlotUse) : (b.setSlotUse f slot u).boot = b.boot := rfl
@[simp] theorem setSlotUse_dbg (f slot : Nat) (u : Option SlotUse) : (b.setSlotUse f slot u).dbg = b.dbg := rfl
@[simp] theorem setSlotUse_out (f slot : Nat) (u : Option SlotUse) : (b.setSlotUse f slot u).out = b.out := rfl
@[simp] theorem setSlotUse_free (f slot : Nat) (u : Option SlotUse) : (b.setSlotUse f slot u).free = b.free := rfl
@[simp] theorem setSlotUse_rat (f slot : Nat) (u : Option SlotUse) : (b.setSlotUse f slot u).rat = b.rat := rfl
@[simp] theorem setSlotUse_modu (f slot : Nat) (u : Option SlotUse) : (b.setSlotUse f slot u).modu = b.modu := rfl
@[simp] theorem setSlotUse_tc (f slot : Nat) (u : Option SlotUse) : (b.setSlotUse f slot u).tc = b.tc := rfl
@[simp] theorem setSlotUse_arr (f slot : Nat) (u : Option SlotUse) : (b.setSlotUse f slot u).arr = b.arr := rfl
@[simp] theorem setSlotUse_att (f slot : Nat) (u : Option SlotUse) : (b.setSlotUse f slot u).att = b.att := rfl
@[simp] theorem setSlotUse_samp (f slot : Nat) (u : Option SlotUse) : (b.setSlotUse f slot u).samp = b.samp := rfl
@[simp] theorem setSlotUse_mem (f slot : Nat) (u : Option SlotUse) : (b.setSlotUse f slot u).mem = b.mem := rfl
@[simp] theorem setSlotUse_tier (f slot : Nat) (u : Option SlotUse) : (b.setSlotUse f slot u).tier = b.tier := rfl
@[simp] theorem setSlotUse_dram (f slot : Nat) (u : Option SlotUse) : (b.setSlotUse f slot u).dram = b.dram := rfl
@[simp] theorem setSlotUse_integ (f slot : Nat) (u : Option SlotUse) : (b.setSlotUse f slot u).integ = b.integ := rfl
@[simp] theorem setSlotUse_cellar (f slot : Nat) (u : Option SlotUse) : (b.setSlotUse f slot u).cellar = b.cellar := rfl
@[simp] theorem setSlotUse_page (f slot : Nat) (u : Option SlotUse) : (b.setSlotUse f slot u).page = b.page := rfl
@[simp] theorem setSlotUse_serve (f slot : Nat) (u : Option SlotUse) : (b.setSlotUse f slot u).serve = b.serve := rfl
@[simp] theorem setSlotUse_yg (f slot : Nat) (u : Option SlotUse) : (b.setSlotUse f slot u).yg = b.yg := rfl

@[simp] theorem setDma_regs (j : DmaJob) : (b.setDma j).regs = b.regs := rfl
@[simp] theorem setDma_force (j : DmaJob) : (b.setDma j).force = b.force := rfl
@[simp] theorem setDma_latch (j : DmaJob) : (b.setDma j).latch = b.latch := rfl
@[simp] theorem setDma_staged (j : DmaJob) : (b.setDma j).staged = b.staged := rfl
@[simp] theorem setDma_wafer (j : DmaJob) : (b.setDma j).wafer = b.wafer := rfl
@[simp] theorem setDma_fab (j : DmaJob) : (b.setDma j).fab = b.fab := rfl
@[simp] theorem setDma_ring (j : DmaJob) : (b.setDma j).ring = b.ring := rfl
@[simp] theorem setDma_camp (j : DmaJob) : (b.setDma j).camp = b.camp := rfl
@[simp] theorem setDma_boot (j : DmaJob) : (b.setDma j).boot = b.boot := rfl
@[simp] theorem setDma_dbg (j : DmaJob) : (b.setDma j).dbg = b.dbg := rfl
@[simp] theorem setDma_out (j : DmaJob) : (b.setDma j).out = b.out := rfl
@[simp] theorem setDma_free (j : DmaJob) : (b.setDma j).free = b.free := rfl
@[simp] theorem setDma_rat (j : DmaJob) : (b.setDma j).rat = b.rat := rfl
@[simp] theorem setDma_modu (j : DmaJob) : (b.setDma j).modu = b.modu := rfl
@[simp] theorem setDma_tc (j : DmaJob) : (b.setDma j).tc = b.tc := rfl
@[simp] theorem setDma_arr (j : DmaJob) : (b.setDma j).arr = b.arr := rfl
@[simp] theorem setDma_att (j : DmaJob) : (b.setDma j).att = b.att := rfl
@[simp] theorem setDma_samp (j : DmaJob) : (b.setDma j).samp = b.samp := rfl
@[simp] theorem setDma_mem (j : DmaJob) : (b.setDma j).mem = b.mem := rfl
@[simp] theorem setDma_tier (j : DmaJob) : (b.setDma j).tier = b.tier := rfl
@[simp] theorem setDma_dram (j : DmaJob) : (b.setDma j).dram = b.dram := rfl
@[simp] theorem setDma_integ (j : DmaJob) : (b.setDma j).integ = b.integ := rfl
@[simp] theorem setDma_cellar (j : DmaJob) : (b.setDma j).cellar = b.cellar := rfl
@[simp] theorem setDma_page (j : DmaJob) : (b.setDma j).page = b.page := rfl
@[simp] theorem setDma_serve (j : DmaJob) : (b.setDma j).serve = b.serve := rfl
@[simp] theorem setDma_yg (j : DmaJob) : (b.setDma j).yg = b.yg := rfl

@[simp] theorem setPhase_regs (c : Nat) (h : PhaseSt → PhaseSt) : (b.setPhase c h).regs = b.regs := rfl
@[simp] theorem setPhase_force (c : Nat) (h : PhaseSt → PhaseSt) : (b.setPhase c h).force = b.force := rfl
@[simp] theorem setPhase_latch (c : Nat) (h : PhaseSt → PhaseSt) : (b.setPhase c h).latch = b.latch := rfl
@[simp] theorem setPhase_staged (c : Nat) (h : PhaseSt → PhaseSt) : (b.setPhase c h).staged = b.staged := rfl
@[simp] theorem setPhase_wafer (c : Nat) (h : PhaseSt → PhaseSt) : (b.setPhase c h).wafer = b.wafer := rfl
@[simp] theorem setPhase_fab (c : Nat) (h : PhaseSt → PhaseSt) : (b.setPhase c h).fab = b.fab := rfl
@[simp] theorem setPhase_host (c : Nat) (h : PhaseSt → PhaseSt) : (b.setPhase c h).host = b.host := rfl
@[simp] theorem setPhase_ring (c : Nat) (h : PhaseSt → PhaseSt) : (b.setPhase c h).ring = b.ring := rfl
@[simp] theorem setPhase_camp (c : Nat) (h : PhaseSt → PhaseSt) : (b.setPhase c h).camp = b.camp := rfl
@[simp] theorem setPhase_boot (c : Nat) (h : PhaseSt → PhaseSt) : (b.setPhase c h).boot = b.boot := rfl
@[simp] theorem setPhase_dbg (c : Nat) (h : PhaseSt → PhaseSt) : (b.setPhase c h).dbg = b.dbg := rfl
@[simp] theorem setPhase_out (c : Nat) (h : PhaseSt → PhaseSt) : (b.setPhase c h).out = b.out := rfl
@[simp] theorem setPhase_free (c : Nat) (h : PhaseSt → PhaseSt) : (b.setPhase c h).free = b.free := rfl
@[simp] theorem setPhase_rat (c : Nat) (h : PhaseSt → PhaseSt) : (b.setPhase c h).rat = b.rat := rfl
@[simp] theorem setPhase_modu (c : Nat) (h : PhaseSt → PhaseSt) : (b.setPhase c h).modu = b.modu := rfl
@[simp] theorem setPhase_tc (c : Nat) (h : PhaseSt → PhaseSt) : (b.setPhase c h).tc = b.tc := rfl
@[simp] theorem setPhase_arr (c : Nat) (h : PhaseSt → PhaseSt) : (b.setPhase c h).arr = b.arr := rfl
@[simp] theorem setPhase_att (c : Nat) (h : PhaseSt → PhaseSt) : (b.setPhase c h).att = b.att := rfl
@[simp] theorem setPhase_samp (c : Nat) (h : PhaseSt → PhaseSt) : (b.setPhase c h).samp = b.samp := rfl
@[simp] theorem setPhase_mem (c : Nat) (h : PhaseSt → PhaseSt) : (b.setPhase c h).mem = b.mem := rfl
@[simp] theorem setPhase_tier (c : Nat) (h : PhaseSt → PhaseSt) : (b.setPhase c h).tier = b.tier := rfl
@[simp] theorem setPhase_dram (c : Nat) (h : PhaseSt → PhaseSt) : (b.setPhase c h).dram = b.dram := rfl
@[simp] theorem setPhase_integ (c : Nat) (h : PhaseSt → PhaseSt) : (b.setPhase c h).integ = b.integ := rfl
@[simp] theorem setPhase_cellar (c : Nat) (h : PhaseSt → PhaseSt) : (b.setPhase c h).cellar = b.cellar := rfl
@[simp] theorem setPhase_page (c : Nat) (h : PhaseSt → PhaseSt) : (b.setPhase c h).page = b.page := rfl
@[simp] theorem setPhase_yg (c : Nat) (h : PhaseSt → PhaseSt) : (b.setPhase c h).yg = b.yg := rfl

@[simp] theorem setModel_regs (c id : Nat) (h : Model → Model) : (b.setModel c id h).regs = b.regs := rfl
@[simp] theorem setModel_force (c id : Nat) (h : Model → Model) : (b.setModel c id h).force = b.force := rfl
@[simp] theorem setModel_latch (c id : Nat) (h : Model → Model) : (b.setModel c id h).latch = b.latch := rfl
@[simp] theorem setModel_staged (c id : Nat) (h : Model → Model) : (b.setModel c id h).staged = b.staged := rfl
@[simp] theorem setModel_wafer (c id : Nat) (h : Model → Model) : (b.setModel c id h).wafer = b.wafer := rfl
@[simp] theorem setModel_fab (c id : Nat) (h : Model → Model) : (b.setModel c id h).fab = b.fab := rfl
@[simp] theorem setModel_host (c id : Nat) (h : Model → Model) : (b.setModel c id h).host = b.host := rfl
@[simp] theorem setModel_ring (c id : Nat) (h : Model → Model) : (b.setModel c id h).ring = b.ring := rfl
@[simp] theorem setModel_camp (c id : Nat) (h : Model → Model) : (b.setModel c id h).camp = b.camp := rfl
@[simp] theorem setModel_boot (c id : Nat) (h : Model → Model) : (b.setModel c id h).boot = b.boot := rfl
@[simp] theorem setModel_dbg (c id : Nat) (h : Model → Model) : (b.setModel c id h).dbg = b.dbg := rfl
@[simp] theorem setModel_out (c id : Nat) (h : Model → Model) : (b.setModel c id h).out = b.out := rfl
@[simp] theorem setModel_free (c id : Nat) (h : Model → Model) : (b.setModel c id h).free = b.free := rfl
@[simp] theorem setModel_rat (c id : Nat) (h : Model → Model) : (b.setModel c id h).rat = b.rat := rfl
@[simp] theorem setModel_modu (c id : Nat) (h : Model → Model) : (b.setModel c id h).modu = b.modu := rfl
@[simp] theorem setModel_tc (c id : Nat) (h : Model → Model) : (b.setModel c id h).tc = b.tc := rfl
@[simp] theorem setModel_arr (c id : Nat) (h : Model → Model) : (b.setModel c id h).arr = b.arr := rfl
@[simp] theorem setModel_att (c id : Nat) (h : Model → Model) : (b.setModel c id h).att = b.att := rfl
@[simp] theorem setModel_samp (c id : Nat) (h : Model → Model) : (b.setModel c id h).samp = b.samp := rfl
@[simp] theorem setModel_mem (c id : Nat) (h : Model → Model) : (b.setModel c id h).mem = b.mem := rfl
@[simp] theorem setModel_tier (c id : Nat) (h : Model → Model) : (b.setModel c id h).tier = b.tier := rfl
@[simp] theorem setModel_dram (c id : Nat) (h : Model → Model) : (b.setModel c id h).dram = b.dram := rfl
@[simp] theorem setModel_integ (c id : Nat) (h : Model → Model) : (b.setModel c id h).integ = b.integ := rfl
@[simp] theorem setModel_cellar (c id : Nat) (h : Model → Model) : (b.setModel c id h).cellar = b.cellar := rfl
@[simp] theorem setModel_page (c id : Nat) (h : Model → Model) : (b.setModel c id h).page = b.page := rfl
@[simp] theorem setModel_yg (c id : Nat) (h : Model → Model) : (b.setModel c id h).yg = b.yg := rfl

@[simp] theorem setMove_regs (f g : Nat) (run : Bool) (h : Move → Move) : (b.setMove f g run h).regs = b.regs := rfl
@[simp] theorem setMove_force (f g : Nat) (run : Bool) (h : Move → Move) : (b.setMove f g run h).force = b.force := rfl
@[simp] theorem setMove_latch (f g : Nat) (run : Bool) (h : Move → Move) : (b.setMove f g run h).latch = b.latch := rfl
@[simp] theorem setMove_staged (f g : Nat) (run : Bool) (h : Move → Move) : (b.setMove f g run h).staged = b.staged := rfl
@[simp] theorem setMove_wafer (f g : Nat) (run : Bool) (h : Move → Move) : (b.setMove f g run h).wafer = b.wafer := rfl
@[simp] theorem setMove_fab (f g : Nat) (run : Bool) (h : Move → Move) : (b.setMove f g run h).fab = b.fab := rfl
@[simp] theorem setMove_host (f g : Nat) (run : Bool) (h : Move → Move) : (b.setMove f g run h).host = b.host := rfl
@[simp] theorem setMove_ring (f g : Nat) (run : Bool) (h : Move → Move) : (b.setMove f g run h).ring = b.ring := rfl
@[simp] theorem setMove_camp (f g : Nat) (run : Bool) (h : Move → Move) : (b.setMove f g run h).camp = b.camp := rfl
@[simp] theorem setMove_boot (f g : Nat) (run : Bool) (h : Move → Move) : (b.setMove f g run h).boot = b.boot := rfl
@[simp] theorem setMove_dbg (f g : Nat) (run : Bool) (h : Move → Move) : (b.setMove f g run h).dbg = b.dbg := rfl
@[simp] theorem setMove_out (f g : Nat) (run : Bool) (h : Move → Move) : (b.setMove f g run h).out = b.out := rfl
@[simp] theorem setMove_free (f g : Nat) (run : Bool) (h : Move → Move) : (b.setMove f g run h).free = b.free := rfl
@[simp] theorem setMove_rat (f g : Nat) (run : Bool) (h : Move → Move) : (b.setMove f g run h).rat = b.rat := rfl
@[simp] theorem setMove_modu (f g : Nat) (run : Bool) (h : Move → Move) : (b.setMove f g run h).modu = b.modu := rfl
@[simp] theorem setMove_tc (f g : Nat) (run : Bool) (h : Move → Move) : (b.setMove f g run h).tc = b.tc := rfl
@[simp] theorem setMove_arr (f g : Nat) (run : Bool) (h : Move → Move) : (b.setMove f g run h).arr = b.arr := rfl
@[simp] theorem setMove_att (f g : Nat) (run : Bool) (h : Move → Move) : (b.setMove f g run h).att = b.att := rfl
@[simp] theorem setMove_samp (f g : Nat) (run : Bool) (h : Move → Move) : (b.setMove f g run h).samp = b.samp := rfl
@[simp] theorem setMove_mem (f g : Nat) (run : Bool) (h : Move → Move) : (b.setMove f g run h).mem = b.mem := rfl
@[simp] theorem setMove_dram (f g : Nat) (run : Bool) (h : Move → Move) : (b.setMove f g run h).dram = b.dram := rfl
@[simp] theorem setMove_integ (f g : Nat) (run : Bool) (h : Move → Move) : (b.setMove f g run h).integ = b.integ := rfl
@[simp] theorem setMove_cellar (f g : Nat) (run : Bool) (h : Move → Move) : (b.setMove f g run h).cellar = b.cellar := rfl
@[simp] theorem setMove_page (f g : Nat) (run : Bool) (h : Move → Move) : (b.setMove f g run h).page = b.page := rfl
@[simp] theorem setMove_serve (f g : Nat) (run : Bool) (h : Move → Move) : (b.setMove f g run h).serve = b.serve := rfl
@[simp] theorem setMove_yg (f g : Nat) (run : Bool) (h : Move → Move) : (b.setMove f g run h).yg = b.yg := rfl

@[simp] theorem setAnnounce_regs (c layer expert : Nat) (h : Announce → Announce) : (b.setAnnounce c layer expert h).regs = b.regs := rfl
@[simp] theorem setAnnounce_force (c layer expert : Nat) (h : Announce → Announce) : (b.setAnnounce c layer expert h).force = b.force := rfl
@[simp] theorem setAnnounce_latch (c layer expert : Nat) (h : Announce → Announce) : (b.setAnnounce c layer expert h).latch = b.latch := rfl
@[simp] theorem setAnnounce_staged (c layer expert : Nat) (h : Announce → Announce) : (b.setAnnounce c layer expert h).staged = b.staged := rfl
@[simp] theorem setAnnounce_wafer (c layer expert : Nat) (h : Announce → Announce) : (b.setAnnounce c layer expert h).wafer = b.wafer := rfl
@[simp] theorem setAnnounce_fab (c layer expert : Nat) (h : Announce → Announce) : (b.setAnnounce c layer expert h).fab = b.fab := rfl
@[simp] theorem setAnnounce_host (c layer expert : Nat) (h : Announce → Announce) : (b.setAnnounce c layer expert h).host = b.host := rfl
@[simp] theorem setAnnounce_ring (c layer expert : Nat) (h : Announce → Announce) : (b.setAnnounce c layer expert h).ring = b.ring := rfl
@[simp] theorem setAnnounce_camp (c layer expert : Nat) (h : Announce → Announce) : (b.setAnnounce c layer expert h).camp = b.camp := rfl
@[simp] theorem setAnnounce_boot (c layer expert : Nat) (h : Announce → Announce) : (b.setAnnounce c layer expert h).boot = b.boot := rfl
@[simp] theorem setAnnounce_dbg (c layer expert : Nat) (h : Announce → Announce) : (b.setAnnounce c layer expert h).dbg = b.dbg := rfl
@[simp] theorem setAnnounce_out (c layer expert : Nat) (h : Announce → Announce) : (b.setAnnounce c layer expert h).out = b.out := rfl
@[simp] theorem setAnnounce_free (c layer expert : Nat) (h : Announce → Announce) : (b.setAnnounce c layer expert h).free = b.free := rfl
@[simp] theorem setAnnounce_rat (c layer expert : Nat) (h : Announce → Announce) : (b.setAnnounce c layer expert h).rat = b.rat := rfl
@[simp] theorem setAnnounce_modu (c layer expert : Nat) (h : Announce → Announce) : (b.setAnnounce c layer expert h).modu = b.modu := rfl
@[simp] theorem setAnnounce_tc (c layer expert : Nat) (h : Announce → Announce) : (b.setAnnounce c layer expert h).tc = b.tc := rfl
@[simp] theorem setAnnounce_arr (c layer expert : Nat) (h : Announce → Announce) : (b.setAnnounce c layer expert h).arr = b.arr := rfl
@[simp] theorem setAnnounce_att (c layer expert : Nat) (h : Announce → Announce) : (b.setAnnounce c layer expert h).att = b.att := rfl
@[simp] theorem setAnnounce_samp (c layer expert : Nat) (h : Announce → Announce) : (b.setAnnounce c layer expert h).samp = b.samp := rfl
@[simp] theorem setAnnounce_mem (c layer expert : Nat) (h : Announce → Announce) : (b.setAnnounce c layer expert h).mem = b.mem := rfl
@[simp] theorem setAnnounce_dram (c layer expert : Nat) (h : Announce → Announce) : (b.setAnnounce c layer expert h).dram = b.dram := rfl
@[simp] theorem setAnnounce_integ (c layer expert : Nat) (h : Announce → Announce) : (b.setAnnounce c layer expert h).integ = b.integ := rfl
@[simp] theorem setAnnounce_cellar (c layer expert : Nat) (h : Announce → Announce) : (b.setAnnounce c layer expert h).cellar = b.cellar := rfl
@[simp] theorem setAnnounce_page (c layer expert : Nat) (h : Announce → Announce) : (b.setAnnounce c layer expert h).page = b.page := rfl
@[simp] theorem setAnnounce_serve (c layer expert : Nat) (h : Announce → Announce) : (b.setAnnounce c layer expert h).serve = b.serve := rfl
@[simp] theorem setAnnounce_yg (c layer expert : Nat) (h : Announce → Announce) : (b.setAnnounce c layer expert h).yg = b.yg := rfl

@[simp] theorem setImage_regs (id : Nat) (h : Image → Image) : (b.setImage id h).regs = b.regs := rfl
@[simp] theorem setImage_force (id : Nat) (h : Image → Image) : (b.setImage id h).force = b.force := rfl
@[simp] theorem setImage_latch (id : Nat) (h : Image → Image) : (b.setImage id h).latch = b.latch := rfl
@[simp] theorem setImage_staged (id : Nat) (h : Image → Image) : (b.setImage id h).staged = b.staged := rfl
@[simp] theorem setImage_wafer (id : Nat) (h : Image → Image) : (b.setImage id h).wafer = b.wafer := rfl
@[simp] theorem setImage_fab (id : Nat) (h : Image → Image) : (b.setImage id h).fab = b.fab := rfl
@[simp] theorem setImage_host (id : Nat) (h : Image → Image) : (b.setImage id h).host = b.host := rfl
@[simp] theorem setImage_ring (id : Nat) (h : Image → Image) : (b.setImage id h).ring = b.ring := rfl
@[simp] theorem setImage_camp (id : Nat) (h : Image → Image) : (b.setImage id h).camp = b.camp := rfl
@[simp] theorem setImage_boot (id : Nat) (h : Image → Image) : (b.setImage id h).boot = b.boot := rfl
@[simp] theorem setImage_dbg (id : Nat) (h : Image → Image) : (b.setImage id h).dbg = b.dbg := rfl
@[simp] theorem setImage_out (id : Nat) (h : Image → Image) : (b.setImage id h).out = b.out := rfl
@[simp] theorem setImage_free (id : Nat) (h : Image → Image) : (b.setImage id h).free = b.free := rfl
@[simp] theorem setImage_rat (id : Nat) (h : Image → Image) : (b.setImage id h).rat = b.rat := rfl
@[simp] theorem setImage_modu (id : Nat) (h : Image → Image) : (b.setImage id h).modu = b.modu := rfl
@[simp] theorem setImage_tc (id : Nat) (h : Image → Image) : (b.setImage id h).tc = b.tc := rfl
@[simp] theorem setImage_arr (id : Nat) (h : Image → Image) : (b.setImage id h).arr = b.arr := rfl
@[simp] theorem setImage_att (id : Nat) (h : Image → Image) : (b.setImage id h).att = b.att := rfl
@[simp] theorem setImage_samp (id : Nat) (h : Image → Image) : (b.setImage id h).samp = b.samp := rfl
@[simp] theorem setImage_mem (id : Nat) (h : Image → Image) : (b.setImage id h).mem = b.mem := rfl
@[simp] theorem setImage_tier (id : Nat) (h : Image → Image) : (b.setImage id h).tier = b.tier := rfl
@[simp] theorem setImage_dram (id : Nat) (h : Image → Image) : (b.setImage id h).dram = b.dram := rfl
@[simp] theorem setImage_integ (id : Nat) (h : Image → Image) : (b.setImage id h).integ = b.integ := rfl
@[simp] theorem setImage_page (id : Nat) (h : Image → Image) : (b.setImage id h).page = b.page := rfl
@[simp] theorem setImage_serve (id : Nat) (h : Image → Image) : (b.setImage id h).serve = b.serve := rfl
@[simp] theorem setImage_yg (id : Nat) (h : Image → Image) : (b.setImage id h).yg = b.yg := rfl

@[simp] theorem setBucket_regs (f p c : Nat) (x : Bucket) : (b.setBucket f p c x).regs = b.regs := rfl
@[simp] theorem setBucket_force (f p c : Nat) (x : Bucket) : (b.setBucket f p c x).force = b.force := rfl
@[simp] theorem setBucket_latch (f p c : Nat) (x : Bucket) : (b.setBucket f p c x).latch = b.latch := rfl
@[simp] theorem setBucket_staged (f p c : Nat) (x : Bucket) : (b.setBucket f p c x).staged = b.staged := rfl
@[simp] theorem setBucket_wafer (f p c : Nat) (x : Bucket) : (b.setBucket f p c x).wafer = b.wafer := rfl
@[simp] theorem setBucket_fab (f p c : Nat) (x : Bucket) : (b.setBucket f p c x).fab = b.fab := rfl
@[simp] theorem setBucket_host (f p c : Nat) (x : Bucket) : (b.setBucket f p c x).host = b.host := rfl
@[simp] theorem setBucket_ring (f p c : Nat) (x : Bucket) : (b.setBucket f p c x).ring = b.ring := rfl
@[simp] theorem setBucket_camp (f p c : Nat) (x : Bucket) : (b.setBucket f p c x).camp = b.camp := rfl
@[simp] theorem setBucket_boot (f p c : Nat) (x : Bucket) : (b.setBucket f p c x).boot = b.boot := rfl
@[simp] theorem setBucket_dbg (f p c : Nat) (x : Bucket) : (b.setBucket f p c x).dbg = b.dbg := rfl
@[simp] theorem setBucket_out (f p c : Nat) (x : Bucket) : (b.setBucket f p c x).out = b.out := rfl
@[simp] theorem setBucket_free (f p c : Nat) (x : Bucket) : (b.setBucket f p c x).free = b.free := rfl
@[simp] theorem setBucket_rat (f p c : Nat) (x : Bucket) : (b.setBucket f p c x).rat = b.rat := rfl
@[simp] theorem setBucket_modu (f p c : Nat) (x : Bucket) : (b.setBucket f p c x).modu = b.modu := rfl
@[simp] theorem setBucket_tc (f p c : Nat) (x : Bucket) : (b.setBucket f p c x).tc = b.tc := rfl
@[simp] theorem setBucket_arr (f p c : Nat) (x : Bucket) : (b.setBucket f p c x).arr = b.arr := rfl
@[simp] theorem setBucket_att (f p c : Nat) (x : Bucket) : (b.setBucket f p c x).att = b.att := rfl
@[simp] theorem setBucket_samp (f p c : Nat) (x : Bucket) : (b.setBucket f p c x).samp = b.samp := rfl
@[simp] theorem setBucket_mem (f p c : Nat) (x : Bucket) : (b.setBucket f p c x).mem = b.mem := rfl
@[simp] theorem setBucket_tier (f p c : Nat) (x : Bucket) : (b.setBucket f p c x).tier = b.tier := rfl
@[simp] theorem setBucket_integ (f p c : Nat) (x : Bucket) : (b.setBucket f p c x).integ = b.integ := rfl
@[simp] theorem setBucket_cellar (f p c : Nat) (x : Bucket) : (b.setBucket f p c x).cellar = b.cellar := rfl
@[simp] theorem setBucket_page (f p c : Nat) (x : Bucket) : (b.setBucket f p c x).page = b.page := rfl
@[simp] theorem setBucket_serve (f p c : Nat) (x : Bucket) : (b.setBucket f p c x).serve = b.serve := rfl
@[simp] theorem setBucket_yg (f p c : Nat) (x : Bucket) : (b.setBucket f p c x).yg = b.yg := rfl

@[simp] theorem setItem_regs (x : AttItem) : (b.setItem x).regs = b.regs := rfl
@[simp] theorem setItem_force (x : AttItem) : (b.setItem x).force = b.force := rfl
@[simp] theorem setItem_latch (x : AttItem) : (b.setItem x).latch = b.latch := rfl
@[simp] theorem setItem_staged (x : AttItem) : (b.setItem x).staged = b.staged := rfl
@[simp] theorem setItem_wafer (x : AttItem) : (b.setItem x).wafer = b.wafer := rfl
@[simp] theorem setItem_fab (x : AttItem) : (b.setItem x).fab = b.fab := rfl
@[simp] theorem setItem_host (x : AttItem) : (b.setItem x).host = b.host := rfl
@[simp] theorem setItem_ring (x : AttItem) : (b.setItem x).ring = b.ring := rfl
@[simp] theorem setItem_camp (x : AttItem) : (b.setItem x).camp = b.camp := rfl
@[simp] theorem setItem_boot (x : AttItem) : (b.setItem x).boot = b.boot := rfl
@[simp] theorem setItem_dbg (x : AttItem) : (b.setItem x).dbg = b.dbg := rfl
@[simp] theorem setItem_out (x : AttItem) : (b.setItem x).out = b.out := rfl
@[simp] theorem setItem_free (x : AttItem) : (b.setItem x).free = b.free := rfl
@[simp] theorem setItem_rat (x : AttItem) : (b.setItem x).rat = b.rat := rfl
@[simp] theorem setItem_modu (x : AttItem) : (b.setItem x).modu = b.modu := rfl
@[simp] theorem setItem_tc (x : AttItem) : (b.setItem x).tc = b.tc := rfl
@[simp] theorem setItem_arr (x : AttItem) : (b.setItem x).arr = b.arr := rfl
@[simp] theorem setItem_samp (x : AttItem) : (b.setItem x).samp = b.samp := rfl
@[simp] theorem setItem_mem (x : AttItem) : (b.setItem x).mem = b.mem := rfl
@[simp] theorem setItem_tier (x : AttItem) : (b.setItem x).tier = b.tier := rfl
@[simp] theorem setItem_dram (x : AttItem) : (b.setItem x).dram = b.dram := rfl
@[simp] theorem setItem_integ (x : AttItem) : (b.setItem x).integ = b.integ := rfl
@[simp] theorem setItem_cellar (x : AttItem) : (b.setItem x).cellar = b.cellar := rfl
@[simp] theorem setItem_page (x : AttItem) : (b.setItem x).page = b.page := rfl
@[simp] theorem setItem_serve (x : AttItem) : (b.setItem x).serve = b.serve := rfl
@[simp] theorem setItem_yg (x : AttItem) : (b.setItem x).yg = b.yg := rfl

@[simp] theorem setRow_regs (x : SampRow) : (b.setRow x).regs = b.regs := rfl
@[simp] theorem setRow_force (x : SampRow) : (b.setRow x).force = b.force := rfl
@[simp] theorem setRow_latch (x : SampRow) : (b.setRow x).latch = b.latch := rfl
@[simp] theorem setRow_staged (x : SampRow) : (b.setRow x).staged = b.staged := rfl
@[simp] theorem setRow_wafer (x : SampRow) : (b.setRow x).wafer = b.wafer := rfl
@[simp] theorem setRow_fab (x : SampRow) : (b.setRow x).fab = b.fab := rfl
@[simp] theorem setRow_host (x : SampRow) : (b.setRow x).host = b.host := rfl
@[simp] theorem setRow_ring (x : SampRow) : (b.setRow x).ring = b.ring := rfl
@[simp] theorem setRow_camp (x : SampRow) : (b.setRow x).camp = b.camp := rfl
@[simp] theorem setRow_boot (x : SampRow) : (b.setRow x).boot = b.boot := rfl
@[simp] theorem setRow_dbg (x : SampRow) : (b.setRow x).dbg = b.dbg := rfl
@[simp] theorem setRow_out (x : SampRow) : (b.setRow x).out = b.out := rfl
@[simp] theorem setRow_free (x : SampRow) : (b.setRow x).free = b.free := rfl
@[simp] theorem setRow_rat (x : SampRow) : (b.setRow x).rat = b.rat := rfl
@[simp] theorem setRow_modu (x : SampRow) : (b.setRow x).modu = b.modu := rfl
@[simp] theorem setRow_tc (x : SampRow) : (b.setRow x).tc = b.tc := rfl
@[simp] theorem setRow_arr (x : SampRow) : (b.setRow x).arr = b.arr := rfl
@[simp] theorem setRow_att (x : SampRow) : (b.setRow x).att = b.att := rfl
@[simp] theorem setRow_mem (x : SampRow) : (b.setRow x).mem = b.mem := rfl
@[simp] theorem setRow_tier (x : SampRow) : (b.setRow x).tier = b.tier := rfl
@[simp] theorem setRow_dram (x : SampRow) : (b.setRow x).dram = b.dram := rfl
@[simp] theorem setRow_integ (x : SampRow) : (b.setRow x).integ = b.integ := rfl
@[simp] theorem setRow_cellar (x : SampRow) : (b.setRow x).cellar = b.cellar := rfl
@[simp] theorem setRow_page (x : SampRow) : (b.setRow x).page = b.page := rfl
@[simp] theorem setRow_serve (x : SampRow) : (b.setRow x).serve = b.serve := rfl
@[simp] theorem setRow_yg (x : SampRow) : (b.setRow x).yg = b.yg := rfl

@[simp] theorem stageLow_regs (fn off : Nat) (v : W32) : (b.stageLow fn off v).regs = b.regs := rfl
@[simp] theorem stageLow_force (fn off : Nat) (v : W32) : (b.stageLow fn off v).force = b.force := rfl
@[simp] theorem stageLow_latch (fn off : Nat) (v : W32) : (b.stageLow fn off v).latch = b.latch := rfl
@[simp] theorem stageLow_wafer (fn off : Nat) (v : W32) : (b.stageLow fn off v).wafer = b.wafer := rfl
@[simp] theorem stageLow_fab (fn off : Nat) (v : W32) : (b.stageLow fn off v).fab = b.fab := rfl
@[simp] theorem stageLow_host (fn off : Nat) (v : W32) : (b.stageLow fn off v).host = b.host := rfl
@[simp] theorem stageLow_ring (fn off : Nat) (v : W32) : (b.stageLow fn off v).ring = b.ring := rfl
@[simp] theorem stageLow_camp (fn off : Nat) (v : W32) : (b.stageLow fn off v).camp = b.camp := rfl
@[simp] theorem stageLow_boot (fn off : Nat) (v : W32) : (b.stageLow fn off v).boot = b.boot := rfl
@[simp] theorem stageLow_dbg (fn off : Nat) (v : W32) : (b.stageLow fn off v).dbg = b.dbg := rfl
@[simp] theorem stageLow_out (fn off : Nat) (v : W32) : (b.stageLow fn off v).out = b.out := rfl
@[simp] theorem stageLow_free (fn off : Nat) (v : W32) : (b.stageLow fn off v).free = b.free := rfl
@[simp] theorem stageLow_rat (fn off : Nat) (v : W32) : (b.stageLow fn off v).rat = b.rat := rfl
@[simp] theorem stageLow_modu (fn off : Nat) (v : W32) : (b.stageLow fn off v).modu = b.modu := rfl
@[simp] theorem stageLow_tc (fn off : Nat) (v : W32) : (b.stageLow fn off v).tc = b.tc := rfl
@[simp] theorem stageLow_arr (fn off : Nat) (v : W32) : (b.stageLow fn off v).arr = b.arr := rfl
@[simp] theorem stageLow_att (fn off : Nat) (v : W32) : (b.stageLow fn off v).att = b.att := rfl
@[simp] theorem stageLow_samp (fn off : Nat) (v : W32) : (b.stageLow fn off v).samp = b.samp := rfl
@[simp] theorem stageLow_mem (fn off : Nat) (v : W32) : (b.stageLow fn off v).mem = b.mem := rfl
@[simp] theorem stageLow_tier (fn off : Nat) (v : W32) : (b.stageLow fn off v).tier = b.tier := rfl
@[simp] theorem stageLow_dram (fn off : Nat) (v : W32) : (b.stageLow fn off v).dram = b.dram := rfl
@[simp] theorem stageLow_integ (fn off : Nat) (v : W32) : (b.stageLow fn off v).integ = b.integ := rfl
@[simp] theorem stageLow_cellar (fn off : Nat) (v : W32) : (b.stageLow fn off v).cellar = b.cellar := rfl
@[simp] theorem stageLow_page (fn off : Nat) (v : W32) : (b.stageLow fn off v).page = b.page := rfl
@[simp] theorem stageLow_serve (fn off : Nat) (v : W32) : (b.stageLow fn off v).serve = b.serve := rfl
@[simp] theorem stageLow_yg (fn off : Nat) (v : W32) : (b.stageLow fn off v).yg = b.yg := rfl

@[simp] theorem latchHigh_regs (fn off : Nat) : (b.latchHigh fn off).regs = b.regs := rfl
@[simp] theorem latchHigh_force (fn off : Nat) : (b.latchHigh fn off).force = b.force := rfl
@[simp] theorem latchHigh_staged (fn off : Nat) : (b.latchHigh fn off).staged = b.staged := rfl
@[simp] theorem latchHigh_wafer (fn off : Nat) : (b.latchHigh fn off).wafer = b.wafer := rfl
@[simp] theorem latchHigh_fab (fn off : Nat) : (b.latchHigh fn off).fab = b.fab := rfl
@[simp] theorem latchHigh_host (fn off : Nat) : (b.latchHigh fn off).host = b.host := rfl
@[simp] theorem latchHigh_ring (fn off : Nat) : (b.latchHigh fn off).ring = b.ring := rfl
@[simp] theorem latchHigh_camp (fn off : Nat) : (b.latchHigh fn off).camp = b.camp := rfl
@[simp] theorem latchHigh_boot (fn off : Nat) : (b.latchHigh fn off).boot = b.boot := rfl
@[simp] theorem latchHigh_dbg (fn off : Nat) : (b.latchHigh fn off).dbg = b.dbg := rfl
@[simp] theorem latchHigh_out (fn off : Nat) : (b.latchHigh fn off).out = b.out := rfl
@[simp] theorem latchHigh_free (fn off : Nat) : (b.latchHigh fn off).free = b.free := rfl
@[simp] theorem latchHigh_rat (fn off : Nat) : (b.latchHigh fn off).rat = b.rat := rfl
@[simp] theorem latchHigh_modu (fn off : Nat) : (b.latchHigh fn off).modu = b.modu := rfl
@[simp] theorem latchHigh_tc (fn off : Nat) : (b.latchHigh fn off).tc = b.tc := rfl
@[simp] theorem latchHigh_arr (fn off : Nat) : (b.latchHigh fn off).arr = b.arr := rfl
@[simp] theorem latchHigh_att (fn off : Nat) : (b.latchHigh fn off).att = b.att := rfl
@[simp] theorem latchHigh_samp (fn off : Nat) : (b.latchHigh fn off).samp = b.samp := rfl
@[simp] theorem latchHigh_mem (fn off : Nat) : (b.latchHigh fn off).mem = b.mem := rfl
@[simp] theorem latchHigh_tier (fn off : Nat) : (b.latchHigh fn off).tier = b.tier := rfl
@[simp] theorem latchHigh_dram (fn off : Nat) : (b.latchHigh fn off).dram = b.dram := rfl
@[simp] theorem latchHigh_integ (fn off : Nat) : (b.latchHigh fn off).integ = b.integ := rfl
@[simp] theorem latchHigh_cellar (fn off : Nat) : (b.latchHigh fn off).cellar = b.cellar := rfl
@[simp] theorem latchHigh_page (fn off : Nat) : (b.latchHigh fn off).page = b.page := rfl
@[simp] theorem latchHigh_serve (fn off : Nat) : (b.latchHigh fn off).serve = b.serve := rfl
@[simp] theorem latchHigh_yg (fn off : Nat) : (b.latchHigh fn off).yg = b.yg := rfl

/-! ### Read back -/

theorem desk_setDesk (f g : Nat) (d : Desk) : (b.setDesk f d).desk g = if g = f then d else b.desk g := sget_sset
@[simp] theorem desk_setDesk_self (f : Nat) (d : Desk) : (b.setDesk f d).desk f = d := sget_sset_self
theorem desk_setDesk_ne {f g : Nat} (d : Desk) (h : g ≠ f) : (b.setDesk f d).desk g = b.desk g := sget_sset_ne h
theorem thread_setThread (f g : Nat) (d : ThreadSt) : (b.setThread f d).thread g = if g = f then d else b.thread g := sget_sset
@[simp] theorem thread_setThread_self (f : Nat) (d : ThreadSt) : (b.setThread f d).thread f = d := sget_sset_self
theorem thread_setThread_ne {f g : Nat} (d : ThreadSt) (h : g ≠ f) : (b.setThread f d).thread g = b.thread g := sget_sset_ne h
theorem ringSt_setRing (f g : Nat) (d : RingSt) : (b.setRing f d).ringSt g = if g = f then d else b.ringSt g := sget_sset
@[simp] theorem ringSt_setRing_self (f : Nat) (d : RingSt) : (b.setRing f d).ringSt f = d := sget_sset_self
theorem ringSt_setRing_ne {f g : Nat} (d : RingSt) (h : g ≠ f) : (b.setRing f d).ringSt g = b.ringSt g := sget_sset_ne h
theorem port_setPort (f g : Nat) (d : YgPort) : (b.setPort f d).port g = if g = f then d else b.port g := sget_sset
@[simp] theorem port_setPort_self (f : Nat) (d : YgPort) : (b.setPort f d).port f = d := sget_sset_self
theorem port_setPort_ne {f g : Nat} (d : YgPort) (h : g ≠ f) : (b.setPort f d).port g = b.port g := sget_sset_ne h
theorem stack_setStack (f g : Nat) (d : StackSt) : (b.setStack f d).stack g = if g = f then d else b.stack g := sget_sset
@[simp] theorem stack_setStack_self (f : Nat) (d : StackSt) : (b.setStack f d).stack f = d := sget_sset_self
theorem stack_setStack_ne {f g : Nat} (d : StackSt) (h : g ≠ f) : (b.setStack f d).stack g = b.stack g := sget_sset_ne h
theorem test_setTest (f g : Nat) (d : TestPort) : (b.setTest f d).test g = if g = f then d else b.test g := sget_sset
@[simp] theorem test_setTest_self (f : Nat) (d : TestPort) : (b.setTest f d).test f = d := sget_sset_self
theorem test_setTest_ne {f g : Nat} (d : TestPort) (h : g ≠ f) : (b.setTest f d).test g = b.test g := sget_sset_ne h
theorem siteSt_setSite (f g : Nat) (d : SiteSt) : (b.setSite f d).siteSt g = if g = f then d else b.siteSt g := sget_sset
@[simp] theorem siteSt_setSite_self (f : Nat) (d : SiteSt) : (b.setSite f d).siteSt f = d := sget_sset_self
theorem siteSt_setSite_ne {f g : Nat} (d : SiteSt) (h : g ≠ f) : (b.setSite f d).siteSt g = b.siteSt g := sget_sset_ne h
theorem stepSt_setStepSt (f g : Nat) (d : StepSt) : (b.setStepSt f d).stepSt g = if g = f then d else b.stepSt g := sget_sset
@[simp] theorem stepSt_setStepSt_self (f : Nat) (d : StepSt) : (b.setStepSt f d).stepSt f = d := sget_sset_self
theorem stepSt_setStepSt_ne {f g : Nat} (d : StepSt) (h : g ≠ f) : (b.setStepSt f d).stepSt g = b.stepSt g := sget_sset_ne h
theorem integField_setInteg (f g : Nat) (d : IntegField) : (b.setInteg f d).integField g = if g = f then d else b.integField g := sget_sset
@[simp] theorem integField_setInteg_self (f : Nat) (d : IntegField) : (b.setInteg f d).integField f = d := sget_sset_self
theorem integField_setInteg_ne {f g : Nat} (d : IntegField) (h : g ≠ f) : (b.setInteg f d).integField g = b.integField g := sget_sset_ne h
theorem cc_setCc (f g : Nat) (d : CcSt) : (b.setCc f d).cc g = if g = f then d else b.cc g := sget_sset
@[simp] theorem cc_setCc_self (f : Nat) (d : CcSt) : (b.setCc f d).cc f = d := sget_sset_self
theorem cc_setCc_ne {f g : Nat} (d : CcSt) (h : g ≠ f) : (b.setCc f d).cc g = b.cc g := sget_sset_ne h
theorem pblock_setPBlock (f g : Nat) (d : PBlock) : (b.setPBlock f d).pblock g = if g = f then d else b.pblock g := sget_sset
@[simp] theorem pblock_setPBlock_self (f : Nat) (d : PBlock) : (b.setPBlock f d).pblock f = d := sget_sset_self
theorem pblock_setPBlock_ne {f g : Nat} (d : PBlock) (h : g ≠ f) : (b.setPBlock f d).pblock g = b.pblock g := sget_sset_ne h

end Sys2Proof.Machine
end

