-- ==== Sys2Proof/Laws/Memory.lean ====
section
/-! SUPPORT. The memory operations keep the canonical form of the memories; what a byte reads as after each; the memory of the state after
reset has the form. -/
namespace Sys2Proof.Machine

variable {m : MemPart} {b : Block}

theorem wf_iff : m.wf = true ↔ sparseWf (fun _ => 0) m.bytes = true ∧ sparseWf (fun _ => false) m.poison = true ∧
    sparseWf (fun _ => 0) m.bad = true ∧ sparseWf (fun _ => none) m.lines = true ∧ sparseWf (fun _ => 0) m.plru = true := by
  simp [MemPart.wf, and_assoc]

theorem reset_mem_wf : Block.reset.mem.wf = true := by decide

/-! ### The form -/

theorem put_wf : ∀ (xs : List Byte) {m : MemPart} {p : Nat}, m.wf = true → (m.put p xs).wf = true
  | [], _, _, h => h
  | x :: xs, m, p, h => put_wf xs (by
      obtain ⟨h1, h2, h3, h4, h5⟩ := wf_iff.mp h
      exact wf_iff.mpr ⟨sset_wf h1, h2, h3, h4, h5⟩)

theorem mark_wf (h : m.wf = true) (w : Nat) (x : Bool) (y : Nat) :
    ({ m with poison := sset (fun _ => false) m.poison w x, bad := sset (fun _ => 0) m.bad w y } : MemPart).wf = true := by
  obtain ⟨h1, h2, h3, h4, h5⟩ := wf_iff.mp h
  exact wf_iff.mpr ⟨h1, sset_wf h2, sset_wf h3, h4, h5⟩

theorem bad_wf (h : m.wf = true) (w y : Nat) : ({ m with bad := sset (fun _ => 0) m.bad w y } : MemPart).wf = true := by
  obtain ⟨h1, h2, h3, h4, h5⟩ := wf_iff.mp h
  exact wf_iff.mpr ⟨h1, h2, sset_wf h3, h4, h5⟩

theorem line_wf (h : m.wf = true) (w : Nat) (l : Option Line) : ({ m with lines := sset (fun _ => none) m.lines w l } : MemPart).wf = true := by
  obtain ⟨h1, h2, h3, h4, h5⟩ := wf_iff.mp h
  exact wf_iff.mpr ⟨h1, h2, h3, sset_wf h4, h5⟩

theorem plru_wf (h : m.wf = true) (k : Nat) (g : Nat → Nat) : ({ m with plru := supd (fun _ => 0) m.plru k g } : MemPart).wf = true := by
  obtain ⟨h1, h2, h3, h4, h5⟩ := wf_iff.mp h
  exact wf_iff.mpr ⟨h1, h2, h3, h4, sset_wf h5⟩

theorem poisonWord_wf (h : m.wf = true) (p : Nat) : (m.poisonWord p).wf = true := mark_wf (put_wf _ h) _ _ _

theorem memPutWord_wf (h : m.wf = true) (p : Nat) (xs : List Byte) : (m.putWord p xs).wf = true := by
  unfold MemPart.putWord
  dsimp only
  split
  · exact h
  · exact mark_wf (put_wf _ h) _ _ _

theorem clear_wf (h : m.wf = true) (out : Nat → Bool) :
    ({ m with bytes := m.bytes.filter fun kv => out kv.1, poison := m.poison.filter fun kv => out kv.1
              bad := m.bad.filter fun kv => out kv.1 } : MemPart).wf = true := by
  obtain ⟨h1, h2, h3, h4, h5⟩ := wf_iff.mp h
  exact wf_iff.mpr ⟨filter_sparseFrom _ h1, filter_sparseFrom _ h2, filter_sparseFrom _ h3, h4, h5⟩

theorem clearLocal_wf (h : m.wf = true) (p : Nat) : (m.clearLocal p).wf = true :=
  clear_wf h fun k => decide (k < p) || decide (p + 0x40000 ≤ k)
theorem clearFrame_wf (h : m.wf = true) (p : Nat) : (m.clearFrame p).wf = true :=
  clear_wf h fun k => decide (k < p) || decide (p + 0x8000 ≤ k)

theorem flipApply_wf (h : b.mem.wf = true) (p : Nat) : (b.flipApply p).mem.wf = true := bad_wf h _ _

theorem putWord_wf (h : b.mem.wf = true) (p : Nat) (xs : List Byte) : (b.putWord p xs).mem.wf = true := by
  unfold Block.putWord
  dsimp only
  split
  · exact h
  · split
    · exact flipApply_wf (b := { b with mem := b.mem.putWord p xs }) (memPutWord_wf h p xs) p
    · exact memPutWord_wf h p xs

theorem putBytes_wf : ∀ (n : Nat) {b : Block} {p : Nat} {xs : List Byte}, b.mem.wf = true → (b.putBytes p n xs).mem.wf = true
  | 0, _, _, _, h => h
  | n + 1, b, p, xs, h => by
    unfold Block.putBytes
    split
    · exact h
    · exact putBytes_wf n (putWord_wf h _ _)

theorem setLine_wf (h : b.mem.wf = true) (p : Nat) (l : Option Line) : (b.setLine p l).mem.wf = true := line_wf h _ _

theorem useWay_wf (h : b.mem.wf = true) (p way : Nat) : (b.useWay p way).mem.wf = true := plru_wf h _ _

/-- A fold of steps that each keep the form keeps it. -/
theorem foldl_wf {α : Type} {g : Block → α → Block} (hg : ∀ b x, b.mem.wf = true → (g b x).mem.wf = true) :
    ∀ (xs : List α) {b : Block}, b.mem.wf = true → (xs.foldl g b).mem.wf = true
  | [], _, h => h
  | x :: xs, _, h => foldl_wf hg xs (hg _ x h)

theorem lineWords_wf (h : b.mem.wf = true) (p way n : Nat) : (b.lineWords p way n).mem.wf = true := by
  refine foldl_wf (fun b i hb => ?_) _ h
  dsimp only
  split
  · exact flipApply_wf (b := { b with mem := { b.mem with bad := sset (fun _ => 0) b.mem.bad _ 0 } }) (bad_wf hb _ _) _
  · exact bad_wf hb _ _

@[simp] theorem served_mem (b : Block) (f n bursts narrows : Nat) : (b.served f n bursts narrows).mem = b.mem := by
  unfold Block.served Block.occupy
  split <;> rfl

theorem writeBack_wf (h : b.mem.wf = true) (p : Nat) (l : Line) : (b.writeBack p l).mem.wf = true := by
  refine foldl_wf (fun b i hb => ?_) _ (setLine_wf h _ _)
  split
  · exact poisonWord_wf hb _
  · exact putWord_wf hb _ _

theorem evictLine_wf (h : b.mem.wf = true) (p : Nat) : (b.evictLine p).mem.wf = true := by
  unfold Block.evictLine
  split
  · split
    · exact writeBack_wf h _ _
    · exact setLine_wf h _ _
  · exact h

theorem dropLine_wf (h : b.mem.wf = true) (p : Nat) : (b.dropLine p).mem.wf = true := by
  unfold Block.dropLine
  split
  · exact setLine_wf h _ _
  · exact h

theorem allocLine_wf (h : b.mem.wf = true) (p : Nat) (l : Line) : (b.allocLine p l).mem.wf = true := by
  unfold Block.allocLine
  dsimp only
  refine useWay_wf (lineWords_wf (setLine_wf ?_ _ _) _ _ _) _ _
  split
  · exact evictLine_wf h _
  · exact h

theorem fill_wf (h : b.mem.wf = true) (p : Nat) : (b.fill p).mem.wf = true := allocLine_wf h _ _

theorem mergeLine_wf (h : b.mem.wf = true) (p : Nat) (xs : List Byte) : (b.mergeLine p xs).mem.wf = true := by
  unfold Block.mergeLine
  split
  · exact useWay_wf (lineWords_wf (setLine_wf h _ _) _ _ _) _ _
  · exact h

theorem storeLine_wf (h : b.mem.wf = true) (p : Nat) (xs : List Byte) : (b.storeLine p xs).mem.wf = true := by
  unfold Block.storeLine
  dsimp only
  split
  · exact mergeLine_wf h _ _
  · split
    · exact mergeLine_wf (allocLine_wf h _ _) _ _
    · exact mergeLine_wf (fill_wf h _) _ _

theorem storePart_wf (h : b.mem.wf = true) (p : Nat) (xs : List Byte) : (b.storePart p xs).mem.wf = true := by
  unfold Block.storePart
  split
  · exact h
  · split
    · exact storeLine_wf h _ _
    · exact putBytes_wf _ h

theorem storeBytes_wf : ∀ (n : Nat) {b : Block} {p : Nat} {xs : List Byte}, b.mem.wf = true → (b.storeBytes p n xs).mem.wf = true
  | 0, _, _, _, h => h
  | n + 1, b, p, xs, h => by
    unfold Block.storeBytes
    split
    · exact h
    · exact storeBytes_wf n (storePart_wf h _ _)

theorem lookBulk_wf (h : b.mem.wf = true) (p n : Nat) : (b.lookBulk p n).mem.wf = true := by
  refine foldl_wf (fun b s hb => ?_) _ h
  dsimp only
  split
  · exact hb
  · split
    · exact hb
    · split
      · exact useWay_wf hb _ _
      · exact hb

theorem storeBulk_wf (h : b.mem.wf = true) (p : Nat) (xs : List Byte) : (b.storeBulk p xs).mem.wf = true := by
  unfold Block.storeBulk
  dsimp only
  split
  · exact lookBulk_wf h _ _
  · exact putBytes_wf _ (foldl_wf (fun b i hb => evictLine_wf hb _) _ (lookBulk_wf h _ _))

theorem poisonBytes_wf (h : b.mem.wf = true) (p n : Nat) : (b.poisonBytes p n).mem.wf = true := by
  unfold Block.poisonBytes
  split
  · exact h
  · refine foldl_wf (fun b i hb => ?_) _ h
    dsimp only
    split
    · exact setLine_wf hb _ _
    · exact poisonWord_wf hb _

theorem landBytes_wf (h : b.mem.wf = true) (p : Nat) (xs : List Byte) (bad : List (Nat × Nat)) : (b.landBytes p xs bad).mem.wf = true :=
  foldl_wf (fun _ _ hb => poisonBytes_wf hb _ _) _ (storeBulk_wf h _ _)

theorem copyBytes_wf (h : b.mem.wf = true) (dst src n : Nat) : (b.copyBytes dst src n).mem.wf = true :=
  landBytes_wf (b := (b.lookBulk src n).tick) (lookBulk_wf h _ _) _ _ _

theorem dropFrameLines_wf (h : b.mem.wf = true) (p : Nat) : (b.dropFrameLines p).mem.wf = true :=
  foldl_wf (fun _ _ hb => dropLine_wf hb _) _ h

theorem fillFrame_wf (h : b.mem.wf = true) (p : Nat) (xs : List Byte) : (b.fillFrame p xs).mem.wf = true := by
  unfold Block.fillFrame
  dsimp only
  split
  · exact flipApply_wf (b := { b with mem := (b.mem.clearFrame _).put _ _ }) (put_wf _ (clearFrame_wf h _)) _
  · exact put_wf _ (clearFrame_wf h _)

theorem zeroFrame_wf (h : b.mem.wf = true) (f tier n : Nat) : (b.zeroFrame f tier n).mem.wf = true := by
  unfold Block.zeroFrame
  dsimp only
  split
  · rw [served_mem]
    exact fillFrame_wf h _ _
  · exact fillFrame_wf h _ _

theorem clearCore_wf (h : b.mem.wf = true) (f core : Nat) : (b.clearCore f core).mem.wf = true := by
  unfold Block.clearCore
  dsimp only
  split
  · exact flipApply_wf (b := { b with mem := b.mem.clearLocal _ }) (clearLocal_wf h _) _
  · exact clearLocal_wf h _

theorem strike_wf (h : b.mem.wf = true) (w pattern : Nat) : (b.strike w pattern).mem.wf = true := by
  unfold Block.strike
  simp only
  generalize (if isDram w = true then 288 else 72) = k
  by_cases hk : pattern % 2 ^ k = 0
  · simpa [hk] using h
  · rw [if_neg hk]
    exact bad_wf h _ _

theorem copyCode_wf (xs : List (Option Byte)) {b : Block} {d : Nat} (h : b.mem.wf = true) : (b.copyCode d xs).mem.wf = true := by
  induction b, d, xs using Block.copyCode.induct with
  | case1 b d x0 x1 x2 x3 r w ih =>
    unfold Block.copyCode
    refine ih ?_
    split
    · exact poisonBytes_wf h _ _
    · exact putBytes_wf _ h
  | case2 b d xs hx =>
    unfold Block.copyCode
    split
    · exact absurd rfl (hx _ _ _ _ _)
    · exact h

/-! ### What a byte reads as -/

/-- A byte of a memory itself after a write of bytes. -/
theorem bytes_put : ∀ (xs : List Byte) (m : MemPart) (p a : Nat),
    sget (fun _ => 0) (m.put p xs).bytes a = if p ≤ a ∧ a < p + xs.length then xs.getD (a - p) 0 else sget (fun _ => 0) m.bytes a
  | [], _, p, a => by
    have : ¬ (p ≤ a ∧ a < p + 0) := by omega
    rw [List.length_nil, if_neg this]
    rfl
  | x :: xs, m, p, a => by
    simp only [MemPart.put, bytes_put xs, sget_sset, List.length_cons]
    by_cases h1 : a = p
    · have h2 : ¬ (p + 1 ≤ a ∧ a < p + 1 + xs.length) := by omega
      have h3 : p ≤ a ∧ a < p + (xs.length + 1) := by omega
      rw [if_neg h2, if_pos h3, if_pos h1]
      simp [h1]
    · by_cases h2 : p + 1 ≤ a ∧ a < p + 1 + xs.length
      · have h3 : p ≤ a ∧ a < p + (xs.length + 1) := by omega
        rw [if_pos h2, if_pos h3, show a - p = (a - (p + 1)) + 1 by omega]
        rfl
      · have h3 : ¬ (p ≤ a ∧ a < p + (xs.length + 1)) := by omega
        rw [if_neg h2, if_neg h3, if_neg h1]

@[simp] theorem put_poison : ∀ (xs : List Byte) (m : MemPart) (p : Nat), (m.put p xs).poison = m.poison
  | [], _, _ => rfl
  | _ :: xs, _, _ => put_poison xs _ _

@[simp] theorem put_lines : ∀ (xs : List Byte) (m : MemPart) (p : Nat), (m.put p xs).lines = m.lines
  | [], _, _ => rfl
  | _ :: xs, _, _ => put_lines xs _ _

end Sys2Proof.Machine
end

