-- ==== Sys2Proof/Laws/Ration.lean ====
section
/-! SUPPORT. The ration desks: what a release, a request and a delivery do to a desk's level (nothing) and to the rest of the block. -/
namespace Sys2Proof.Machine

variable {b : Block}

theorem foldl_add (xs : List Nat) (a : Nat) : xs.foldl (· + ·) a = a + xs.sum := by
  induction xs generalizing a with
  | nil => rfl
  | cons x xs ih => rw [List.foldl_cons, ih, List.sum_cons]; omega

theorem sumGrants_eq (gs : List Grant) : sumGrants gs = (gs.map Grant.counted).sum := by rw [sumGrants, foldl_add]; omega

theorem sumReqs_eq (qs : List Req) : sumReqs qs = (qs.map fun r => min r.amount (r.handed + r.ramped)).sum := by
  rw [sumReqs, foldl_add]; omega

@[simp] theorem sumReqs_nil : sumReqs [] = 0 := rfl
@[simp] theorem sumReqs_cons (q : Req) (qs : List Req) : sumReqs (q :: qs) = min q.amount (q.handed + q.ramped) + sumReqs qs := by
  simp [sumReqs_eq]

@[simp] theorem sumGrants_append (gs hs : List Grant) : sumGrants (gs ++ hs) = sumGrants gs + sumGrants hs := by simp [sumGrants_eq]

@[simp] theorem sumGrants_cons (g : Grant) (gs : List Grant) : sumGrants (g :: gs) = g.counted + sumGrants gs := by simp [sumGrants_eq]

theorem atFraction_full (a : Nat) : atFraction a 16 = a := by
  unfold atFraction cdiv; omega

/-- A delivered request counts as a grant what it counted as a request. -/
theorem counted_toGrant {r : Req} (h : r.covered = true) : r.toGrant.counted = min r.amount (r.handed + r.ramped) := by
  simp only [Req.covered, decide_eq_true_eq] at h
  simp only [Req.toGrant, Grant.counted, atFraction_full]; omega

/-- Delivery takes requests off the queue's head, and what they counted with them. -/
theorem sum_deliver (qs : List Req) : sumReqs (deliver qs).1 + sumReqs (deliver qs).2 = sumReqs qs := by
  induction qs with
  | nil => rfl
  | cons q qs ih =>
    unfold deliver
    split
    · simp only [sumReqs_cons]; omega
    · simp

/-- Only covered requests of the queue are delivered. -/
theorem mem_deliver {r : Req} {qs : List Req} (h : r ∈ (deliver qs).2) : r ∈ qs ∧ r.covered = true := by
  induction qs with
  | nil => simp [deliver] at h
  | cons q qs ih =>
    unfold deliver at h
    split at h
    · next hq =>
      rcases List.mem_cons.mp h with rfl | h
      · exact ⟨List.mem_cons_self, hq⟩
      · exact ⟨List.mem_cons_of_mem _ (ih h).1, (ih h).2⟩
    · simp at h

/-- Delivered requests, none of them a step of a clock, count as grants what they counted as requests. -/
theorem sum_receive {rs : List Req} (gs : List Grant) (h : ∀ r ∈ rs, r.clock = false ∧ r.covered = true) :
    sumGrants (receive gs rs) = sumGrants gs + sumReqs rs := by
  induction rs generalizing gs with
  | nil => simp [receive]
  | cons r rs ih =>
    have hr := h r List.mem_cons_self
    have := ih (gs ++ [r.toGrant]) fun x hx => h x (List.mem_cons_of_mem _ hx)
    rw [receive, List.foldl_cons, hr.1]
    simp only [receive, Bool.false_eq_true, if_false] at this ⊢
    rw [this, sumGrants_append, sumGrants_cons, counted_toGrant hr.2, sumReqs_cons]
    simp [sumGrants]; omega

/-- Handover gives the queue exactly what it takes. -/
theorem sum_handOver (qs : List Req) (n : Nat) : sumReqs (handOver n qs).1 + (handOver n qs).2 = sumReqs qs + n := by
  induction qs generalizing n with
  | nil => simp [handOver]
  | cons q qs ih =>
    unfold handOver
    dsimp only
    split
    · next h =>
      simp only [sumReqs_cons, Req.need] at h ⊢; omega
    · next h =>
      have := ih (n - q.need)
      simp only [sumReqs_cons, Req.need] at h this ⊢; omega

/-- Handover makes no request a step of a clock. -/
theorem handOver_clock {qs : List Req} (n : Nat) (h : ∀ r ∈ qs, r.clock = false) : ∀ r ∈ (handOver n qs).1, r.clock = false := by
  induction qs generalizing n with
  | nil => simp [handOver]
  | cons q qs ih =>
    unfold handOver
    dsimp only
    split
    · intro r hr
      rcases List.mem_cons.mp hr with rfl | hr
      · exact h q List.mem_cons_self
      · exact h r (List.mem_cons_of_mem _ hr)
    · intro r hr
      rcases List.mem_cons.mp hr with rfl | hr
      · exact h q List.mem_cons_self
      · exact ih _ (fun x hx => h x (List.mem_cons_of_mem _ hx)) r hr

theorem sum_enter (r : Req) (qs : List Req) : sumReqs (enter r qs) = min r.amount (r.handed + r.ramped) + sumReqs qs := by
  induction qs with
  | nil => rw [enter, sumReqs_cons]
  | cons q qs ih =>
    unfold enter
    split
    · rw [sumReqs_cons]
    · rw [sumReqs_cons, sumReqs_cons, ih]; omega

theorem mem_enter {x r : Req} {qs : List Req} : x ∈ enter r qs ↔ x = r ∨ x ∈ qs := by
  induction qs with
  | nil => simp [enter]
  | cons q qs ih =>
    unfold enter
    split
    · simp
    · rw [List.mem_cons, ih, List.mem_cons]; tauto

/-- Taking over a ramp keeps what the queue counts, where no request has got more than its amount. -/
theorem sum_takeRamp {qs : List Req} (h : ∀ r ∈ qs, r.handed + r.ramped ≤ r.amount) : sumReqs (takeRamp qs) = sumReqs qs := by
  unfold takeRamp
  split
  · next r q qs =>
    have h1 := h r (by simp)
    have h2 := h q (by simp)
    simp only [sumReqs_cons, Req.need]; omega
  · rfl

/-- A request that joins a queue adds what it has got, where no request has got more than its amount. -/
theorem sum_enqueue {r : Req} {qs : List Req} (h : ∀ x ∈ r :: qs, x.handed + x.ramped ≤ x.amount) :
    sumReqs (enqueue r qs) = min r.amount (r.handed + r.ramped) + sumReqs qs := by
  rw [enqueue, sum_takeRamp, sum_enter]
  intro x hx
  exact h x (by simpa [mem_enter] using hx)

theorem sum_dropFirst {p : Grant → Bool} {gs : List Grant} {g : Grant} (h : gs.find? p = some g) :
    sumGrants (dropFirst p gs) + g.counted = sumGrants gs := by
  induction gs with
  | nil => simp at h
  | cons x xs ih =>
    unfold dropFirst
    by_cases hx : p x = true
    · rw [List.find?_cons_of_pos hx] at h
      injection h with h
      rw [if_pos hx, sumGrants_cons, h]; omega
    · rw [List.find?_cons_of_neg hx] at h
      rw [if_neg hx, sumGrants_cons, sumGrants_cons]
      have := ih h
      omega

/-! ### What a delivery changes -/

/-- A delivery writes to the threads and cores that waited; JOBs and operations stay. -/
theorem granted_frame (p : ThreadPart) (f : Nat) (r : Req) (now : Nat) :
    ∃ th co, p.granted f r now = { p with threads := th, cores := co } := by
  unfold ThreadPart.granted
  split
  · exact ⟨_, _, rfl⟩
  · split <;> exact ⟨_, _, rfl⟩

/-- Deliveries count, and write to the threads and cores that waited. -/
theorem delivered_frame (f : Nat) (rs : List Req) (b : Block) :
    ∃ r th co, b.delivered f rs = { b with regs := r, tc := { b.tc with threads := th, cores := co } } := by
  induction rs generalizing b with
  | nil => exact ⟨_, _, _, rfl⟩
  | cons r rs ih =>
    unfold Block.delivered
    dsimp only
    split
    · obtain ⟨r2, th2, co2, e⟩ := ih (b.bump F.rmThrottleSteps)
      rw [e]
      exact ⟨_, _, _, rfl⟩
    · obtain ⟨r2, th2, co2, e⟩ := ih _
      rw [e]
      obtain ⟨th, co, e1⟩ := granted_frame b.tc f r b.fab.time
      simp only [count_tc, bump_tc, e1]
      exact ⟨_, _, _, rfl⟩

@[simp] theorem delivered_desk (f : Nat) (rs : List Req) (b : Block) (g : Nat) : (b.delivered f rs).desk g = b.desk g := by
  obtain ⟨_, _, _, e⟩ := delivered_frame f rs b
  rw [e]; rfl

/-! ### Giving back, releasing, requesting -/

/-- What is given back at a desk where no step of a clock waits raises its level by what it is, by taper or by the requests it is handed
to (R66, R67). -/
theorem giveBack_level (f n : Nat) (hc : ∀ r ∈ (b.desk f).queue, r.clock = false) : ((b.giveBack f n).desk f).level = (b.desk f).level + n := by
  unfold Block.giveBack
  dsimp only
  split
  · show ((b.setDesk f _).desk f).level = _
    simp [Desk.level]; omega
  · rw [delivered_desk]
    show ((b.setDesk f _).desk f).level = _
    have h1 := sum_handOver (b.desk f).queue n
    have h2 := sum_deliver (handOver n (b.desk f).queue).1
    have h3 := sum_receive (rs := (deliver (handOver n (b.desk f).queue).1).2) (b.desk f).grants fun r hr =>
      ⟨handOver_clock n hc r (mem_deliver hr).1, (mem_deliver hr).2⟩
    simp [Desk.level, h3]; omega

/-- Giving back changes one desk, counters, and the threads that were waiting. -/
theorem giveBack_frame (f n : Nat) (b : Block) :
    ∃ d r th co, b.giveBack f n = { b.setDesk f d with regs := r, tc := { b.tc with threads := th, cores := co } } := by
  unfold Block.giveBack
  dsimp only
  split
  · exact ⟨_, _, _, _, rfl⟩
  · obtain ⟨r, th, co, e⟩ := delivered_frame f (deliver (handOver n (b.desk f).queue).1).2 ((b.setDesk f { b.desk f with
      queue := (deliver (handOver n (b.desk f).queue).1).1
      grants := receive (b.desk f).grants (deliver (handOver n (b.desk f).queue).1).2
      taper := (b.desk f).taper + (handOver n (b.desk f).queue).2 }).count (F.deskTapers f) (if (handOver n (b.desk f).queue).2 = 0 then 0 else 1))
    rw [e]
    exact ⟨_, _, _, _, rfl⟩

/-- A removal of requests of which there are none changes nothing. -/
theorem removeReqs_none {f : Nat} {out : Req → Bool} (h : (b.desk f).queue.filter out = []) : b.removeReqs f out = b := by
  simp [Block.removeReqs, h]

/-- A release keeps the level of a desk where no step of a clock waits (R66, R67). -/
theorem release_level (f : Nat) (who : Asker) (hc : ∀ r ∈ (b.desk f).queue, r.clock = false) :
    ((b.release f who).desk f).level = (b.desk f).level := by
  unfold Block.release
  split
  · next g hg =>
    dsimp only
    have h0 : b.removeReqs f (fun q => q.clock && q.who == who) = b :=
      removeReqs_none (List.filter_eq_nil_iff.mpr fun r hr => by simp [hc r hr])
    rw [h0, giveBack_level _ _ (by simpa using hc)]
    have := sum_dropFirst (by simpa [Block.grantOf] using hg)
    simp [Desk.level]; omega
  · rfl

end Sys2Proof.Machine
end

