-- ==== Sys2Proof/Laws/Regs.lean ====
section
/-! SUPPORT. Fields of a register word and of the register bank: what a field reads as after a field has been written or a counter has counted. -/
namespace Sys2Proof.Machine

theorem mask_bit (lo width i : Nat) (h : i < 32) :
    (BitVec.ofNat 32 ((2 ^ width - 1) <<< lo)).getLsbD i = (decide (lo ≤ i) && decide (i - lo < width)) := by
  rw [BitVec.getLsbD_ofNat, Nat.testBit_shiftLeft, Nat.testBit_two_pow_sub_one]
  simp [h]

/-- A bit of a word with a field written. -/
theorem wordSet_bit (w : W32) (lo width v i : Nat) (h : i < 32) :
    (wordSet w lo width v).getLsbD i = if lo ≤ i ∧ i - lo < width then v.testBit (i - lo) else w.getLsbD i := by
  have hv : (BitVec.ofNat 32 (v <<< lo)).getLsbD i = (decide (lo ≤ i) && v.testBit (i - lo)) := by
    rw [BitVec.getLsbD_ofNat, Nat.testBit_shiftLeft]
    simp [h]
  simp only [wordSet, BitVec.getLsbD_or, BitVec.getLsbD_and, BitVec.getLsbD_not, mask_bit _ _ _ h, hv, h, decide_true, Bool.true_and]
  by_cases h1 : lo ≤ i <;> by_cases h2 : i - lo < width <;> simp [h1, h2]

/-- A field reads what was written to it. -/
theorem wordGet_wordSet (w : W32) (lo width v : Nat) (h : lo + width ≤ 32) : wordGet (wordSet w lo width v) lo width = v % 2 ^ width := by
  have : (wordSet w lo width v).extractLsb' lo width = BitVec.ofNat width v := by
    ext i hi
    rw [BitVec.getElem_extractLsb', wordSet_bit _ _ _ _ _ (by omega), if_pos ⟨by omega, by omega⟩, ← BitVec.getLsbD_eq_getElem, BitVec.getLsbD_ofNat]
    simp [hi]
  rw [wordGet, this, BitVec.toNat_ofNat]

/-- Another field of the word keeps its value. -/
theorem wordGet_wordSet_ne (w : W32) (lo width v lo' width' : Nat) (h : lo' + width' ≤ 32) (hd : lo' + width' ≤ lo ∨ lo + width ≤ lo') :
    wordGet (wordSet w lo width v) lo' width' = wordGet w lo' width' := by
  have : (wordSet w lo width v).extractLsb' lo' width' = w.extractLsb' lo' width' := by
    ext i hi
    rw [BitVec.getElem_extractLsb', BitVec.getElem_extractLsb', wordSet_bit _ _ _ _ _ (by omega), if_neg (by omega)]
  rw [wordGet, wordGet, this]

variable (b : Block)

theorem fget_fset (f : Fld) (v : Nat) (h : f.lo + f.width ≤ 32) : (b.fset f v).fget f = v % 2 ^ f.width := by
  simp [Block.fget, Block.fset, fldGet, fldSet, regWord, wordGet_wordSet _ _ _ _ h]

theorem fget_fset_ne (f g : Fld) (v : Nat) (h : g.lo + g.width ≤ 32)
    (hd : g.off ≠ f.off ∨ g.lo + g.width ≤ f.lo ∨ f.lo + f.width ≤ g.lo) : (b.fset f v).fget g = b.fget g := by
  by_cases ho : g.off = f.off
  · simp only [Block.fget, Block.fset, fldGet, fldSet, regWord, ho, sget_sset_self]
    exact wordGet_wordSet_ne _ _ _ _ _ _ h (hd.resolve_left (by simpa using ho))
  · simp [Block.fget, Block.fset, fldGet, fldSet, regWord, sget_sset_ne ho]

/-- A word of the bank other than the field's own. -/
theorem regWord_fset_ne (f : Fld) (v o : Nat) (h : o ≠ f.off) : regWord (b.fset f v).regs o = regWord b.regs o := sget_sset_ne h

theorem regWord_count_ne (f : Fld) (n o : Nat) (h : o ≠ f.off) : regWord (b.count f n).regs o = regWord b.regs o := sget_sset_ne h

theorem count_eq_fset (f : Fld) (n : Nat) : b.count f n = b.fset f (satTo f.width (b.fget f + n)) := rfl

end Sys2Proof.Machine
end

