-- ==== Sys2Proof/Laws/Shared.lean ====
section
/-! SUPPORT. What the shared operations do, once each: a TLP, a BAR0 write, a BAR4 access, a descriptor's start, a thread's word, an array's
word, a party's consent command; where they let the command through, and where they do not. -/
namespace Sys2Proof.Machine

variable {b : Block} {fn off camp seq op t f n : Nat}

/-- A TLP reaches its BARs, or it is dropped by IDE, or it is an Unsupported Request. -/
theorem tlp_cases (b : Block) (fn : Nat) (g : Block → Block) :
    (Reaches b fn = true ∧ b.tlp fn g = g b) ∨ (b.ideDrops fn = true ∧ b.tlp fn g = b) ∨
      (b.ideDrops fn = false ∧ b.fnDecodes fn = false ∧ b.tlp fn g = (b.bump (F.uncorrErrors (fn / 16))).send (.tlpStatus fn 1)) := by
  cases h1 : b.ideDrops fn <;> cases h2 : b.fnDecodes fn <;> simp [Block.tlp, Reaches, h1, h2]

theorem tlp_of (h : Reaches b fn = true) (g : Block → Block) : b.tlp fn g = g b := by
  simp only [Reaches, Bool.and_eq_true, Bool.not_eq_true'] at h
  simp [Block.tlp, h.1, h.2]

theorem barWrite_of (h : Writes b fn off = true) (g : Block → Block) : b.barWrite fn off g = g b := by
  simp only [Writes, Bool.and_eq_true] at h
  simp [Block.barWrite, tlp_of h.1, h.2]

/-- A function that reaches its BARs without the right to write the word has the write counted and dropped (R380). -/
theorem barWrite_denied (h : Reaches b fn = true) (hw : b.mayWrite fn off = false) (g : Block → Block) :
    b.barWrite fn off g = b.bump F.deniedWrites := by
  simp [Block.barWrite, tlp_of h, hw]

theorem bar4Access_of (h : Debugs b fn = true) (w : Bool) (g : Block → Block) : b.bar4Access fn off w g = g b := by
  simp only [Debugs, Bool.and_eq_true] at h
  simp [Block.bar4Access, tlp_of h.1, h.2]

theorem withDesc_of {d : Desc} (h : Waits b camp seq op d) (g : Desc → Block → Block) : b.withDesc camp seq op g = g d b := by
  simp [Block.withDesc, h.1, h.2.1, h.2.2]

/-- A command for a descriptor that is not there, is another opcode or has started changes nothing. -/
theorem withDesc_cases (b : Block) (camp seq op : Nat) (g : Desc → Block → Block) :
    b.withDesc camp seq op g = b ∨ ∃ d, Waits b camp seq op d ∧ b.withDesc camp seq op g = g d b := by
  unfold Block.withDesc
  split
  · next d hd =>
    by_cases h : d.op = op ∧ d.started = false
    · exact .inr ⟨d, ⟨hd, h.1, h.2⟩, by simp [h]⟩
    · exact .inl (by simp [h])
  · exact .inl rfl

theorem byParty_of {mc : Bool} (h : mc = true ∨ Writes b fn 0x200000 = true) (g : Block → Block) : b.byParty mc fn g = g b := by
  cases mc
  · simpa [Block.byParty] using barWrite_of (h.resolve_left (by decide)) g
  · rfl

theorem runWord_of {row : Nat → Bool} (h : Issues b t row = true) (k : Nat → ThreadSt → Block → Block) :
    b.runWord t row k = k ((AtIssue b t).fetch t) ((AtIssue b t).thread t) (AtIssue b t) := by
  simp only [Issues, Bool.and_eq_true, Bool.not_eq_true', decide_eq_true_eq] at h
  obtain ⟨⟨⟨⟨⟨⟨h1, h2⟩, h3⟩, h4⟩, h5⟩, h6⟩, h7⟩ := h
  simp only [AtIssue] at *
  simp [Block.runWord, h1, h2, h3, h4, h5, h6, h7]

/-- A thread's word runs, or nothing changes, or, with the issue slot taken, the thread faults: poison on its fetch, an illegal word. -/
theorem runWord_cases (b : Block) (t : Nat) (row : Nat → Bool) (k : Nat → ThreadSt → Block → Block) :
    (Issues b t row = true ∧ b.runWord t row k = k ((AtIssue b t).fetch t) ((AtIssue b t).thread t) (AtIssue b t)) ∨ b.runWord t row k = b ∨
      b.runWord t row k = ((AtIssue b t).setThread t { (AtIssue b t).thread t with badAt := wordOf ((AtIssue b t).fetchAt t) }).fault t 5
        ((AtIssue b t).thread t).pc ∨ b.runWord t row k = (AtIssue b t).fault t 1 0 := by
  by_cases h : Issues b t row = true
  · exact .inl ⟨h, runWord_of h k⟩
  · refine .inr ?_
    simp only [Issues, AtIssue, Bool.and_eq_true, Bool.not_eq_true', decide_eq_true_eq] at h
    unfold Block.runWord
    simp only [AtIssue]
    split
    · exact .inl rfl
    · split
      · exact .inr (.inl rfl)
      · split
        · exact .inr (.inr rfl)
        · split
          · exact .inl rfl
          · split
            · exact .inr (.inr rfl)
            · next h1 h2 h3 h4 h5 => simp_all

theorem inSlot_of {w : SlotWork} {slot n : Nat} (h : Runs b f slot n w = true) (cls camp : Nat) (k : Block → Block) : b.inSlot f slot cls camp n w k = k b := by
  unfold Block.inSlot
  by_cases hn : n < 4096
  · simp [hn]
  · simp only [Runs, hn, decide_false, Bool.false_or] at h
    revert h
    cases hu : b.slotUse f slot <;> simp [hn, Block.underGrant]
    intro h1 h2
    simp [h1, h2]

theorem headWord_of {op : Nat} (hr : (b.array f n).running = true) (hw : arrWordOk (b.array f n).head = true)
    (ho : wordOp (b.array f n).head = op) (k : Nat → ArrSt → Block → Block) :
    b.headWord f n op k = k (b.array f n).head (b.array f n) b := by
  simp [Block.headWord, hr, hw, ho]

end Sys2Proof.Machine
end

