-- ==== Sys2Proof/Tests/Slice0.lean ====
section
/-! SUPPORT. The tests: an ill-formed command for each range check, which the check refuses; values that the spec gives; and, for the hypotheses
of each statement, a state and operands that meet them together. -/
set_option Elab.async false
namespace Sys2Proof.Tests
open Sys2Proof Sys2Proof.Machine

/-- A module in service: powered, started up, H0 up, FN 0 with Bus Master and MSI-X. -/
def on : Block := { Block.reset with
  modu := { Block.reset.modu with pwrGood := true, vinMv := 48000, stages := 2 ^ 96 - 1 }
  boot := { Block.reset.boot with running := true, en := ⟨true, true, true, true, true, true, true⟩, stage := 10, fwRunning := true, ready := true }
  host := { Block.reset.host with ports := [(0, ⟨true, true, 6, 16, 3, false, 0, false⟩)], fns := [(0, { FnSt.init with bme := true, msixEnable := true })] } }

/-- The same with the time at `t` nanoseconds. -/
def onAt (t : Nat) : Block := { on with fab := { on.fab with time := t } }

/-- A module stopped for bring-up at the first hold. -/
def bring : Block := { on with boot := { on.boot with bringup := true, hold := true, stage := 4, running := false } }

/-- A desk with grants, no request and nothing that tapers. -/
def desk (gs : List Grant) : Desk := ⟨100, [], gs, 0, 0, [], [], [], [], 0⟩

/-! ### Registers -/

theorem test_reads : Reaches on 0 = true ∧ inEight 0x10001C 4 = true ∧ inEight 6 2 = true ∧ inEight 0 8 = true := by decide
theorem test_whole_words : Reaches on 0 = true ∧ 0x200080 % 4 = 0 ∧ 0xFFFFFFFF < 2 ^ 32 ∧ 0x500010 % 8 = 0 := by decide
theorem test_halves : Writes on 0 0x500010 = true ∧ wideWritable.contains 0x500010 = true ∧ 0x500010 < bar4 ∧ Writes on 0 0x500014 = true := by decide
theorem test_debug : Debugs bring 0 = true := by decide
theorem test_queries : (Writes on 0 0x400008 && Writes on 0 0x500014 && Writes on 0 0x700060 && Writes on 0 0x800010 && Writes on 0 0xA00014 &&
    Writes on 0 0xA00018 && Writes on 0 0xC00010 && Writes on 0 0xB00008 && Writes on 0 0xB0000C && Writes on 0 0xB00010 && Writes on 0 0xB00014) = true := by
  decide
theorem test_refused_identity : (Instr.registerWrite 0 4 4 15 1).barWrites = some (0, 4) ∧ isLocal 4 = false ∧ isIdentity 4 = true := by decide
theorem test_refused_consent : (Instr.propose false 16).barWrites = some (16, 0x200000) ∧ isLocal 0x200000 = false ∧ 0x200000 < 0x300000 ∧ 16 ≠ 0 := by decide
theorem test_refused_other : (Instr.routeQuery 16 1).barWrites = some (16, 0x400008) ∧ isLocal 0x400008 = false ∧ 0x300000 ≤ 0x400008 ∧
    on.fnServes 16 0 = false := by decide
theorem test_latch : 0x900048 ∈ wideRegs ∧ on.latched 0 0x900048 = none ∧ (on.latchHigh 0 0x900048).latched 0 0x900048 = some 0 := by decide
theorem test_staging : 0x700010 ∈ wideWritable ∧ on.stagedLow 0 0x700010 = none ∧ (on.stageLow 0 0x700010 7).stagedLow 0 0x700010 = some 7 := by decide
theorem test_tlp : Reaches on 0 = true ∧ inEight 6 4 = false ∧ inEight 0 9 = false ∧ 8 % 4 = 0 ∧ 7 % 16 ≠ 0 ∧ 7 % 16 ≠ 15 := by decide
theorem test_debug_closed : Reaches on 0 = true ∧ on.boot.bringup = false := by decide
theorem test_counter : F.deniedWrites.lo + F.deniedWrites.width ≤ 32 := by decide
theorem test_static_word : ∃ r, regAt 0x700000 = some r ∧ r.fields ≠ [] := ⟨_, rfl, by decide⟩

/-! ### The fabric and steps -/

/-- A packet of one flit from site 1 to site 2, core 0 to core 0, of camp 0. -/
def hdr12 : Nat := 2 * 2 ^ 16 + 2 ^ 32
/-- The routers have their tables. -/
def routed : Block := { on with fab := { on.fab with routesOk := true } }
theorem test_flit_from_link : routed.boot.en.fabric = true ∧ routed.fab.routesOk = true ∧ siteKind routed.wafer.kinds 2 ≠ 3 ∧
    routed.unpowered (siteField routed.wafer.kinds 2) = false ∧
    (routed.setWire (vcKey 2 3 0) [⟨hdr12, false, true, true, 0⟩]).wire (vcKey 2 3 0) = [⟨hdr12, false, true, true, 0⟩] := by decide +kernel
/-- The route of one column east turns at its end (R43). -/
theorem test_flit_from_endpoint : (routed.vc (vcKey 1 4 0)).flits.length < vcDepth ∧ (routed.vc (vcKey 1 4 0)).left = 0 ∧
    routed.routedHeader 1 0 hdr12 = some (hdr12 + 0x7F * 2 ^ 24) := by decide +kernel
theorem test_flit_of_payload : ((routed.setVc (vcKey 1 4 0) { VcSt.init with left := 2 }).vc (vcKey 1 4 0)).left ≠ 0 := by decide
/-- Check bits stand above the 64 data bits of an SRAM codeword (R149). -/
theorem test_strike_code : sget (fun _ => 0) (on.strikeCode sramBase 1 2).mem.bad sramBase = 1 + 2 * 2 ^ 64 := by decide
/-- The header that the endpoint sends leaves site 1 by port 1, and is on the wire to site 2's west port. -/
theorem test_mesh_moves : ((flitReceiveEff 1 4 0 0 0 hdr12 true routed).wire (vcKey 2 3 0)).length = 1 := by decide +kernel
theorem test_time_sync : on.boot.en.fabric = true := rfl
theorem test_unlock : let b := (onAt 1000000).setSite 5 { SiteSt.init with locked := true, offset := 3 }
    siteKind b.wafer.kinds 5 ≠ 3 ∧ (b.siteSt 5).unlockedAt = 0 ∧ (b.siteSt 5).lastSync + 1000000 ≤ b.fab.time := by decide
theorem test_heartbeat : on.fab.dead.contains (5, 1) = false := by decide
theorem test_stall : let b := onAt 100000
    b.boot.en.fabric = true ∧ siteKind b.wafer.kinds 5 ≠ 3 ∧ b.fab.dead.contains (5, 1) = false ∧
    max 1 (b.fget F.stallLimitUs) ≤ (b.fab.time - sget (fun _ => 0) b.fab.lastAck (linkKey 5 1)) / 1000 := by decide
theorem test_token : let b := (on.setStepSt 2 ⟨7, true⟩).setCampField 2 9 ⟨6, 6, 0, true⟩
    (b.stepSt 2).inStep = true ∧ (b.campField 2 9).member = true ∧ (b.campField 2 9).token ≠ (b.stepSt 2).token := by decide
theorem test_step_done : let b := (on.setStepSt 2 ⟨7, true⟩).setCampField 2 9 ⟨7, 6, 3, true⟩
    (stepDoneField 2 9 false b).stepComplete 2 = false := by decide
theorem test_boundary_idle : on.boot.en.service = true ∧ on.resetting 0 = false ∧ on.camp.held.contains 0 = false ∧ (on.phaseSt 0).waiting = false ∧
    on.inStep 0 = false ∧ (on.phaseSt 0).ramping = false := by decide
theorem test_boundary_step : let b := on.setStepSt 0 ⟨1, true⟩
    b.boot.en.service = true ∧ b.resetting 0 = false ∧ b.camp.held.contains 0 = false ∧ (b.phaseSt 0).waiting = false ∧ b.inStep 0 = true ∧
    b.stepComplete 0 = true ∧ b.resultsReady 0 = true ∧ b.barrierOpen 0 = false ∧ (b.item1 0).tokenRoom 0 = true := by decide
theorem test_idle_hold : let b := onAt 1000000000000
    b.inStep 0 = false ∧ (b.phaseSt 0).ramping = false ∧ (b.phaseSt 0).waiting = false ∧
    (b.phaseSt 0).idleAt + b.fget F.serveConfigIdleHoldMs * 1000000 ≤ b.fab.time := by decide

/-! ### Rations -/

/-- Field 3 with a grant of 9, a waiting request of 40 handed 5, and a taper of 2. -/
def desk3 : Block := (onAt 1000000000).setDesk 3 ⟨100, [⟨⟨7, 1, 0⟩, 1, 0, 40, 5, 0, 0, 0, false, false, false⟩], [⟨⟨8, 0, 0⟩, 0, 0, 9, false, 16⟩], 2, 0, [], [], [], [], 0⟩

theorem test_starved : ∃ r, (desk3.desk 3).queue.find? (·.who == ⟨7, 1, 0⟩) = some r ∧ r.starved = false ∧
    desk3.starveUs r.cls < (desk3.fab.time - r.at_) / 1000 - r.heldUs := ⟨_, rfl, by decide, by decide⟩
theorem test_caught : ∃ g, desk3.grantOf 3 ⟨8, 0, 0⟩ = some g ∧ 0 < g.counted ∧ g.counted ≤ 512 - (desk3.desk 3).ballast := ⟨_, rfl, by decide, by decide⟩
theorem test_excursion : let b := on.setDesk 3 ⟨100, [], [⟨⟨8, 0, 0⟩, 0, 0, 9, false, 16⟩], 0, 512, [], [], [], [], 0⟩
    ∃ g, b.grantOf 3 ⟨8, 0, 0⟩ = some g ∧ 512 ≤ (b.desk 3).ballast ∧ 0 < g.counted := ⟨_, rfl, by decide, by decide⟩
theorem test_wide_hold : let b := (onAt 1000000000).setDesk 3 (desk [⟨wideAsker 2, 1, 0, 4, false, 16⟩])
    b.wideOn 3 2 = true ∧ (((List.range 4).map (threadKey 3 2)).any fun t => (b.thread t).live && isWide (b.thread t).vl (b.thread t).ew) = false ∧
    (b.core 3 2).lastWide + b.fget F.tcConfigWideHoldUs * 1000 ≤ b.fab.time := by decide
theorem test_burst_idle : let b := (onAt 1000000000).setDesk 3 (desk [⟨ctlAsker 1 0, 1, 0, 32, false, 16⟩])
    ∃ g, b.grantOf 3 (ctlAsker 1 0) = some g ∧ g.standing = false ∧ (b.ctl 3 1).deepAt + b.fget F.burstCtrlBurstIdleUs * 1000 ≤ b.fab.time ∧
    ((podChans 1).all fun n => decide ((b.chanQueue 3 n).length < b.queueDeep)) = true :=
  ⟨_, rfl, by decide, by decide, by decide⟩

/-- Handover by the spec's R66: a release of 9 gives the waiting request, which needs 35, all 9; nothing tapers. -/
theorem test_handover : (handOver 9 (desk3.desk 3).queue).1.map (·.handed) = [14] ∧ (handOver 9 (desk3.desk 3).queue).2 = 0 := by decide
/-- A desk without loan slots moves one ration a microsecond up and one down (R63); what tapers goes to the waiting request first (R66). -/
theorem test_slew : (({ desk [] with taper := 2 } : Desk).move 1120 false 0 0 122 122).1.taper = 1 ∧
    ((desk3.desk 3).move 1120 false 0 0 122 122).1.queue.map (fun r => (r.handed, r.ramped)) = [(7, 1)] := by decide
/-- Every desk of the block is sound. -/
theorem test_sound : ∀ f, (desk3.desk f).sound := by
  intro f
  by_cases h : f = 3
  · subst h; exact ⟨by decide, by decide, by decide, by decide, by decide⟩
  · have e : desk3.desk f = Desk.init := (sget_sset_ne (d := fun _ => Desk.init) (m := ([] : Sparse Desk)) (v := desk3.desk 3) h).trans rfl
    rw [e]; exact ⟨by simp [Desk.init], by simp [Desk.init], by simp [Desk.init], by simp [Desk.init], by simp [Desk.init]⟩

/-! ### Tiers, DRAM, codes and the cellar -/

/-- Field 3 in use, with every unit ready and its stack bonded; camp 0 as the default image has it. -/
def rich : Block := { onAt 1000000000 with
  wafer := { on.wafer with fields := [(3, ⟨2, 2 ^ 288 - 1, 2 ^ 12 - 1, 2 ^ 24 - 1, 2 ^ 32 - 1, 2 ^ 16 - 1, 15, 2 ^ 32 - 1, 0, 0⟩)] }
  dram := { on.dram with
    stackSts := [(3, ⟨1, 40, 0, 0, 0, 0⟩)]
    chans := [(chanKey 3 0, ⟨1, 0, [], [], [], 0, 0, 0, 0⟩), (chanKey 3 1, ⟨1, 0, [], [], [], 0, 0, 0, 0⟩)] } }

/-- A read of 4 bytes at `a`, number 5, of camp 0. -/
def readOp (a : Nat) : MemOp := ⟨5, none, 0, 0, .read, [a], 4, false, .none, 3, false, 0, false, [], false, 0, none, 0, 0, false, 0⟩

/-- A descriptor of camp 0, number 7, that waits. -/
def dsc (op raw : Nat) : Desc := ⟨0, 0, 0, 7, 0, op, false, false, raw, 0, false⟩

def withDsc (d : Desc) (b : Block) : Block := { b with ring := { b.ring with descs := [d] } }

theorem test_access : let b : Block := { on with tc := { on.tc with ops := [readOp 0x100000] } }
    b.tc.ops.find? (fun o => o.id == 5) = some (readOp 0x100000) ∧ (readOp 0x100000).performed = false ∧ (readOp 0x100000).fed ≠ 9 ∧
    b.stale (readOp 0x100000) = false ∧ (b.tc.ops.any fun x => (readOp 0x100000).behind x) = false ∧
    ((b.sites (readOp 0x100000)).any fun s => match s.1 with | .at_ p => b.unpowered (physField p) | _ => false) = false := by decide

/-- Granule 7 of field 3 lies in DRAM frame 33; its move-up into SRAM is queued, and DMA slot 0 carries it under its grant. -/
def moving : Block := { rich.setDesk 3 (desk [⟨dmaSlot 0, 1, 0, 8, false, 16⟩]) with
  tier := { on.tier with dir := [(dirKey 3 7, ⟨2, 1, false, false, 0, 1, 33, 0, 2, 0, 0⟩)], frames := [(frameKey 3 2 33, ⟨1, 1, 0, false⟩)],
                         moves := [⟨3, 7, true, 1, 1, 1, false, 0, 0, 0, 0, false⟩] }
  host := { on.host with slots := [(96, some ⟨.move 7, 1, 0⟩)] } }

theorem test_move_start : ∃ m, moving.nextMove 3 0 true = some m ∧ m.granule = 7 ∧ (moving.dirEntry 3 7).state ≠ 5 ∧ (moving.dirEntry 3 7).state ≠ 6 ∧
    (moving.tier.moves.find? fun m => m.isOf 3 7 false).elim true (·.up) = true ∧ moving.tierOn = true ∧ Runs moving 3 0 0x8000 (.move 7) = true ∧
    0 < moving.available 3 m.tier 0 (decide ((moving.dirEntry 3 7).hint = 3)) ∧ moving.frameFree 3 m.tier 2000 = true :=
  ⟨_, rfl, by decide, by decide, by decide, by decide, by decide, by decide, by decide, by decide⟩

/-- The move runs from DRAM frame 33 into SRAM frame 2000. -/
def copying : Block := { moving with tier := { moving.tier with
  dir := [(dirKey 3 7, ⟨5, 1, false, false, 0, 1, 2000, 33, 1, 2, 0⟩)], moves := [⟨3, 7, true, 1, 1, 1, true, 2000, 2, 33, 0, true⟩] } }

theorem test_move_switch : (∃ m, copying.tier.moves.find? (fun m => m.field == 3 && m.granule == 7 && m.running && m.got) = some m) ∧
    ((copying.noteBulk 1 0 (copying.bulkSlots true (frameAddr 3 2 33) 0x8000 ++ copying.bulkSlots false (frameAddr 3 1 2000) 0x8000)).bulkSpend 0
      [(frameAddr 3 2 33, 0x8000)] [(frameAddr 3 1 2000, 0x8000)]).isSome = true := ⟨⟨_, rfl⟩, by decide +kernel⟩
theorem test_old_frame : let b := rich.setFrame 3 2 9 ⟨3, 1, 0, false⟩
    (b.frame 3 2 9).use = 3 ∧ (b.frame 3 2 9).reads = 0 := by decide

/-- An expert of one granule, resident in DRAM of field 3, announced there with a deadline of 500 microseconds. -/
def announced : Block := { rich with tier := { on.tier with
  dir := [(dirKey 3 7, ⟨2, 4, false, false, 0, 1, 9, 0, 2, 0, 0⟩)]
  objs := [(objKey 3 1, { TierObj.init with base := 7, count := 1, hint := 4 })]
  announces := [⟨0, 0, 2, 5, 1, 0, 0, 8, 0, 0, 1000000000, 500, 0⟩] } }

theorem test_ready_report : ∃ a, announced.tier.announces.find? (fun a => a.camp == 0 && a.layer == 2 && a.expert == 5) = some a ∧
    bitAt a.fields 3 = true ∧ announced.objResident 3 a.object = true ∧ announced.fab.time ≤ a.at_ + a.deadlineUs * 1000 :=
  ⟨_, rfl, by decide, by decide, by decide⟩
theorem test_substitute : let b : Block := { announced with fab := { announced.fab with time := 1000500000 } }
    ∃ a, b.tier.announces.find? (fun a => a.camp == 0 && a.layer == 2 && a.expert == 5) = some a ∧ a.decided = 0 ∧
    a.at_ + a.deadlineUs * 1000 ≤ b.fab.time := ⟨_, rfl, by decide, by decide⟩
theorem test_late : let b : Block := { rich with tier := { on.tier with waits := [⟨3, 0, 1, true, 4, 0, false, [7]⟩] } }
    let same (w : TierWait) : Bool := w.camp == 0 && w.object == 1 && w.step == true && w.key == 4 && (true || w.field == 3)
    b.tier.lates.contains (lateMark 3 0 1 true 4) = false ∧ (b.tier.waits.any fun w => same w && w.field == 3) = true ∧
    max 1 (b.fget F.tierDeadlineLateEventUs) < ((b.tier.waits.filter same).map fun w => (b.fab.time - w.at_) / 1000).foldl max 0 := by decide

/-- HINT MAP of one writable granule, no hint, at granule 7 of field 3. -/
def mapDsc : Desc := dsc 0x08 ((8 <<< 136) ||| ((2 ^ 48 + 3 * 2 ^ 40 + 7 * 2 ^ 15) <<< 192) ||| (1 <<< 256))

theorem test_hint_map : let b := withDsc mapDsc rich
    Waits b 0 7 0x08 mapDsc ∧ mapDsc.bits 16 0 2 = 0 ∧ mapBad b mapDsc = none ∧
    ((b.fieldObjs 3).filter fun no => decide (0 < no.2.count)).length < 65535 ∧ b.framesFree 3 2 [9] = true :=
  ⟨⟨rfl, rfl, rfl⟩, by decide +kernel, by decide +kernel, by decide +kernel, by decide +kernel⟩
theorem test_hint_map_room : bitsOf (mapDsc.field 24 8) 40 8 = 3 ∧ mapDsc.bits 32 0 26 = 1 ∧ 1 ≤ (withDsc mapDsc rich).available 3 2 0 false := by decide
theorem test_hint_unmap : let d := dsc 0x08 ((1 <<< 128) ||| ((2 ^ 48 + 3 * 2 ^ 40 + 7 * 2 ^ 15) <<< 192))
    let b := withDsc d announced
    Waits b 0 7 0x08 d ∧ d.bits 16 0 2 = 1 ∧ ∃ o, b.objAt (d.field 24 8) = some (3, 1, o) ∧ o.camp = 0 ∧ o.model = 0 :=
  ⟨⟨rfl, rfl, rfl⟩, by decide +kernel, announced.obj 3 1, by decide +kernel, by decide +kernel, by decide +kernel⟩
theorem test_hint_set : let d := dsc 0x08 ((2 <<< 128) ||| (1 <<< 136) ||| ((2 ^ 48 + 3 * 2 ^ 40 + 7 * 2 ^ 15) <<< 192))
    let b := withDsc d announced
    Waits b 0 7 0x08 d ∧ d.bits 16 0 2 = 2 ∧ ∃ o, b.objAt (d.field 24 8) = some (3, 1, o) ∧ o.camp = 0 ∧
      hintBad b d o.writable (decide (o.image ≠ 0)) = none ∧ (o.hinted d).hint ≠ 2 :=
  ⟨⟨rfl, rfl, rfl⟩, by decide +kernel, announced.obj 3 1, by decide +kernel, by decide +kernel, by decide +kernel, by decide +kernel⟩

theorem test_refresh_due : (rich.chan 3 0).state ≠ 3 ∧ (rich.stack 3).state ≠ 4 ∧ rich.boot.en.dram = true := by decide
theorem test_bring_writes : Writes bring 0 (0x1020010 + 0x80000 * 3) = true ∧ Writes bring 0 (0x1020018 + 0x80000 * 3) = true ∧
    bring.boot.bringup = true ∧ bitAt 0x80000000 31 = true ∧ bitAt 0x80000000 24 = false ∧ bitAt 0x81000000 24 = true ∧ bring.rowsLeft 3 0 0 ≠ 0 := by decide
theorem test_scan_done : (({ bring with dram := { bring.dram with tests := [(3, ⟨true, false, 0, 0, false, false⟩)] } } : Block).test 3).scanning = true := by decide
theorem test_zero_fill : ((rich.setFrame 3 2 9 ⟨4, 1, 0, false⟩).frame 3 2 9).use = 4 := by decide
theorem test_weeder : rich.weederOn 3 0 = true ∧ rich.lapNext 3 0 300 (rich.weeder 3 0).addr = 0 ∧ 0 < lapWords 0 ∧ rich.weedIdle 3 0 0 = true := by decide
theorem test_lap_slow : let b : Block := { rich with fab := { rich.fab with time := 10 ^ 15 } }
    b.boot.en.integ = true ∧ (b.weeder 3 0).alarmed = false ∧ max 1 (b.fget F.weederCtrlLapAlarmMs) < (b.fab.time - b.lapStart (b.weeder 3 0)) / 1000000 := by
  decide

/-- FLIP_ADDR names the first word of SRAM bank 0 of field 3, at bring-up. -/
def flipping : Block := { rich with
  boot := { bring.boot with en := on.boot.en }
  regs := [(0x700010, BitVec.ofNat 32 ((sramBase + 3 * 0x10000000) % 2 ^ 32)), (0x700014, BitVec.ofNat 32 ((sramBase + 3 * 0x10000000) / 2 ^ 32))] }

theorem test_flip : Writes flipping 0 0x700024 = true ∧ bitAt 1 0 = true ∧ bitAt 1 1 = false ∧ flipping.armError = 0 := by decide

/-- The cellar with all of controller 0's channels and its grants. -/
def cellar0 : Block := { (rich.setDesk (rich.hostField 0) (desk [⟨ccAsker 0 0, 1, 0, 8, false, 16⟩, ⟨ccAsker 0 1, 1, 0, 8, false, 16⟩])) with
  cellar := { on.cellar with mounted := true, ccs := [(0, ⟨1, 0xFFFF, 40, false, 0, 0⟩)] } }

/-- Image 4 of camp 0: one unit, WRITING, nothing programmed. -/
def image4 : Image := ⟨4, 0, 1, 1, 0, 1, 0, 0, [], 0, []⟩
def withImages (xs : List Image) : Block := { cellar0 with cellar := { cellar0.cellar with images := xs } }

theorem test_install_create : let d := dsc 0x03 ((4 <<< 144) ||| (1 <<< 160))
    let b := withDsc d cellar0
    Waits b 0 7 0x03 d ∧ b.cellar.mounted = true ∧ d.bits 16 0 2 = 0 ∧ d.field 18 2 ≠ 0 ∧ (b.image? (d.field 18 2)).isSome = false ∧ d.field 20 4 ≠ 0 ∧
    b.cellar.images.length < 1024 ∧
    sumOf ((b.cellar.images.filter fun x => x.camp == 0).map Image.extents) + cdiv (96 * d.field 20 4) 131072 ≤ campExtents b.camp.live 0 ∧
    b.freeRun (cdiv (96 * d.field 20 4) 131072) = some 0 := ⟨⟨rfl, rfl, rfl⟩, rfl, by decide, by decide, by decide, by decide, by decide, by decide, by decide⟩
theorem test_install_write : let d := dsc 0x03 ((1 <<< 128) ||| (4 <<< 144) ||| (1 <<< 160))
    let b := withDsc d (withImages [image4])
    Waits b 0 7 0x03 d ∧ b.cellar.mounted = true ∧ d.bits 16 0 2 = 1 ∧ b.image? (d.field 18 2) = some image4 ∧ image4.camp = 0 ∧ writeBad d image4 = none :=
  ⟨⟨rfl, rfl, rfl⟩, rfl, by decide, by decide, by decide, by decide⟩
theorem test_install_erase : let d := dsc 0x03 ((3 <<< 128) ||| (4 <<< 144))
    let b := withDsc d (withImages [image4])
    Waits b 0 7 0x03 d ∧ b.cellar.mounted = true ∧ d.bits 16 0 2 = 3 ∧ b.image? (d.field 18 2) = some image4 ∧ image4.camp = 0 ∧ b.imageNamed image4 = false :=
  ⟨⟨rfl, rfl, rfl⟩, rfl, by decide, by decide, by decide, by decide⟩
theorem test_install_seal : let d := dsc 0x03 ((2 <<< 128) ||| (4 <<< 144))
    let b := withDsc d (withImages [{ image4 with mark := 96 }])
    Waits b 0 7 0x03 d ∧ b.cellar.mounted = true ∧ d.bits 16 0 2 = 2 ∧ b.image? (d.field 18 2) = some { image4 with mark := 96 } ∧ image4.camp = 0 ∧
    image4.state ≠ 4 ∧ image4.units ≤ 96 ∧ (b.cellar.staged.any fun s => s.image == 4) = false :=
  ⟨⟨rfl, rfl, rfl⟩, rfl, by decide +kernel, by decide +kernel, rfl, by decide, by decide, rfl⟩

/-- Unit 0 of image 4 waits to be programmed. -/
def staging : Block := { withImages [image4] with cellar := { (withImages [image4]).cellar with staged := [⟨0, 7, 4, 0, 77, false⟩] } }
theorem test_program : ∃ s, staging.cellar.staged.find? (fun s => s.unit == 0 && !s.done) = some s ∧ staging.image? s.image = some image4 ∧
    image4.base + image4.mark = 0 ∧ staging.unitDark 0 = false ∧ staging.poolSize (unitChan 0) ≠ 0 ∧ (staging.cc (unitCc 0)).paused = false ∧
    staging.progGrant (unitChan 0) = true ∧ (staging.pblock (blockKey (unitChan 0) (staging.mapped (unitChan 0) (unitBlock 0)))).use ≠ 3 :=
  ⟨⟨0, 7, 4, 0, 77, false⟩, by decide, by decide, by decide, by decide, by decide, by decide, by decide, by decide⟩
theorem test_unit_read : let r : UnitRead := ⟨128, false, 3, 1, 0, 1, 0, .move⟩
    let b : Block := { cellar0 with cellar := { cellar0.cellar with reads := [r] } }
    b.nextRead 0 = some r ∧ b.cellar.mounted = true ∧ b.unitDark 128 = false ∧ b.readGrant (0 / 16) = true ∧
    sget (fun _ => false) b.cellar.lost 128 = false ∧ 0 ≤ min 100 (b.fget F.cellarConfigBchRelocPct) := by decide
theorem test_relocation : let b : Block := { cellar0 with cellar := { cellar0.cellar with relocs := [⟨0, 3, 0, 0, []⟩] } }
    (b.cellar.relocs.any fun r => r.chan == 0 && r.lblock == 3) = true ∧
    (b.cellar.relocs.any fun r => r.chan == 0 && decide (r.target ≠ 0)) = false ∧ (b.cc (0 / 16)).paused = false ∧ b.unitDark 0 = false ∧
    (b.cellar.relocs.any fun r => (r.chan == 0 && r.lblock == 3) && b.sealed r) = false ∧
    (b.cellar.reads.any fun r => decide (unitChan r.unit = 0) && decide ((b.unitRank r).1 < 3)) = false ∧ b.progGrant 0 = true := by
  decide
/-- The pool of a channel is the 4,096 blocks past the mapped ones (R171): one of them is the spare. -/
theorem test_spare : (cellar0.spare 0).isSome = true := by
  have keep : ∀ (l : List Nat) (best : Option (Nat × Nat)), (best.isSome = true ∨ 16384 ∈ l) → (l.foldl (fun best p =>
      if (cellar0.pblock (blockKey 0 p)).use ≠ 0 ∨ cellar0.isMapped 0 p = true then best
      else
        let e := (cellar0.pblock (blockKey 0 p)).erases
        match best with
        | some (e', q) => if e < e' then some (e, p) else some (e', q)
        | none => some (e, p)) best).isSome = true := by
    intro l
    induction l with
    | nil => intro best h; simpa using h
    | cons p l ih =>
      intro best h
      refine ih _ ?_
      rcases h with h | h
      · left
        obtain ⟨x, rfl⟩ := Option.isSome_iff_exists.mp h
        by_cases c : (cellar0.pblock (blockKey 0 p)).use ≠ 0 ∨ cellar0.isMapped 0 p = true
        · simp [c]
        · simp only [c, if_false]; split <;> rfl
      · rcases List.mem_cons.mp h with rfl | h
        · left
          have c : ¬ ((cellar0.pblock (blockKey 0 16384)).use ≠ 0 ∨ cellar0.isMapped 0 16384 = true) := by decide
          beta_reduce
          rw [if_neg c]
          rcases best with _ | x
          · rfl
          · simp only; split <;> rfl
        · exact .inr h
  have h := keep (List.range 20480) none (.inr (List.mem_range.mpr (by decide)))
  unfold Block.spare
  rw [Option.isSome_map]
  exact h
theorem test_relocation_switch : let r : Reloc := ⟨0, 3, 16385, 1024, []⟩
    let b : Block := { cellar0 with cellar := { cellar0.cellar with relocs := [r] } }
    b.cellar.relocs.find? (fun r => r.chan == 0 && r.lblock == 3 && decide (r.target ≠ 0)) = some r ∧ (b.cc (0 / 16)).paused = false ∧
    b.unitDark 0 = false ∧ b.progGrant 0 = true ∧ 1024 ≤ r.copied := by decide
theorem test_block_erase : let b := cellar0.setPBlock (blockKey 0 5) ⟨2, 0, 0, 0, 0, false, 0, 0⟩
    (b.cc (0 / 16)).paused = false ∧ b.unitDark 0 = false ∧ (b.pblock (blockKey 0 5)).flight = 0 ∧ b.progGrant 0 = true ∧
    (b.pblock (blockKey 0 5)).use = 2 := by decide
theorem test_mount : (on.cc 0).state = 0 ∧ ({ on with boot := { on.boot with running := true } } : Block).boot.running = true := by decide
theorem test_cellar_up : (cellar0.cc 0).state = 1 ∧ (cellar0.cc 0).state ≠ 2 ∧ 5 < 16 ∧ bitAt (cellar0.cc 0).chans 5 = true := by decide

/-! ### JOBs and words -/

/-- JOB 1 of camp 0 on core 0 of field 3, with array 0 and one thread; its code of 64 bytes lies at granule 1. -/
def job1 (phase : Nat) : Job := ⟨1, 0, 7, 8, 1, 1, 1, 2 ^ 48 + 3 * 2 ^ 40 + 0x8000, 64, 0, 0, 8, 100, phase, 0, none, 0, 0, false, [], []⟩

/-- Thread 0 of core 0 of field 3. -/
def t0 : Nat := threadKey 3 0 0

/-- Its registers: g1 aligned in the local memory, g2 a stride, g3 a global address, g4 an array's bank 1. -/
def th0 : ThreadSt := { ThreadSt.init with live := true, job := 1, g := [(1, 0x100), (2, 8), (3, 0x80000), (4, 4), (5, 64)], vl := 8 }

def jobIs (j : Job) (b : Block) : Block := { b with tc := { b.tc with jobs := [j], nextJob := 2 } }

/-- Thread 0 runs and the word at its PC is `w`. -/
def runs (w : Nat) (th : ThreadSt) : Block := { jobIs (job1 2) rich with
  tc := { (jobIs (job1 2) rich).tc with threads := [(t0, th)] }
  mem := { on.mem with bytes := (List.range 4).map fun i => (localAddr 3 0 0 + i, BitVec.ofNat 8 (w >>> (8 * i))) } }

/-- A register word: major, RD, RS1, RS2, FUNC (R201). -/
def reg (m rd rs1 rs2 f : Nat) : Nat := m + rd * 2 ^ 6 + rs1 * 2 ^ 11 + rs2 * 2 ^ 16 + f * 2 ^ 21

/-- A SYS word. -/
def sys (s rd rs1 rs2 : Nat) : Nat := reg 0x38 rd rs1 rs2 s

/-- JOB on core 0 of field 3: one thread, 64 bytes of code at granule 1. -/
def jobDsc : Desc := dsc 0x06 ((8 <<< 128) ||| (1 <<< 224) ||| ((2 ^ 48 + 3 * 2 ^ 40 + 0x8000) <<< 512) ||| (64 <<< 576) ||| (1 <<< 704) ||| (1 <<< 720))

theorem test_job : Waits (withDsc jobDsc rich) 0 7 0x06 jobDsc ∧ (withDsc jobDsc rich).jobBad jobDsc = none := ⟨⟨rfl, rfl, rfl⟩, by decide +kernel⟩
/-- A JOB whose pod is awake: all its 72 cores are ready (R75). -/
theorem test_job_launch : let b := (jobIs (job1 0) rich).setDesk 3 (desk [⟨wakeAsker 0, 1, 0, 72, false, 16⟩])
    b.jobOf 0 7 = some (job1 0) ∧ (job1 0).phase = 0 ∧ b.coresFree (job1 0) = true ∧ b.arraysFree (job1 0) = true ∧
    b.earlierJob (job1 0) false = false ∧ b.jobsRunning < 256 ∧ (b.askWakes (job1 0)).awake (job1 0) = true :=
  ⟨rfl, rfl, by decide +kernel, by decide +kernel, by decide +kernel, by decide +kernel, by decide +kernel⟩
/-- Without the wake grant it asks for it, and waits. -/
theorem test_job_asks : let b := (jobIs (job1 0) rich).askWakes (job1 0)
    b.awake (job1 0) = false ∧ b.waits 3 (wakeAsker 0) = true := by decide +kernel

/-- The code's granule lies in DRAM frame 32 of field 3. -/
def loaded : Block := { withDsc { jobDsc with started := true } (jobIs (job1 1) rich) with
  tier := { on.tier with dir := [(dirKey 3 1, ⟨2, 0, false, false, 0, 1, 32, 0, 2, 0, 0⟩)] } }
theorem test_job_start : loaded.jobOf 0 7 = some (job1 1) ∧ (loaded.desc? 0 7).isSome = true ∧ (job1 1).phase = 1 ∧ loaded.earlierJob (job1 1) true = false ∧
    loaded.readDenied 0 (job1 1).code (job1 1).codeLen = 0 ∧ (loaded.codeImage (job1 1)).2.map List.length = some 64 := by decide +kernel

theorem test_job_complete : let b := jobIs (job1 2) rich
    b.jobOf 0 7 = some (job1 2) ∧ b.jobBusy (job1 2) = false ∧ (job1 2).phase = 2 ∧ b.jobEnded (job1 2) = true ∧ b.arraysIdle (job1 2) = true ∧
    (job1 2).fault = none ∧ (job1 2).ended = 0 := by decide +kernel
theorem test_job_aborted : let j : Job := { job1 3 with ended := 5 }
    let b := jobIs j rich
    b.jobOf 0 7 = some j ∧ b.jobBusy j = false ∧ j.phase = 3 ∧ b.arraysIdle j = true ∧ j.ended ≠ 0 := by decide +kernel
theorem test_job_faulted : let j : Job := { job1 3 with fault := some (1, 3, 0, 0, 8, 0) }
    let b := jobIs j rich
    b.jobOf 0 7 = some j ∧ b.jobBusy j = false ∧ j.phase = 3 ∧ b.arraysIdle j = true ∧ j.fault = some (1, 3, 0, 0, 8, 0) ∧ j.ended = 0 := by decide +kernel
theorem test_watchdog : let b := jobIs (job1 2) rich
    b.jobOf 0 7 = some (job1 2) ∧ (job1 2).phase = 2 ∧ (job1 2).limitMs ≠ 0 ∧ (job1 2).start + (job1 2).limitMs * 1000000 < b.fab.time := by decide
/-- The fetch of a word without an error changes nothing but the core's rotation (R195). -/
theorem test_at_issue : AtIssue (runs 1 th0) t0 = (runs 1 th0).issued t0 := by decide +kernel
theorem test_parity : let b := runs 1 th0
    (b.thread t0).live = true ∧ b.job? (b.thread t0).job = some (job1 2) := by decide
/-- A performed read of thread 0. -/
def doneOp : MemOp := { readOp 0x100000 with thread := some t0, dst := .g 6 false 4, performed := true, result := 9 }
theorem test_load_return : let b : Block := { runs 1 th0 with tc := { (runs 1 th0).tc with ops := [doneOp] } }
    b.tc.ops.find? (fun o => o.id == 5) = some doneOp ∧ doneOp.performed = true ∧ doneOp.kind.returns = true ∧ doneOp.thread = some t0 ∧
    b.stale doneOp = false := by decide
/-- A performed read that firmware issued. -/
theorem test_firmware_return : let o : MemOp := { doneOp with thread := none, dst := .input 2 }
    o.performed = true ∧ o.kind.returns = true ∧ o.thread = none ∧ o.array = none := by decide
theorem test_write_ack : let o : MemOp := { doneOp with kind := .write 3, dst := .none }
    let b : Block := { runs 1 th0 with tc := { (runs 1 th0).tc with ops := [o] } }
    b.tc.ops.find? (fun o => o.id == 5) = some o ∧ o.performed = true ∧ o.kind.returns = false := by decide

/-- A legal word of each scalar row issues. -/
theorem test_scalar_words : ([(0x01, reg 0x01 6 1 2 0), (0x02, reg 0x02 6 1 5 0), (0x03, reg 0x03 6 1 5 0), (0x04, reg 0x04 6 1 5 0), (0x05, reg 0x05 6 1 5 0),
    (0x06, reg 0x06 6 1 5 0), (0x07, reg 0x07 6 1 5 0), (0x08, reg 0x08 3 1 2 0), (0x09, reg 0x09 6 1 2 0), (0x0A, reg 0x0A 3 1 2 0),
    (0x0A, reg 0x0A 3 1 0 4), (0x0A, reg 0x0A 3 1 0 5), (0x0A, reg 0x0A 6 1 0 6)].all fun x => Issues (runs x.2 th0) t0 (ofMajor x.1)) = true := by
  decide +kernel
/-- Words on memory issue with aligned addresses; the offset of LD and ST is 8. -/
theorem test_memory_words : ([(0x10, reg 0x10 6 1 2 0 + 8 * 2 ^ 20), (0x11, reg 0x11 6 1 2 0 + 8 * 2 ^ 20), (0x12, reg 0x12 6 1 2 0), (0x13, reg 0x13 6 1 2 0),
    (0x14, reg 0x14 6 1 2 2), (0x15, reg 0x15 6 1 2 2), (0x18, reg 0x18 6 3 2 0), (0x19, reg 0x19 0 3 2 0), (0x25, 0x25 + 6 * 2 ^ 10 + 3 * 2 ^ 18)].all
    fun x => Issues (runs x.2 th0) t0 (ofMajor x.1)) = true ∧ Issues (runs (sys 0x010 0 3 0) th0) t0 (ofSys 0x010) = true := by decide +kernel
theorem test_memory_operands : addrOf (th0.rg 1) 8 % 4 = 0 ∧ vecBad (contiguous (addrOf (th0.rg 1) 0) 4 8) 4 = none ∧ vecBad (strided (th0.rg 1) (th0.rg 2) 8) 4 = none ∧
    th0.gBad 1 = false ∧ th0.gBad 2 = false ∧ th0.gBad 6 = false ∧ atomOk 0 0 = true ∧ 0x40000 ≤ th0.gn 3 ∧ th0.gn 3 % atomBytes 0 = 0 ∧ th0.gBad 3 = false ∧
    th0.vl % 2 = 0 := by decide
theorem test_control_words : ([(0x1C, 0x1C + 2 * 2 ^ 10), (0x1D, 0x1D + 2 * 2 ^ 10), (0x1E, reg 0x1E 6 7 0 0), (0x30, reg 0x30 6 2 0 2), (0x30, reg 0x30 6 5 0 2)].all fun x =>
    Issues (runs x.2 th0) t0 (ofMajor x.1)) = true ∧ (runs (0x1C + 2 * 2 ^ 10) th0).inCode t0 (brTarget 0 (0x1C + 2 * 2 ^ 10)) = true ∧
    (runs (reg 0x1E 6 7 0 0) th0).inCode t0 (th0.gn 7) = true ∧ th0.gn 7 % 4 = 0 ∧ th0.pBad 0 = false := by decide +kernel
theorem test_setvl_narrow : isWide (min (th0.gn 2) 32) 1 = false := by decide
theorem test_setvl_wide : let b := (runs (reg 0x30 6 5 0 2) th0).setDesk 3 (desk [⟨threadAsker 0 0, 1, 0, 8, false, 16⟩])
    isWide (min (th0.gn 5) 32) 1 = true ∧ b.wideOn 3 0 = false ∧ 4 ≤ ((b.grantOf 3 (threadAsker 0 0)).map (·.amount)).getD 0 - th0.charged := by decide
/-- A core that is wide already, and one that has to ask. -/
theorem test_setvl_asks : let b := runs (reg 0x30 6 5 0 2) th0
    ((b.setDesk 3 (desk [⟨wideAsker 0, 1, 0, 4, false, 16⟩])).wideOn 3 0 = true ∧
    (((b.setDesk 3 (desk [⟨wideAsker 0, 1, 0, 4, false, 16⟩])).grantOf 3 (threadAsker 0 0)).map (·.amount)).getD 0 - th0.charged < 4) ∧
    b.wideOn 3 0 = false ∧ ((b.grantOf 3 (threadAsker 0 0)).map (·.amount)).getD 0 - th0.charged < 4 := by decide
theorem test_sys_words : ([(0x001, sys 0x001 6 1 2), (0x002, sys 0x002 0 0 0), (0x030, sys 0x030 6 3 0), (0x031, sys 0x031 0 7 1), (0x040, sys 0x040 0 0 0),
    (0x041, sys 0x041 0 0 0), (0x042, sys 0x042 3 1 0), (0x042, sys 0x042 3 1 1), (0x042, sys 0x042 3 1 2), (0x07F, sys 0x07F 0 0 0)].all fun x =>
    Issues (runs x.2 th0) t0 (ofSys x.1)) = true := by decide +kernel
theorem test_end : (List.range 32).any th0.gBad = false ∧ isWide th0.vl th0.ew = false := by decide
theorem test_rel : (runs (sys 0x002 0 0 0) th0).grantOf 3 (threadAsker 0 0) = none ∧
    (((runs (sys 0x002 0 0 0) th0).setDesk 3 (desk [⟨threadAsker 0 0, 1, 0, 8, false, 16⟩])).grantOf 3 (threadAsker 0 0)).isSome = true ∧
    th0.charged = 0 := by decide
theorem test_vector_words : ([(0x20, 0x20 + 2 ^ 6 + 2 * 2 ^ 10 + 3 * 2 ^ 14), (0x21, 0x21 + 2 ^ 6 + 2 * 2 ^ 10 + 2 ^ 18), (0x22, 0x22 + 2 * 2 ^ 10 + 6 * 2 ^ 18),
    (0x23, 0x23 + 2 ^ 6 + 2 * 2 ^ 10 + 3 * 2 ^ 14), (0x24, 0x24 + 2 ^ 6 + 2 * 2 ^ 10 + 6 * 2 ^ 18)].all fun x =>
    Issues (runs x.2 th0) t0 (ofMajor x.1)) = true := by decide +kernel

/-! ### Arrays -/

/-- Array 0 of field 3, with job 1 as its holder. -/
def arr0 : ArrSt := { ArrSt.init with kind := 1, camp := 0, job := 1 }
def arrIs (x : ArrSt) (b : Block) : Block := b.setArray 3 0 x

/-- The words to array 0: g0 names its bank 0, g4 its bank 1. -/
theorem test_array_words : ([(0x020, sys 0x020 6 4 2), (0x021, sys 0x021 6 4 0), (0x022, sys 0x022 6 0 0), (0x023, sys 0x023 6 0 0), (0x024, sys 0x024 6 0 0)].all fun x =>
    Issues (arrIs arr0 (runs x.2 th0)) t0 (ofSys x.1)) = true := by decide +kernel
theorem test_array_names : let b := arrIs arr0 (runs (sys 0x020 6 4 2) th0)
    th0.gn 4 % 4 ≠ 3 ∧ b.mayCommand th0 3 0 = true ∧ bitAt ((b.fieldSt 3).shown (b.fieldSt 3).arrays) 0 = true ∧
    b.arrIdle 3 0 = true ∧ arr0.aborting = false ∧ arr0.next = none := by decide
/-- An ABORT behind another one. -/
theorem test_array_aborting : let b := arrIs { arr0 with aborting := true } (runs (sys 0x022 6 0 0) th0)
    Issues b t0 (ofSys 0x022) = true ∧ (b.array 3 0).aborting = true := by decide +kernel
theorem test_array_busy : let b := arrIs { arr0 with running := true } (runs (sys 0x021 6 4 0) th0)
    b.arrIdle 3 0 = false ∧ bitsOf (th0.gn 4) 2 1 ≠ (b.array 3 0).bank ∧ (b.array 3 0).next = none := by decide

/-- Array 0 runs a program whose word at index 0 is `w`. -/
def head (w : Nat) : ArrSt := { arr0 with running := true, banks := [(0, BitVec.ofNat 64 w)] }
/-- Field 3 with the arrays' grants. -/
def granted : Block := rich.setDesk 3 (desk [⟨arrAsker 0 0, 1, 0, 8, false, 16⟩, ⟨arrAsker 0 1, 1, 0, 28, false, 16⟩])

theorem test_heads : ([1, 2, 3, 4, 5, 7, 0].all fun op => let x := head (op * 2 ^ 60); x.running && arrWordOk x.head && wordOp x.head == op) = true := by decide
theorem test_load_tile : let b := arrIs (head (2 ^ 60)) granted
    let b0 := b.setArray 3 0 { head (2 ^ 60) with shiftIdle := 0 }
    (b0.array 3 0).shift = none ∧ (b0.array 3 0).shadow.state = 0 ∧ b0.rspRoom 3 0x140 = true ∧ b0.arrGrant 3 0 0 = true ∧ b0.fetchBarred 3 0 (holderAddr 3 0) (imageBytes 0) = false := by
  decide +kernel
theorem test_swap : let b := (arrIs { head (2 * 2 ^ 60) with shadow := ⟨1, 0, 0⟩ } granted).absorb 3 0
    (b.array 3 0).shift = none ∧ (b.array 3 0).shadow.state = 1 ∧
    (b.tc.ops.any fun o => o.array == some (arrKey 3 0) && decide (1 ≤ o.tag) && decide (o.tag < 1024)) = false := by decide
theorem test_stream : let b := ((arrIs (head (3 * 2 ^ 60)) granted).setArray 3 0 { head (3 * 2 ^ 60) with active := ⟨1, 0, 0⟩, streamIdle := 0 }).absorb 3 0
    let y := b.array 3 0
    (b.tc.ops.any fun o => o.array == some (arrKey 3 0) && decide (1 ≤ o.tag) && decide (o.tag < 1024)) = false ∧ b.rspRoom 3 0x140 = true ∧ b.arrGrant 3 0 1 = true ∧
    y.active.state = 1 ∧ 0 + wRows (3 * 2 ^ 60) ≤ 512 ∧ b.fetchBarred 3 0 (holderAddr 3 0) 256 = false := by decide +kernel
/-- A STREAM that accumulates, and a DRAIN, find row 0 valid. -/
theorem test_drain : let x : ArrSt := { head (4 * 2 ^ 60) with acc := [(0, some ⟨0, false⟩)] }
    x.drain = none ∧ x.flight.any (fun s => rowsMeet 0 1 s.1 s.2.1) = false ∧ (arrIs x granted).rspRoom 3 0x140 = true ∧ 0 + 1 ≤ 512 ∧
    (List.range 1).any (fun r => (sget (fun _ => none) x.acc (0 + r)).isNone) = false := by decide
theorem test_chain : let x : ArrSt := { head (5 * 2 ^ 60) with next := some (0, t0, 0) }
    x.next.isSome = true ∧ x.shift = none ∧ (head (7 * 2 ^ 60)).next = none ∧ (head (7 * 2 ^ 60)).index < 512 := by decide
theorem test_shift_done : let x : ArrSt := { head 0 with shift := some (0, 0) }
    let b := arrIs x granted
    (b.array 3 0).shift = some (0, 0) ∧ (b.tc.ops.filter fun o => o.array == some (arrKey 3 0) && o.tag == 0) = [] := by decide
theorem test_shift_ops : let o : MemOp := { readOp 0x100000 with array := some (arrKey 3 0), performed := true }
    [o].any (fun o => !o.performed) = false ∧ [o].any (·.resultPoison) = false := by decide
theorem test_abort_done : let b := arrIs { head 0 with aborting := true } granted
    (b.array 3 0).aborting = true ∧ (b.tc.ops.any fun o => o.array == some (arrKey 3 0)) = false := by decide
theorem test_array_stall : let b := arrIs { head 0 with headStall := 1, stallAt := 1 } granted
    b.arrState 3 0 = 2 ∧ (b.array 3 0).stallAt ≠ 0 ∧ (b.array 3 0).stallRaised = false ∧
    max 1 (b.fget F.arrConfigStallEventUs) < (b.fab.time - ((b.array 3 0).stallAt - 1)) / 1000 := by decide
theorem test_stream_done : let b := (arrIs { head 0 with flight := [(0, 1, true)] } granted).absorb 3 0
    (b.array 3 0).flight ≠ [] ∧ ((b.array 3 0).flight.length = 1 → (b.tc.ops.any fun o => o.array == some (arrKey 3 0) && decide (1 ≤ o.tag) && decide (o.tag < 1024)) = false) := by
  decide
theorem test_drain_done : let b := arrIs { head 0 with drain := some (0, 1) } granted
    (b.array 3 0).drain.isSome = true ∧ (b.tc.ops.any fun o => o.array == some (arrKey 3 0) && decide (1024 ≤ o.tag)) = false := by decide

/-! ### The engines and the descriptors -/

/-- Model 3 of camp 0: one layer, two KV heads of dimension 64, a vocabulary of 96, teams of 8. -/
def model3 : Model := ⟨0, 3, 1, false, false, 1, 2, 4, 64, 96, 8, 16, 0, 0, 0, 1, 0, 4, 1, [], 0, 0, 0, 0, 0, [], []⟩
/-- GENERATE number 3 with a prompt of one token. -/
def request3 : Request := ⟨0, 3, 0, 4, 0, 1, 3, 1, 1, 8, [5], 0, 0, 0, 0, 0⟩
/-- Its slot 2, in DECODE. -/
def slot2 : Slot := ⟨2, 0, 3, 0, 2, [5], 0, 0, 0, 0, 0, false, false, 0, 0, false, false, false, false, false, 0, 0, 0, 0, 3, false⟩
def serving : Block := { rich.setStepSt 0 ⟨1, true⟩ with serve := { on.serve with models := [model3], requests := [request3], slots := [slot2] } }

/-- COPY of 4096 bytes from granule 1 to granule 2 of field 3. -/
def copyDsc : Desc := dsc 0x07 (((2 ^ 48 + 3 * 2 ^ 40 + 0x8000) <<< 192) ||| ((2 ^ 48 + 3 * 2 ^ 40 + 0x10000) <<< 256) ||| (4096 <<< 320))
/-- Granules 1 and 2 lie in DRAM frames 32 and 33; the COPY's one element moves in slot 0. -/
def copied : Block := { withDsc copyDsc (rich.setDesk 3 (desk [⟨dmaSlot 0, 1, 0, 8, false, 16⟩])) with
  tier := { on.tier with dir := [(dirKey 3 1, ⟨2, 0, true, false, 0, 1, 32, 0, 2, 0, 0⟩), (dirKey 3 2, ⟨2, 0, true, false, 0, 1, 33, 0, 2, 0, 0⟩)] }
  host := { on.host with dmas := [⟨0, 7, 1, [], [], []⟩], slots := [(96, some ⟨.elem (.job 0 7 0), 1, 0⟩)] } }

theorem test_element : copied.unpowered 3 = false ∧ copied.desc? 0 7 = some copyDsc ∧ (copied.dmaOf 0 7).isSome = true ∧ 0 < 1 ∧
    sget (fun _ => false) [] 0 = false ∧ (copied.elemAt copyDsc 0).map (fun x => (x.field, x.bytes)) = some (3, 4096) ∧
    Runs copied 3 0 4096 (.elem (.job 0 7 0)) = true := by decide
theorem test_transplant : serving.unpowered 3 = false ∧ serving.slot? 2 = some slot2 ∧ serving.slotModel 2 = some model3 ∧
    Runs serving 3 0 (2 * model3.dim * model3.depth) (.elem (.transplant 2 1 false)) = true := by decide
/-- Field 3 with DMA slot 0 at work under its grant. -/
def slotted (w : SlotWork) : Block := { rich.setDesk 3 (desk [⟨dmaSlot 0, 1, 0, 8, false, 16⟩]) with host := { on.host with slots := [(96, some ⟨w, 1, 0⟩)] } }
theorem test_page_element : let e : PageElem := ⟨0, 0, 3, 2, 1, 0, false, 4096⟩
    let b : Block := { slotted (.elem (.page e)) with page := { on.page with elems := [e] } }
    b.unpowered 3 = false ∧ b.page.elems.contains e = true ∧ Runs b 3 0 4096 (.elem (.page e)) = true := by decide
theorem test_other_element : (slotted (.elem .other)).unpowered 3 = false ∧ Runs (slotted (.elem .other)) 3 0 0x8000 (.elem .other) = true := by decide
/-- No slot is busy, and none holds a grant: work of class 1 may take slot 0. -/
theorem test_slot_free : let w : SlotWork := .elem (.job 0 7 0)
    4096 ≤ 4096 ∧ rich.slotUse 3 0 = none ∧ rich.slotted 3 w = false ∧ rich.slotTurn 3 w = true ∧ rich.slotFits 3 0 1 = true ∧
    rich.holds 3 (dmaSlot 0) = false ∧ rich.waits 3 (dmaSlot 0) = false := by decide
theorem test_park : let k : Park := ⟨0, 0, 2 ^ 48 + 3 * 2 ^ 40 + 0x8000, 0x10000, 1, [], false, 0⟩
    let b : Block := { slotted (.elem (.park 0 0 0)) with serve := { on.serve with parks := [k] } }
    b.unpowered 3 = false ∧ b.serve.parks.find? (fun k => k.camp == 0 && k.entry == 0 && !k.landed) = some k ∧ place k.addr = .unified 3 1 0 ∧ 0 < k.granules ∧
    k.done.contains 0 = false ∧ Runs b 3 0 0x8000 (.elem (.park 0 0 0)) = true := by decide
theorem test_partial : let x : AttItem := ⟨0, 2, 0, 1, 0x3F800000, [], false, [0], [], [], []⟩
    ({ serving with att := { on.att with items := [x] } } : Block).item? 0 2 0 1 = some x ∧ serving.slotModel 2 = some model3 := by decide
theorem test_ring_piece : let m : Model := { model3 with layout := 1, sliceW := 2 }
    ({ serving with serve := { serving.serve with models := [m] } } : Block).slotModel 2 = some m ∧ m.camp = 0 ∧ m.layout = 1 ∧ 1 < m.sliceW ∧ 1 ≠ m.rank ∧
    1 < m.sliceW := by decide
/-- Field 3 holds one entry of the 96; the row of slot 2 at position 1 takes it. -/
theorem test_sample_row : (serving.rowUse 2 1).isSome = true ∧ (serving.batchRows 0).findIdx? (fun x => x == (2, 1)) = some 0 ∧
    [0x3F800000].length = (model3.shardOf 3).2 ∧ serving.inStep 0 = true ∧ (serving.result? 0 2 1).isSome = false ∧ serving.row? 0 2 1 = none ∧
    serving.rowBytes 3 + 4 * [0x3F800000].length ≤ serving.rowBuffer := by
  refine ⟨?_, ?_⟩ <;> decide +kernel

/-- A row in its first pass, and in its second. -/
def row1 : SampRow := ⟨0, 2, 1, 0, 1, [(3, [0x3F800000])], [3], [], [], [], none, none, none, none⟩
def row2 : SampRow := { row1 with pass := 2, m1 := some ⟨0x3F800000, 0x3F800000, (0x3F800000, 3, 0x3F800000), (0x3F800000, 3, 0x3F800000), 0, [], none⟩ }
theorem test_merge : ({ serving with samp := { on.samp with rows := [row1] } } : Block).row? 0 2 1 = some row1 ∧ row1.pass = 1 ∧
    ({ serving with samp := { on.samp with rows := [row2] } } : Block).row? 0 2 1 = some row2 ∧ 2 ≤ row2.pass ∧ (serving.rowUse 2 1).isSome = true ∧
    serving.slot? 2 = some slot2 := by decide
theorem test_pass2 : let b := ({ serving with samp := { on.samp with rows := [row2] } } : Block).setDesk 3 (desk [⟨samplingUnit, 0, 0, 8, false, 16⟩])
    row2.m1.isSome = true ∧ (row2.shards.find? fun s => s.1 == 3).isSome = true ∧ row2.ran.contains 3 = false ∧ b.covers 3 samplingUnit 6 = true := by decide

theorem test_serving_descriptors : ([0x09, 0x0A, 0x0B, 0x0C].all fun op =>
    decide ((withDsc (dsc op 0) rich).desc? 0 7 = some (dsc op 0)) && decide ((dsc op 0).op = op) && !(dsc op 0).started) = true ∧
    (((withDsc (dsc 0x0B 0) rich).ring.descs.takeWhile fun x => !(x.camp == 0 && x.seq == 7)).any fun x => x.fn == 0 && bitAt 0 x.ring) = false ∧
    (dsc 0x0C 0).field 24 8 % 8 = 0 := by decide +kernel

/-- PHASE to SCORE with model 3 as MODEL_A, nothing parked. -/
theorem test_phase : let d := dsc 0x04 ((1 <<< 128) ||| (3 <<< 192))
    let b := withDsc d serving
    Waits b 0 7 0x04 d ∧ d.bits 16 0 2 ≠ 3 ∧ d.field 24 2 ≠ 0 ∧ d.bits 28 0 13 ≤ 4096 ∧ ([] : List Nat).length = d.bits 28 0 13 ∧
    ([] : List Nat).any (b.parkBad 0 (decide (d.bits 16 0 2 = 2))) = false ∧ (b.usable 0 (d.field 24 2)).isSome = true ∧ d.field 26 2 = 0 :=
  ⟨⟨rfl, rfl, rfl⟩, by decide +kernel, by decide +kernel, by decide +kernel, by decide +kernel, by decide +kernel, by decide +kernel, by decide +kernel⟩
theorem test_phase_limit : let j : PhaseJob := ⟨0, 7, 1, false, 100, 3, 0, 0, [], 1, false, 0, 0, 0⟩
    let b : Block := { rich with serve := { on.serve with phaseJobs := [j] } }
    b.serve.phaseJobs.find? (fun j => j.camp == 0 && j.started != 0 && j.switched == 0) = some j ∧ j.hold = false ∧ j.drainMs ≠ 0 ∧
    j.started - 1 + j.drainMs * 1000000 ≤ b.fab.time := by decide
theorem test_refresh : let d := dsc 0x05 ((3 <<< 128) ||| (1 <<< 144))
    let b := withDsc d (serving.setPhase 0 fun p => { p with phase := 2 })
    Waits b 0 7 0x05 d ∧ b.model? 0 (d.field 16 2) = some model3 ∧ model3.state = 1 ∧ (b.phaseSt 0).phase = 2 ∧ b.refreshObjBad model3 = false ∧
    d.bits 18 0 4 ≠ 0 ∧ d.bits 18 0 4 ≤ 8 :=
  ⟨⟨rfl, rfl, rfl⟩, by decide +kernel, by decide +kernel, by decide +kernel, by decide +kernel, by decide +kernel, by decide +kernel⟩
/-- The last of a REFRESH: one SCALE vector, written into granule 7 of field 3. -/
theorem test_refresh_complete : let d := { dsc 0x05 ((3 <<< 128) ||| (1 <<< 144)) with started := true }
    let r : Refresh := ⟨0, 7, 3, 1, 0, false, 0, []⟩
    let b : Block := { withDsc d serving with serve := { serving.serve with refreshes := [r] } }
    (b.desc? 0 7 = some d ∧ b.serve.refreshes.find? (fun x => x.camp == 0 && x.seq == 7) = some r ∧
    ((b.ring.descs.takeWhile fun x => !(x.camp == 0 && x.seq == 7)).any fun x => x.camp == 0 && x.op == 0x06) = false ∧
    ([⟨2 ^ 48 + 3 * 2 ^ 40 + 7 * 2 ^ 15, [0x3F800000]⟩] : List RefreshScale).any (fun s => !b.rewritable s.dst (2 * s.vector.length)) = false) ∧
    ((b.noteRefresh r).refreshGrants r).2 = true ∧ ((((b.noteRefresh r).refreshGrants r).1).buildTiles 0 7 []).2 = .ok [] :=
  ⟨by decide +kernel, by decide +kernel, rfl⟩
/-- LOAD_MODEL of model 4 from host memory, with one object of one granule a field. -/
def spec4 : ModelSpec := ⟨true, 1, 2, 4, 64, 96, false, [⟨9, 1, 20, false, 0, 0, 0, 0, 0, false, 0, 0, 0⟩], [], []⟩
def loadDsc : Desc := dsc 0x01 ((4 <<< 128) ||| (8 <<< 152) ||| (1 <<< 176) ||| (0x10000 <<< 192))
theorem test_load : let b := withDsc loadDsc rich
    Waits b 0 7 0x01 loadDsc ∧ loadBad b loadDsc spec4 = none ∧ loadDsc.field 20 2 = 0 ∧ b.specClash spec4.objs = false ∧ (newModel b loadDsc spec4).trayKib = 0 :=
  ⟨⟨rfl, rfl, rfl⟩, by decide +kernel, by decide +kernel, by decide +kernel, by decide +kernel⟩
theorem test_load_room : let b := withDsc loadDsc rich
    b.loadShort (newModel b loadDsc spec4) spec4.objs (if b.poolNow (newModel b loadDsc spec4) then b.minRows 0 else 0) = 0 ∧
    ((List.range 96).foldl (fun x f => max x (((b.fieldObjs f).filter fun no => decide (0 < no.2.count)).length + spec4.objs.length)) 0) ≤ 65535 := by
  decide +kernel
theorem test_unload : let d := dsc 0x02 (3 <<< 128)
    let b := withDsc d serving
    Waits b 0 7 0x02 d ∧ b.model? 0 (d.field 16 2) = some model3 ∧ model3.state = 1 := ⟨⟨rfl, rfl, rfl⟩, by decide +kernel, rfl⟩
theorem test_copy : Waits copied 0 7 0x07 copyDsc ∧ ¬ (copyDsc.srcHost = true ∧ copyDsc.dstHost = true) ∧ copyDsc.copyLen ≠ 0 ∧
    copied.copyDenied 0 copyDsc.copySrc copyDsc.copyLen true = none ∧ copied.copyDenied 0 copyDsc.copyDst copyDsc.copyLen false = none :=
  ⟨⟨rfl, rfl, rfl⟩, by decide +kernel, by decide +kernel, by decide +kernel, by decide +kernel⟩

/-! ### The host link, the rings, Yilgil -/

/-- Port 1 before its link is up. -/
theorem test_link_up : on.modu.pwrGood = true ∧ (on.portSt 1).up = false ∧ bitAt on.modu.perst 1 = false := by decide
theorem test_link_down : (on.portSt 0).up = true ∧ on.ideDrops 0 = false ∧ on.fnExists 0 = true ∧ Reaches on 0 = true := by decide
theorem test_vfs : ({ on with host := { on.host with ports := [(0, ⟨true, true, 6, 16, 3, false, 4, true⟩)] } } : Block).portSt 0 =
    ⟨true, true, 6, 16, 3, false, 4, true⟩ := by decide

/-- COPY of 4096 bytes from host memory to granule 2 of field 3, with its one element to read. -/
def inDsc : Desc := dsc 0x07 ((1 <<< 128) ||| (0x10000 <<< 192) ||| ((2 ^ 48 + 3 * 2 ^ 40 + 0x10000) <<< 256) ||| (4096 <<< 320))
def reading : Block := { withDsc inDsc copied with host := { on.host with dmas := [⟨0, 7, 1, [], [], []⟩] } }
theorem test_completion : reading.readIssued (.elem 0 7 0) = true ∧ reading.desc? 0 7 = some inDsc ∧ (reading.dmaOf 0 7).isSome = true ∧
    (reading.elemAt inDsc 0).isSome = true ∧ reading.host.late.contains (.elem 0 7 0) = false := by decide +kernel
theorem test_ide : (({ on with host := { on.host with ide := [(ideKey 0 1, ⟨1, 4, 5⟩)] } } : Block).ideSt 0 1).state = 1 ∧ (on.setSession 0 2).session 0 = 2 := by
  decide

/-- Function 0 with a REQUEST ring 0, a COMPLETION ring 1 and a TOKEN ring 2 of 64 entries, running. -/
def ringing : Block := { on with
  regs := [((F.ringCfgKind 0).off, BitVec.ofNat 32 (0x60 + 1 * 2 ^ 16 + 2 * 2 ^ 24)), ((F.ringCfgKind 1).off, BitVec.ofNat 32 0x62), ((F.ringCfgKind 2).off, BitVec.ofNat 32 0x63)]
  ring := { on.ring with
    rings := [(0, ⟨true, false, 0, 2, true, false, 0, 0, 0⟩), (1, ⟨true, false, 0, 3, true, false, 0, 3, 0⟩), (2, ⟨true, false, 0, 0, true, false, 0, 0, 0⟩)]
    outbox := [⟨0, 1, 2, 5, false⟩] } }

theorem test_doorbells : Reaches ringing 0 = true ∧ ringing.fnMapped 0 = true ∧ 8 < 0x200 ∧ ringing.boot.stage = 10 ∧ overrunCause ringing 0 4 = 0 ∧
    ringKind ringing.regs 0 < 2 ∧ overrunCause ringing 1 2 = 0 ∧ 2 ≤ ringKind ringing.regs 1 := by decide
theorem test_ring_enable : let b : Block := { on with regs := ringing.regs }
    Writes b 0 (F.ringCtrlEnable 1).off = true ∧ (b.ringSt 1).enabled = false ∧ ringCfgErr (b.writeWord (F.ringCtrlEnable 1).off 1) 1 = 0 ∧
    ringCfgErr (on.writeWord (F.ringCtrlEnable 1).off 1) 1 ≠ 0 ∧ Writes on 0 (F.ringCtrlEnable 1).off = true ∧ (on.ringSt 1).enabled = false := by decide
theorem test_ring_disable : Writes ringing 0 (F.ringCtrlEnable 1).off = true ∧ (ringing.ringSt 1).enabled = true ∧
    Writes ringing 0 (F.ringCtrlEnable 0).off = true ∧ (ringing.ringSt 0).enabled = true ∧ ringing.isBound 0 = false := by decide
/-- GENERATE number 9 with LENGTH 2 is a descriptor of ring 0; opcode 0xFF is none (R415). -/
theorem test_fetch : mayConsume ringing 0 0 0xFF = true ∧ badDescriptor ringing 0 (ringing.fnCamp 0) 0xFF = some 0 := by decide +kernel
theorem test_fetch_good : let raw := 0x20 + 2 * 2 ^ 16 + 9 * 2 ^ 32
    mayConsume ringing 0 0 raw = true ∧ badDescriptor ringing 0 (ringing.fnCamp 0) (raw % 2 ^ 1024) = none := by decide +kernel
theorem test_record : ringing.nextRec 0 1 = some ⟨0, 1, 2, 5, false⟩ ∧ ringing.fnReceives 0 = true ∧ (ringing.ringSt 1).enabled = true ∧
    ((ringing.ringSt 1).tail + 1) % ringSize ringing.regs 1 ≠ (ringing.ringSt 1).head ∧
    (((ringing.ringSt 1).tail + 1) % ringSize ringing.regs 1 + 1) % ringSize ringing.regs 1 ≠ (ringing.ringSt 1).head := by decide
theorem test_record_discard : ({ ringing with host := { on.host with ports := [] } } : Block).fnReceives 0 = false := by
  decide
theorem test_holdoff : let b : Block := { onAt 5000 with host := { on.host with vecs := [(vecKey 0 3, ⟨0x1000, 7, false, false, 4, 1, 1, 1000⟩)] } }
    0 < (b.vec 0 3).causes ∧ (b.vec 0 3).oldest + (b.vec 0 3).holdoff * 1000 ≤ b.fab.time ∧ (b.vec 0 3).pba = false := by decide
theorem test_unmask : let b : Block := { on with host := { on.host with vecs := [(vecKey 0 3, ⟨0x1000, 7, true, true, 0, 1, 1, 0⟩)] } }
    (b.vec 0 3).pba = true ∧ (b.fnSt 0).msixEnable = true ∧ (b.fnSt 0).fnMask = false := by decide

/-- The module at (0, 0, 0) of a domain of 4 by 4 by 2, port 4 in state `x`. -/
def domain (x : YgPort) : Block := { rich with regs := [(0xE00000, BitVec.ofNat 32 0x244)], yg := { on.yg with ports := [(4, x)] } }

theorem test_train : let b := domain { YgPort.init with state := 2 }
    b.boot.en.yilgil = true ∧ (b.port 4).state = 2 := by decide
theorem test_port_up : let b0 := domain { YgPort.init with state := 2, asked := true }
    let b := b0.setDesk (b0.portField 4) (desk ((List.range 4).map fun k => ⟨laneAsker 4 k, 0, 0, 5, false, 16⟩))
    b.boot.en.yilgil = true ∧ (b.port 4).state = 2 ∧ (b.port 4).asked = true ∧ (b.port 4).sick = 7 ∧ 4 ≤ 4 ∧ b.lanesGranted 4 = true ∧
    1 = b.neighbour (bundleOf 4) ∧ 0 = facingPort 4 ∧ 0x244 = b.fget F.domainConfigDimX + 16 * b.fget F.domainConfigDimY + 256 * b.fget F.domainConfigDimZ ∧
    500 ≤ 600 ∧ 600 < 601 ∧ 2 ≠ b.neighbour (bundleOf 4) := by decide +kernel
theorem test_retry : let b := domain { YgPort.init with state := 1, retryAt := 5 }
    b.boot.en.yilgil = true ∧ (b.port 4).state = 1 ∧ (b.port 4).retryAt ≤ b.fab.time := by decide
theorem test_retrain : let b := domain { YgPort.init with state := 3, bad := 17, badSince := 1000000000, naks := 16 }
    b.boot.en.yilgil = true ∧ (b.port 4).state = 3 ∧ 16 < (b.port 4).bad ∧ b.fab.time ≤ (b.port 4).badSince + 1000000 ∧ 16 ≤ (b.port 4).naks := by decide
theorem test_held : let b := domain { YgPort.init with state := 2, history := List.replicate 20 1000000000 }
    b.boot.en.yilgil = true ∧ (b.port 4).state = 2 ∧ max 1 (b.fget F.ygConfigRetrainLimit) ≤ b.recentRetrains 4 := by decide
theorem test_hold_end : let b := domain { YgPort.init with state := 4, retryAt := 5 }
    (b.port 4).state = 4 ∧ (b.port 4).retryAt ≤ b.fab.time := by decide
theorem test_codeword : (((domain { YgPort.init with state := 3 }).countCorrected 4 []).port 4).replaying = false ∧
    ((domain { YgPort.init with state := 3 }).port 4).state = 3 := by decide
theorem test_link_flit : let us := streamUnits ((domain { YgPort.init with state := 3, stream := [0, 4] }).port 4).stream 2
    ((domain { YgPort.init with state := 3, stream := [0, 4] }).port 4).state = 3 ∧ us = ([[0], [4]], []) ∧ hdrClass (us.2.headD 0) ≠ 3 ∧
    us.1.find? (fun u => decide (hdrClass (u.headD 0) = 0)) = some [0] ∧ bitAt 0 2 = false ∧ bitAt 0 4 = false ∧ bitAt 4 2 = true ∧ bitAt 4 3 = false ∧
    bitAt 4 4 = false := by decide
/-- A CTRL packet for this module, and one for module 1, which lies on +X behind port 4. -/
theorem test_packet : let b := domain { YgPort.init with state := 3, stream := [2, 0] }
    let far := domain { YgPort.init with state := 3, stream := [2 + 2 ^ 16] }
    let us := streamUnits (b.port 4).stream 2
    us = ([[2], [0]], []) ∧ hdrClass (us.2.headD 0) ≠ 3 ∧ b.packetDue us.1 = some [2] ∧ hdrDst 2 = b.moduleId ∧ b.flowAhead 2 = 0 ∧ hdrClass 2 ≠ 1 ∧
    far.packetDue (streamUnits (far.port 4).stream 1).1 = some [2 + 2 ^ 16] ∧ hdrDst (2 + 2 ^ 16) ≠ far.moduleId := by decide +kernel
/-- A packet that its flow has passed by, and a header of class 3. -/
theorem test_packet_late : let h := 2 + 2 * 2 ^ 96
    let b0 := domain { YgPort.init with state := 3, stream := [h] }
    let b : Block := { b0 with yg := { b0.yg with flowsIn := [(flowKey h, 5)] } }
    b.packetDue [[h]] = some [h] ∧ hdrDst h = b.moduleId ∧ b.flowAhead h ≠ 0 ∧ hdrClass ((streamUnits [3] 1).2.headD 0) = 3 := by decide +kernel

theorem test_domain : let d := { rich.yg.domain with joined := true, locked := true, root := 1 }
    let b : Block := { rich with yg := { on.yg with domain := d } }
    b.boot.en.yilgil = true ∧ rich.yg.domain.joined = false ∧ d.joined = true ∧ d.locked = true ∧ 1 ≠ b.moduleId ∧ d.lastMsg + 1000000 ≤ b.fab.time ∧
    d.lastMsg + 1000 * b.timePeriod ≤ b.fab.time := by decide

/-- Field 3's queue of camp 0 in granule 1 (DRAM frame 32), with a barrier, number 9, in its entry 0. -/
def queued : Block := { copied with
  regs := [((F.collQueueGranule 0).off, BitVec.ofNat 32 (2 ^ 31 + 1))]
  mem := { on.mem with bytes := [(frameAddr 3 2 32, 6), (frameAddr 3 2 32 + 3, 1), (frameAddr 3 2 32 + 4, 9)] } }
theorem test_entry_found : queued.boot.en.service = true ∧ queued.resetting 0 = false ∧ queued.queueValid 0 3 = true ∧
    queued.siteOf (bulkOp 0 0 .read [granuleAddr 3 1] 1 3) (granuleAddr 3 1) = .at_ (frameAddr 3 2 32) := by
  refine ⟨rfl, rfl, by decide, rfl⟩
theorem test_entry_good : let b1 := queued.check (frameAddr 3 2 32) 64
    let raw := ofBytesLE (b1.readBytes (frameAddr 3 2 32) 64)
    b1.poisonIn (frameAddr 3 2 32) 64 = false ∧ bitAt raw 24 = true ∧ queued.endedAt 3 0 (bitsOf raw 32 32) = none ∧
    queued.entryStatus raw ⟨0, 0, 9, 3, 6, 0, 0, 0, 0, 1, 0, 0, 0, 0, 1000, 0, 0, .entry (granuleAddr 3 1)⟩ = 0 := by decide +kernel

/-- A part, number 4, of a two-member instance. -/
def part4 (u : CollUser) : CollPart := ⟨4, 0, 9, 3, 1, 0, 0, 0, 0, 2, 0, 0, 0, 64, 1, 0, 0, u⟩
def posted (u : CollUser) : Block := { rich with yg := { on.yg with parts := [part4 u] } }
theorem test_part : let b := posted (.entry 0)
    b.yg.parts.find? (fun p => p.serial == 4) = some (part4 (.entry 0)) ∧ (b.yg.aborts.any fun a => a.camp == 0 && a.id == 9) = false ∧
    (b.yg.split.any fun x => x.1 == 0) = false ∧ (part4 (.entry 0)).op ≠ 6 ∧ [0].length + 1 = (part4 (.entry 0)).members ∧ (part4 (.ring 2 1)).user = .ring 2 1 ∧ (part4 .step).user = .step ∧ (part4 (.att 2 0 1)).user = .att 2 0 1 ∧
    (part4 (.pass1 2 1)).user = .pass1 2 1 ∧ (part4 (.pass2 2 1)).user = .pass2 2 1 := by decide
/-- The part's memory work is in slot 0; a barrier needs none. -/
theorem test_part_runs : Runs (slotted (.part 4)) (part4 (.entry 0)).field 0 0x8000 (.part (part4 (.entry 0)).serial) = true ∧
    ({ part4 (.entry 0) with op := 6 } : CollPart).op = 6 := by decide
theorem test_part_late : let b := posted (.entry 0)
    (part4 (.entry 0)).at_ + 1000000 * max 1 (part4 (.entry 0)).lateMs + 1000 * (part4 (.entry 0)).pausedUs ≤ b.fab.time ∧ (b.stack 3).state ≠ 2 := by decide
theorem test_settle : let b : Block := { posted (.entry 0) with yg := { (posted (.entry 0)).yg with aborts := [⟨0, 9, 0, [(1, 3)], [0]⟩] } }
    b.yg.aborts.find? (fun a => a.camp == 0 && a.id == 9) = some ⟨0, 9, 0, [(1, 3)], [0]⟩ ∧ 0 + 1000 * max 1 (b.fget F.collConfigSettleUs) ≤ b.fab.time ∧
    (b.yg.parts.filter fun p => p.camp == 0 && p.id == 9).head? = some (part4 (.entry 0)) := by decide

/-! ### Consent, resets, the module, start-up -/

def consent (c : CampPart → CampPart) : Block := { onAt 1000 with camp := c on.camp }

/-- The staged image gives camp 0 a guarantee of 224 in place of 225. -/
theorem test_propose : (consent fun c => { c with stage := [(10, 0xE0)] }).camp.state = 0 ∧ (consent fun c => { c with stage := [(10, 0xE0)] }).validate = 0 := by
  decide +kernel
theorem test_party : Writes on 0 0x200000 = true ∧ [1, 2].length ≤ 256 ∧ 4 + [1, 2].length ≤ imageLen := by decide
theorem test_countersign : let b := consent fun c => { c with state := 1, proposer := 0, windowEnd := 5000 }
    b.camp.state = 1 ∧ b.camp.proposer ≠ party true ∧ b.camp.proposer ≠ 1 ∧ b.fab.time ≤ b.camp.windowEnd ∧ (List.replicate 32 0).length = 32 ∧
    ofBytesLE ((List.replicate 32 0).map (BitVec.ofNat 8)) = b.camp.digest ∧ ofBytesLE ((List.replicate 32 1).map (BitVec.ofNat 8)) ≠ b.camp.digest := by
  decide +kernel
theorem test_countersign_fn : let b := consent fun c => { c with state := 1, proposer := 1, windowEnd := 5000 }
    b.camp.state = 1 ∧ b.camp.proposer ≠ party false ∧ b.camp.proposer = 1 ∧ b.csDigest = b.camp.digest := by decide +kernel
theorem test_window_end : let b := consent fun c => { c with state := 1, windowEnd := 500 }
    b.camp.state = 1 ∧ b.camp.windowEnd ≤ b.fab.time := by decide
theorem test_apply : let b := consent fun c => { c with state := 2, stage := [(10, 0xE0)] }
    b.camp.state = 2 ∧ ((affectedCamps b.camp.live b.camp.stage).any fun c => b.inStep c && !b.camp.held.contains c || b.resetting c) = false :=
  ⟨rfl, List.any_eq_false.mpr fun _ _ => Bool.false_ne_true⟩
theorem test_apply_update : let b := consent fun c => { c with state := 3 }
    b.camp.state = 3 ∧ b.disabledCamps.any b.resetting = false := by decide +kernel
theorem test_consent_frame : Instr.getStatus.ofConsent = true ∧ (consent fun c => { c with state := 1 }).camp.state ≠ 0 := by decide
theorem test_approves : (Instr.countersign true 0 (List.replicate 32 0)).ofConsent = true ∧
    (consent fun c => { c with state := 1, proposer := 0, windowEnd := 5000 }).camp.state ≠ 2 := by decide

theorem test_camp_reset : Writes on 0 0x200080 = true ∧ bitAt 0x80000001 31 = true := by decide
theorem test_camp_reset_done : let r : CampReset := ⟨1, 2, 0x3F, 0, 0, [], false⟩
    let b : Block := { onAt 2000000000 with camp := { on.camp with resets := [r] } }
    b.camp.resets.find? (fun r => r.camp == 1) = some r ∧ b.campDrained 1 = true ∧ r.stuck = false ∧
    max 1 (b.fget F.campResetLimitMs) ≤ (b.fab.time - r.start) / 1000000 := by decide

theorem test_sessions : (on.setSession 1 1).session 1 = 1 ∧ 46000 ≤ on.modu.vinMv := by decide
theorem test_event_fetch : let e : Event := ⟨0x0203, 0xFF, 0xFF, 5, 0⟩
    ({ on with boot := { on.boot with mgmt := [e] } } : Block).boot.mgmt = [e] := by decide

def modu (m : ModulePart → ModulePart) : Block := { onAt 100000000000 with modu := m on.modu }
theorem test_module : 46000 ≤ 48000 ∧ 43999 < 44000 ∧ (modu fun m => { m with shunt := true }).modu.shunt = true ∧ on.modu.pwrGood = true ∧
    on.modu.force = false ∧ bitAt on.modu.perst 0 = false ∧ bitAt on.modu.stages 95 = true := by decide
/-- A module whose desks are above their floors ramps down first; one at its floors powers off at once (R503). -/
theorem test_power_off : desk3.modu.pwrGood = true ∧ desk3.boot.en.fabric = true ∧ desk3.atFloors = false ∧ on.atFloors = true ∧ 43999 < 44000 := by decide +kernel
theorem test_perst : let b := modu fun m => { m with perst := 1 }
    bitAt b.modu.perst 0 = true ∧ bitAt b.modu.perstStuck 0 = false := by decide
theorem test_force : let b := modu fun m => { m with force := true, forceSince := 0 }
    b.modu.force = true ∧ b.modu.forceHeld + 60 ≤ b.forceSeconds := by decide
theorem test_coolant : 10 * on.fget F.thermConfigFlowMinLpm ≤ 10000 ∧ 20 ≤ on.fget F.thermConfigInletMaxC := by decide
theorem test_throttle : let b := modu fun m => { m with logicC := [(3, 110)] }
    105 ≤ b.modu.hottest.1 ∧ 30 < b.modu.logicPct ∧ b.modu.lastStep + 1000000 ≤ b.fab.time := by decide +kernel
theorem test_cool_in_range : let b := onAt 1
    b.modu.pwrGood = true ∧ b.modu.coolantAlarm = false := by decide

theorem test_reset_ctrl : Writes on 0 0x100000 = true ∧ Writes bring 0 0x100008 = true ∧ bring.boot.hold = true ∧ bitAt 1 0 = true := by decide
theorem test_stage_done : let b : Block := { on with boot := { on.boot with stage := 4 } }
    b.modu.pwrGood = true ∧ b.boot.stage < 10 ∧ b.boot.hold = false ∧ b.boot.ramped = false ∧ b.stageRamping 4 = false := by decide +kernel
theorem test_fw : on.boot.fwRunning = true ∧ Debugs bring 0 = true ∧ 4 < 0x8000000 ∧ 0x8000004 < 0x9000000 ∧ 0xFFFF000 ≤ 0xFFFF00C := by decide +kernel

/-! ### The rules of chapter and frame -/

theorem test_queue_wf : ∀ c ∈ [Instr.getStatus, .registerWrite 0 0x200080 4 15 1], c.wf = true := by decide +kernel
theorem test_slew_on : on.boot.en.fabric = true := rfl
theorem test_overrun : let b : Block := ringing
    Reaches b 0 = true ∧ b.fnMapped 0 = true ∧ 0 < 0x200 ∧ b.boot.stage = 10 ∧ overrunCause b 0 64 = 1 ∧ overrunCause b 0 1 = 2 ∧ overrunCause b 5 0 = 3 ∧
    overrunCause b 1 4 = 2 := by decide +kernel
theorem test_discard : let b : Block := { ringing with host := { on.host with fns := [] } }
    b.nextRec 0 1 = some ⟨0, 1, 2, 5, false⟩ ∧ (b.fnSt 0).bme = false := by decide
theorem test_parity_ends : let b := runs 1 th0
    (b.thread t0).live = true ∧ b.job? (b.thread t0).job = some (job1 2) ∧ (job1 2).fault = none ∧ (job1 2).ended = 0 := by decide
/-- The same of a resident kernel's thread. -/
theorem test_parity_kernel : let j : Job := { job1 2 with kernel := true, rows := [2] }
    let b := jobIs j (runs 1 th0)
    (b.thread t0).live = true ∧ b.job? (b.thread t0).job = some j ∧ j.fault = none ∧ j.ended = 0 ∧ j.kernel = true := by decide
/-- Of two ready threads of a core, the one after the last issuer issues (R195). -/
theorem test_rotation : let b := runs 1 th0
    let b2 := (b.setThread (t0 + 1) th0).setCore 3 0 { CoreSt.init with last := 0 }
    b.issuer 3 0 = some t0 ∧ b2.issuer 3 0 = some (t0 + 1) := by decide +kernel
theorem test_csrw_operand : th0.gBad (wRs2 (sys 0x031 0 7 1)) = false := by decide
theorem test_word_of : (Instr.addi t0).word? = some t0 ∧ (Instr.endCmd t0).word? = some t0 ∧ Instr.addi t0 ≠ .arrAbort t0 := by decide
theorem test_store_load : (∀ a, on.mem.poisoned a = false) ∧ on.fget F.flipCtrlArm ≠ 1 ∧ 3 < 96 ∧ 287 < 288 ∧ 0x3FFFE + [1, 2].length ≤ 0x40000 ∧
    ∀ a, on.mem.line a = none := by
  refine ⟨fun a => by simp [on, Block.reset, MemPart.poisoned, MemPart.line, sget], by decide, by decide, by decide, by decide, fun a => by
    simp [on, Block.reset, MemPart.line, sget]⟩
theorem test_memory_form : (runs 0x01010101 th0).mem.wf = true := by decide +kernel
theorem test_rank_values : ranks (0x80000000, 3) (0, 5) = true ∧ ranks (0, 5) (0x80000000, 3) = false ∧ ranks (0x3F800000, 9) (0xBF800000, 1) = true ∧
    ranks (0xFF800000, 9) (0x7FC00000, 1) = true ∧ ranks (0x7FC00000, 1) (0xFFC00000, 2) = true := by decide +kernel

/-! ### Operands out of range -/

/-- Each kind of operand at the first value past its range: functions, offsets, words, byte enables, sites, ports, error classes, headers. -/
theorem test_ill_formed_access : ([.registerWrite 64 0 4 15 0, .registerWrite 0 (2 ^ 26) 4 15 0, .registerWrite 0 0 (2 ^ 12) 15 0, .registerWrite 0 0 4 (2 ^ 64) 0,
    .registerWrite 0 0 4 15 (2 ^ 512), .lowWordRead 0 (2 ^ 26) 4, .highWordWrite 0 (2 ^ 32) 0, .lowWordWrite 0 0 (2 ^ 32), .flitReceive 104 0 0 0 0 0 false,
    .flitReceive 0 5 0 0 0 0 false, .flitReceive 0 0 4 0 0 0 false, .flitReceive 0 0 0 2 0 0 false, .flitReceive 0 0 0 0 3 0 false, .flitReceive 0 0 0 0 0 (2 ^ 256) false,
    .timeUnlocked 104, .linkHeartbeat 0 5 true, .fabricStall 104 0 0 0, .fabricStall 0 5 0 0, .fabricStall 0 0 4 0, .fabricStall 0 0 0xFF 0, .doorbell 0 (2 ^ 12) 0 true, .doorbell 0 0 (2 ^ 16) true,
    .ringEnable 0 4096 0, .descriptorFetch 0 64 0, .descriptorFetch 0 0 (2 ^ 1024), .msixUnmask 0 2048, .hostLinkUp 4 6 16 true, .hostLinkUp 0 8 16 true,
    .hostLinkUp 0 6 64 true, .hostLinkDown 0 8, .ideCheckFail 0 8, .ideKm 0 0 16 0, .dbgWindowAccess 0 (2 ^ 28) 4 false 0] : List Instr).all (fun i => !i.wf) = true := by
  decide +kernel
/-- Fields, camps, requesters, cores, arrays, controllers, frames, granules, slots, threads, channels, blocks, pages and positions. -/
theorem test_ill_formed_units : ([.rationRequest 96 0 0 0 0 0 1 false, .rationRequest 0 1024 0 0 0 0 1 false, .rationRequest 0 0 256 0 0 0 1 false,
    .rationRequest 0 0 0 64 0 0 1 false, .rationRequest 0 0 0 0 3 0 1 false, .rationRequest 0 0 0 0 0 16 1 false, .rationRequest 0 0 0 0 0 0 (2 ^ 16) false,
    .wideHoldExpiry 0 288, .arrayHoldExpiry 0 12, .burstIdleExpiry 0 4, .moveStart 0 (2 ^ 25) 0 0, .moveStart 0 0 (2 ^ 21) 0, .moveStart 0 0 0 32,
    .moveOldFrameFree 0 4 0, .tierLate 0 0 (2 ^ 16) true 0, .hintSet 16 0, .hintSet 0 (2 ^ 32), .refreshDue 0 32, .stackThermalSample 0 256 [], .weederRead 0 3 0 0, .weederRead 0 0 (2 ^ 256) 0, .weederRead 0 0 0 (2 ^ 32), .stepTokenReceive 0 0 ⟨[], [⟨1, 5, 0, 0, 8, [0x3F000000], []⟩]⟩ [], .stepTokenReceive 0 0 ⟨[], [⟨1, 1, 0, 4, 8, [0], []⟩]⟩ [],
    .unitProgramDone (2 ^ 31) true, .relocationStart 128 0, .relocationStart 0 16384, .blockErase 0 20480 true, .cellarThermalSample 8 0, .cellarMounted 0 (2 ^ 16) 0,
    .alu 110592, .regfileParity 110592, .loadTile 0 12, .pageWalk 0 (2 ^ 16) 0 0 0 0 0, .pageWalk 0 0 0 (2 ^ 13) 0 0 0, .pageWalk 0 0 0 0 0 0 (2 ^ 18),
    .pageQuery 0 2 0, .partialArrive 0 0 0 (2 ^ 21) 0 0 0, .partialArrive 0 0 0 0 16 0 0, .partialArrive 0 0 0 0 0 8 0, .mergeRecord 0 0 0 4 0 0,
    .generate 0 0 [] 256, .ygTrainRetry 24, .codewordReceive 0 4096 false true [] [], .collPartComplete 0 32 0 [] .none, .collPartComplete 0 0 256 [] .none,
    .readImage 256 0 0, .campResetDone 16, .pldmGetSensor 6 0, .pldmPowerCycle 4096, .powerOn 65536 0 0 0 0, .fieldStageFault 0 4 0, .keyExchange true 4] :
    List Instr).all (fun i => !i.wf) = true := by decide +kernel
theorem test_well_formed : ([.registerWrite 63 0x4000 8 255 0, .alu 110591, .moveStart 95 (2 ^ 25 - 1) (2 ^ 21 - 1) 31, .rationTick, .getStatus] : List Instr).all Instr.wf = true := by
  decide +kernel

/-! ### Values that the spec works out -/

/-- VENDOR_DEVICE (chapter 01, field note). -/
theorem test_vendor : on.readWord 0 0 = 0x04521F2B := by decide +kernel
/-- ROUTE_RESULT from S42 to S48 around the hole (chapter 02, field note). -/
theorem test_route : ({ on with fab := { on.fab with routesOk := true }, regs := [(0x400008, 0x302A)] } : Block).readWord 0 0x40000C = 0x80001E08 := by decide +kernel
/-- A granule of layer 10 with its copy (chapter 04, field note). -/
def layer10 : Block := { rich with
  regs := [(0x500010, 0x1A2B0000), (0x500014, 0x00010709)]
  tier := { on.tier with dir := [(dirKey 7 0x123456, ⟨4, 3, false, false, 1, 0x4A, 0x8200, 0x1234567, 2, 3, 0⟩)] } }
theorem test_directory : layer10.readWord 0 0x500018 = 0x004A011C ∧ layer10.readWord 0 0x50001C = 0x8200 ∧ layer10.readWord 0 0x500020 = 0x1234567 ∧
    layer10.readWord 0 0x500024 = 0xE := by decide +kernel
/-- A DRAM address taken apart (chapter 05, field note). -/
theorem test_dram_address : let p := dramBase + (0x1234 <<< 20) + (10 <<< 15) + (12 <<< 11) + (3 <<< 9) + (3 <<< 7)
    dramChan p = 10 ∧ dramRow p = 0x1234 ∧ dramBank p = 15 ∧ (p - dramBase) / 0x8000 = 0x2468A := by decide +kernel
/-- BR p1, back by 8 words (chapter 08, field note). -/
theorem test_branch_word : wMajor 0xFFFFE05C = 0x1C ∧ wPred 0xFFFFE05C = 1 ∧ wNeg 0xFFFFE05C = false ∧ wOff22 0xFFFFE05C = -8 := by decide +kernel
/-- The first SMUP over 32 scores of 0.0 (chapter 08, field note). -/
theorem test_smup : let r := smup (List.replicate 32 0) (List.replicate 32 true) 0xFF800000 0
    r.m = 0 ∧ r.l = 0x42000000 ∧ r.alpha = 0 ∧ r.ps = List.replicate 32 0x3F800000 := by decide +kernel
/-- Page 54 of pair 1,234 lies in F84 (chapter 10, field note). -/
theorem test_page_field : ({ model3 with layers := 1000, kvHeads := 8 } : Model).pageField 1234 54 = 84 := by decide +kernel
/-- The key of fork 3 (R354). -/
theorem test_fork_seed : ({ request3 with raw := 0x1000 <<< 320 } : Request).forkSeed 3 = 0xDAA66D2C7DDF843F := by decide +kernel
/-- PORT_STATUS of H0 with 3 VFs, FN_STATUS of FN 1 (chapter 15, field note). -/
theorem test_port_status : let b : Block := { on with
      host := { on.host with ports := [(0, ⟨true, true, 6, 16, 3, false, 3, true⟩)], fns := [(1, { FnSt.init with bme := true })] }
      camp := { on.camp with live := [(513, 0x31)] } }
    b.readWord 0 0xD80100 = 0x03031063 ∧ b.readWord 0 0xD81010 = 0x513 := by decide +kernel
/-- PORT_STATE of Y5 at (3, 2, 1) (chapter 17, field note). -/
theorem test_port_state : let b0 : Block := { rich with
      regs := [(0xE00000, BitVec.ofNat 32 (8 + 4 * 16 + 2 * 256 + 3 * 2 ^ 16 + 2 * 2 ^ 20 + 2 ^ 24))]
      yg := { on.yg with ports := [(5, { YgPort.init with state := 3, asked := true, peer := 84, peerPort := 1 })] } }
    b0.readWord 0 0xE01140 = 0x01541EF3 := by decide +kernel
end Sys2Proof.Tests
end

section
/-! PROOFS. Registers as functions reach them: a counter's top (R12), the frame of a written word (R6, R7), the latch of a high word (R3), the
staging of a low word (R4), and the TLPs of BAR0 and BAR4 that reach a register (R2, R545, R546). -/
namespace Sys2Proof.Machine

variable {b : Block} {fn fn' off off' len be data n o : Nat}

/-! ### Counters (R12) -/

/-- A counter of a word reads its old value and what it has counted, up to its top. -/
theorem fget_count (f : Fld) (h : f.lo + f.width ≤ 32) : (b.count f n).fget f = min (2 ^ f.width - 1) (b.fget f + n) := by
  have htop : satTo f.width (b.fget f + n) < 2 ^ f.width :=
    lt_of_le_of_lt (min_le_right _ _) (Nat.sub_lt (Nat.two_pow_pos _) one_pos)
  rw [count_eq_fset, fget_fset b f _ h, Nat.mod_eq_of_lt htop, satTo, min_comm]

/-- A counter that counts leaves every field of another word, and every field beside it, as it was. -/
theorem fget_count_ne (f g : Fld) (h : g.lo + g.width ≤ 32) (hd : g.off ≠ f.off ∨ g.lo + g.width ≤ f.lo ∨ f.lo + f.width ≤ g.lo) :
    (b.count f n).fget g = b.fget g := by
  rw [count_eq_fset, fget_fset_ne b f g _ h hd]

/-- Settles O44: the new value is a field write of the sum cut at the top, which fits the field. -/
theorem countersStop : Obligations.CountersStop := fun _ f _ h =>
  ⟨fget_count f h, fun g hd hg => fget_count_ne f g hg hd, rfl⟩

/-! ### A written word (R6, R7, R528) -/

/-- A STATIC field of an enabled block takes no write (R7). -/
theorem FieldDef.write_static {f : FieldDef} (h : f.cls = .static) (v w : W32) : f.write true v w = w := by
  simp [FieldDef.write, h]

/-- A register of STATIC fields takes no write while its block is enabled (R7). -/
theorem RegDef.write_static {r : RegDef} (h : ∀ f ∈ r.fields, f.cls = .static) (v w : W32) : r.write true v w = w :=
  List.foldlRecOn (motive := (· = w)) r.fields _ rfl fun _ hw f hf => (FieldDef.write_static (h f hf) v _).trans hw

/-- Counting late writes leaves every word but the counters' own. -/
theorem regWord_foldl_fldAdd (fs : List Fld) (m : Sparse W32) (h : ∀ f ∈ fs, o ≠ f.off) :
    regWord (fs.foldl (fun m f => fldAdd m f 1) m) o = regWord m o :=
  List.foldlRecOn (motive := fun m' => regWord m' o = regWord m o) fs _ rfl fun _ hm f hf => (sget_sset_ne (h f hf)).trans hm

/-- A word of the bank with one word put in. -/
theorem regWord_sset (m : Sparse W32) (w : W32) : regWord (sset resetWord m off w) o = if o = off then w else regWord m o := sget_sset

theorem writeWord_of_none (h : regAt off = none) (v : W32) : b.writeWord off v = b := by simp [Block.writeWord, h]

/-- What a word reads after a register is written, but for the late-write counters of its owner. -/
theorem regWord_writeWord {r : RegDef} (h : regAt off = some r) (v : W32) (hc : ∀ f ∈ lateCounters r.owner off, o ≠ f.off) :
    regWord (b.writeWord off v).regs o =
      if o = off then r.write (b.ownerEnabled r.owner off) v (regWord b.regs off) else regWord b.regs o := by
  simp only [Block.writeWord, h, Block.takeIdle]
  split
  · rw [regWord_foldl_fldAdd _ _ hc, regWord_sset]
  · rw [regWord_sset]

/-- A written word changes the bank and the values in force. -/
theorem writeWord_frame (b : Block) (off : Nat) (v : W32) : { b.writeWord off v with regs := b.regs, force := b.force } = b := by
  cases h : regAt off with
  | none => rw [writeWord_of_none h]
  | some r => simp only [Block.writeWord, h, Block.takeIdle]

/-- Settles O45: what each word of the bank reads after the write is known, and the rest of the block is untouched. -/
theorem registerWriteFrame : Obligations.RegisterWriteFrame := by
  intro b off v
  refine ⟨writeWord_frame b off v, fun o ho hc => ?_, fun r h hs he hc => ?_⟩
  · cases h : regAt off with
    | none => rw [writeWord_of_none h]
    | some r => rw [regWord_writeWord h v (hc r h), if_neg ho]
  · have hs' : ∀ f ∈ r.fields, f.cls = .static := by simpa using hs
    rw [regWord_writeWord h v fun f hf => (hc f hf).symm, if_pos rfl, he, RegDef.write_static hs']

/-! ### 64-bit registers (R3, R4) -/

theorem wideRegs_lt : ∀ off ∈ wideRegs, off < 2 ^ 32 := by decide

/-- The high word of a 64-bit register is no register's low word. -/
theorem high_not_wide : ∀ off ∈ wideRegs, off + 4 ∉ wideRegs := by decide

/-- Functions and offsets of 32 bits have latches and stages of their own. -/
theorem latchKey_inj (h : off < 2 ^ 32) (h' : off' < 2 ^ 32) : latchKey fn off = latchKey fn' off' ↔ fn = fn' ∧ off = off' := by
  simp only [latchKey]
  omega

@[simp] theorem latched_latchHigh_self : (b.latchHigh fn off).latched fn off = some (BitVec.ofNat 32 (b.readWord fn (off + 4))) := by
  simp [Block.latched, Block.latchHigh]

theorem latched_latchHigh_ne (h : latchKey fn' off' ≠ latchKey fn off) : (b.latchHigh fn off).latched fn' off' = b.latched fn' off' := by
  simp only [Block.latched, Block.latchHigh, sget_sset_ne h]

theorem readOne_low (h : off ∈ wideRegs) : b.readOne fn off = (b.readWord fn off, b.latchHigh fn off) := by
  simp [Block.readOne, h]

/-- A high word reads as the function has latched it, or live (R3). -/
theorem readOne_high (h : off ∈ wideRegs) :
    b.readOne fn (off + 4) = (((b.latched fn off).map BitVec.toNat).getD (b.readWord fn (off + 4)), b) := by
  cases hl : b.latched fn off <;> simp [Block.readOne, h, high_not_wide off h, hl]

/-- Settles O40: a read of the low word sets the latch of its own key, and a read of the high word looks there first. -/
theorem highWordLatch : Obligations.HighWordLatch := by
  refine ⟨fun b fn off h => ?_, fun b fn off w h hl => ?_, fun b fn off h hl => ?_, fun _ _ => rfl⟩
  · rw [readOne_low h]
    refine ⟨rfl, latched_latchHigh_self, fun fn' off' hne _ _ ho => latched_latchHigh_ne fun hk => hne ?_⟩
    obtain ⟨rfl, rfl⟩ := (latchKey_inj ho (wideRegs_lt off h)).mp hk
    rfl
  · simp [readOne_high h, hl]
  · simp [readOne_high h, hl]

@[simp] theorem stagedLow_stageLow_self (v : W32) : (b.stageLow fn off v).stagedLow fn off = some v := by
  simp [Block.stagedLow, Block.stageLow]

theorem stagedLow_stageLow_ne (v : W32) (h : fn' ≠ fn) : (b.stageLow fn off v).stagedLow fn' off = b.stagedLow fn' off := by
  have hk : latchKey fn' off ≠ latchKey fn off := by simpa [latchKey] using h
  simp only [Block.stagedLow, Block.stageLow, sget_sset_ne hk]

/-- A written word neither reads nor changes what is staged. -/
theorem writeWord_with_staged (s : Sparse (Option W32)) (v : W32) :
    ({ b with staged := s } : Block).writeWord off v = { b.writeWord off v with staged := s } := by
  cases h : regAt off with
  | none => simp only [writeWord_of_none h]
  | some r => simp only [Block.writeWord, h]; rfl

/-- The high word's write applies the low word, staged or as it stands, and then itself, and drops the stage (R4). -/
theorem applyHigh_eq (hi : W32) : b.applyHigh fn off hi =
    { (b.writeWord off ((b.stagedLow fn off).getD (regWord b.regs off))).writeWord (off + 4) hi with
      staged := sset (fun _ => none) b.staged (latchKey fn off) none } := by
  simp only [Block.applyHigh, writeWord_with_staged]

@[simp] theorem stagedLow_applyHigh (hi : W32) : (b.applyHigh fn off hi).stagedLow fn off = none := by
  simp [applyHigh_eq, Block.stagedLow]

/-- Settles O41: the stage stands apart from the bank, so that applying it is two written words and a cleared stage. -/
theorem lowWordStaging : Obligations.LowWordStaging := by
  refine ⟨fun b fn off v _ => ?_, fun b fn off lo hi _ hs => ?_, fun b fn off hi _ hs => ?_⟩
  · exact ⟨stageLow_regs b fn off v, stagedLow_stageLow_self v, fun fn' h _ _ => stagedLow_stageLow_ne v h⟩
  · exact ⟨by rw [applyHigh_eq, hs, Option.getD_some], stagedLow_applyHigh hi⟩
  · exact ⟨by rw [applyHigh_eq, hs, Option.getD_none], stagedLow_applyHigh hi⟩

/-! ### TLPs of registers (R2, R4, R545, R546) -/

/-- A word-aligned offset stands at the lower or the upper word of its aligned 8 bytes. -/
theorem word_in_eight (h : off % 4 = 0) : off % 8 = 0 ∨ off % 8 = 4 := by omega

theorem inEight_of_word (h : off % 4 = 0) : inEight off 4 = true := by
  rcases word_in_eight h with h8 | h8 <;> simp [inEight, h8]

theorem lowWordReadEff_of (hr : Reaches b fn = true) (h : inEight off len = true) : lowWordReadEff fn off len b =
    (readSpan (fun o b => Block.barRead fn o b) off len b).2.send (.readData fn off (readSpan (fun o b => Block.barRead fn o b) off len b).1) := by
  simp [lowWordReadEff, tlp_of hr, h]

/-- A read that crosses an aligned 8 bytes receives Completer Abort (R545). -/
theorem lowWordReadEff_crossing (hr : Reaches b fn = true) (h : inEight off len = false) :
    lowWordReadEff fn off len b = b.send (.tlpStatus fn 2) := by
  simp [lowWordReadEff, tlp_of hr, h]

/-- A write that crosses an aligned 8 bytes, or that leaves out a byte of a word that it touches, is dropped and counted (R2, R545). -/
theorem registerWriteEff_dropped (hr : Reaches b fn = true) (h : (inEight off len && wholeWords (byteLanes off len be)) = false) :
    registerWriteEff fn off len be data b = b.bump F.partialWrites := by
  simp [registerWriteEff, tlp_of hr, h]

/-- The enables of a 4-byte write that leave out some of its bytes leave out bytes of a word that it touches. -/
theorem wholeWords_byteLanes_partial (h4 : off % 4 = 0) (h0 : be % 16 ≠ 0) (h15 : be % 16 ≠ 15) : wholeWords (byteLanes off 4 be) = false := by
  have hlt : be % 16 < 16 := Nat.mod_lt _ (by decide)
  rcases word_in_eight h4 with h8 | h8
  · simp [wholeWords, byteLanes, h8, h0, h15]
  · have hup : be % 16 * 16 / 16 = be % 16 := Nat.mul_div_cancel _ (by decide)
    simp [wholeWords, byteLanes, h8, Nat.shiftLeft_eq, hup, h0, h15]

/-- A whole word of 4 bytes is written at its offset (R2). -/
theorem registerWriteEff_word (hr : Reaches b fn = true) (h4 : off % 4 = 0) (hd : data < 2 ^ 32) :
    registerWriteEff fn off 4 15 data b = Block.regWrite fn off (BitVec.ofNat 32 data) b := by
  have hin := inEight_of_word h4
  rcases word_in_eight h4 with h8 | h8
  · have hlanes : byteLanes off 4 15 = 15 := by simp [byteLanes, h8]
    have hword : bitsOf (data <<< (8 * (off % 8))) 0 32 = data := by simpa [bitsOf, h8] using hd
    have hbase : off / 8 * 8 = off := by omega
    simp [registerWriteEff, tlp_of hr, hin, hlanes, wholeWords, hword, hbase]
  · have hlanes : byteLanes off 4 15 = 240 := by simp [byteLanes, h8]
    have hword : bitsOf (data <<< (8 * (off % 8))) 32 32 = data := by simpa [bitsOf, h8] using hd
    have hbase : off / 8 * 8 + 4 = off := by omega
    simp [registerWriteEff, tlp_of hr, hin, hlanes, wholeWords, hword, hbase]

/-- Two whole words of 8 bytes are written in turn, the lower first (R2). -/
theorem registerWriteEff_pair {lo hi : Nat} (hr : Reaches b fn = true) (h8 : off % 8 = 0) (hlo : lo < 2 ^ 32) (hhi : hi < 2 ^ 32) :
    registerWriteEff fn off 8 255 (lo + 2 ^ 32 * hi) b =
      Block.regWrite fn (off + 4) (BitVec.ofNat 32 hi) (Block.regWrite fn off (BitVec.ofNat 32 lo) b) := by
  have hin : inEight off 8 = true := by simp [inEight, h8]
  have hlanes : byteLanes off 8 255 = 255 := by simp [byteLanes, h8]
  have hbase : off / 8 * 8 = off := by omega
  have hword0 : bitsOf (lo + 2 ^ 32 * hi) 0 32 = lo := by
    rw [bitsOf, Nat.shiftRight_zero, Nat.add_mul_mod_self_left, Nat.mod_eq_of_lt hlo]
  have hword1 : bitsOf (lo + 2 ^ 32 * hi) 32 32 = hi := by
    rw [bitsOf, Nat.shiftRight_eq_div_pow, Nat.add_mul_div_left _ _ (by decide), Nat.div_eq_of_lt hlo, Nat.zero_add, Nat.mod_eq_of_lt hhi]
  simp [registerWriteEff, tlp_of hr, hin, hlanes, wholeWords, hbase, h8, hword0, hword1, -Nat.reducePow]

theorem lowWordWriteEff_bar0 {v : Nat} (hw : Writes b fn off = true) (h : wideWritable.contains off = true) (hb : off < bar4) :
    lowWordWriteEff fn off v b = b.stageLow fn off (BitVec.ofNat 32 v) := by
  simp only [lowWordWriteEff, h, hb, barWrite_of hw, if_true, Bool.true_eq_false, if_false]

theorem highWordWriteEff_bar0 {v : Nat} (hw : Writes b fn off = true) (h : wideWritable.contains (off - 4) = true) (hb : off < bar4) :
    highWordWriteEff fn off v b = b.applyHigh fn (off - 4) (BitVec.ofNat 32 v) := by
  simp only [highWordWriteEff, h, hb, barWrite_of hw, if_true, Bool.true_eq_false, if_false]

theorem lowWordWriteEff_bar4 {v : Nat} (hd : Debugs b fn = true) (h : wideWritable.contains off = true) (hb : ¬ off < bar4) :
    lowWordWriteEff fn off v b = b.stageLow fn off (BitVec.ofNat 32 v) := by
  simp only [lowWordWriteEff, h, hb, bar4Access_of hd, Bool.true_eq_false, if_false]

theorem highWordWriteEff_bar4 {v : Nat} (hd : Debugs b fn = true) (h : wideWritable.contains (off - 4) = true) (hb : ¬ off < bar4) :
    highWordWriteEff fn off v b = b.applyHigh fn (off - 4) (BitVec.ofNat 32 v) := by
  simp only [highWordWriteEff, h, hb, bar4Access_of hd, Bool.true_eq_false, if_false]

/-- Settles O3: each access passes its port's conditions and is then its own operation. -/
theorem registerAccessCompletes : Obligations.RegisterAccessCompletes := by
  refine ⟨fun b q fn off len hr h => ?_, fun b q fn off v hr h4 hv => ?_, fun b q fn off lo hi hr h8 hlo hhi => ?_,
    fun b q fn off v hw h hb => ?_, fun b q fn off v hw h hb => ?_, fun b q fn v hd => ⟨?_, ?_⟩⟩
  · rw [exec_lowWordRead, lowWordReadEff_of hr h]
  · rw [exec_registerWrite, registerWriteEff_word hr h4 hv]
  · rw [exec_registerWrite, registerWriteEff_pair hr h8 hlo hhi]
  · rw [exec_lowWordWrite, lowWordWriteEff_bar0 hw h hb]
  · rw [exec_highWordWrite, highWordWriteEff_bar0 hw h hb]
  · rw [exec_lowWordWrite, lowWordWriteEff_bar4 hd (by decide) (by decide)]
  · rw [exec_highWordWrite, highWordWriteEff_bar4 hd (by decide) (by decide)]

/-- Settles O42: a crossing access fails the first test of its size, partial enables the second. -/
theorem tlpSizes : Obligations.TlpSizes := by
  refine fun b q fn off len be data hr => ⟨fun h => ?_, fun h => ?_, fun h4 h0 h15 => ?_⟩
  · rw [exec_lowWordRead, lowWordReadEff_crossing hr h]
  · rw [exec_registerWrite, registerWriteEff_dropped hr (by rw [h, Bool.false_and])]
  · rw [exec_registerWrite, registerWriteEff_dropped hr (by rw [wholeWords_byteLanes_partial h4 h0 h15, Bool.and_false])]

end Sys2Proof.Machine
end

section
/-! PROOFS. The query registers take the word that a function may write (R58, R113, R169, R192, R278, R323, R347). -/
namespace Sys2Proof.Machine

variable {b : Block} {fn off word value : Nat}

theorem routeQueryEff_of (h : Writes b fn 0x400008 = true) : routeQueryEff fn value b = b.writeWord 0x400008 (BitVec.ofNat 32 value) :=
  barWrite_of h _

/-- The address of a directory query is applied with its high word (R4, R113). -/
theorem dirQueryEff_of (h : Writes b fn 0x500014 = true) : dirQueryEff fn value b =
    ({ b with tier := { b.tier with asked := true } } : Block).applyHigh fn 0x500010 (BitVec.ofNat 32 value) :=
  barWrite_of h _

theorem candQueryEff_of (h : Writes b fn 0x700060 = true) : candQueryEff fn value b = b.writeWord 0x700060 (BitVec.ofNat 32 value) :=
  barWrite_of h _

theorem imageQueryEff_of (h : Writes b fn 0x800010 = true) : imageQueryEff fn value b = b.writeWord 0x800010 (BitVec.ofNat 32 value) :=
  barWrite_of h _

theorem pageQueryEff_zero (h : Writes b fn 0xA00014 = true) : pageQueryEff fn 0 value b = b.writeWord 0xA00014 (BitVec.ofNat 32 value) :=
  barWrite_of h _

theorem pageQueryEff_of_ne_zero (hw : word ≠ 0) (h : Writes b fn 0xA00018 = true) :
    pageQueryEff fn word value b = b.writeWord 0xA00018 (BitVec.ofNat 32 value) := by
  simp only [pageQueryEff, hw, if_false, barWrite_of h]

theorem slotQueryEff_of (h : Writes b fn 0xC00010 = true) : slotQueryEff fn value b = b.writeWord 0xC00010 (BitVec.ofNat 32 value) :=
  barWrite_of h _

/-- A word of the generator's test, with the right to write it, is staged, applied or written by its place (R323). -/
theorem generatorTestEff_of (ho : 0xB00008 ≤ off ∧ off ≤ 0xB00014 ∧ off % 4 = 0) (h : Writes b fn off = true) :
    generatorTestEff fn off value b =
      if off = 0xB00008 then b.stageLow fn off (BitVec.ofNat 32 value)
      else if off = 0xB0000C then b.applyHigh fn 0xB00008 (BitVec.ofNat 32 value)
      else b.writeWord off (BitVec.ofNat 32 value) := by
  rw [generatorTestEff, if_neg (not_not_intro ho), barWrite_of h]

/-- The low word of the generator's 64-bit key is staged (R4, R323). -/
theorem generatorTestEff_keyLow (h : Writes b fn 0xB00008 = true) :
    generatorTestEff fn 0xB00008 value b = b.stageLow fn 0xB00008 (BitVec.ofNat 32 value) :=
  generatorTestEff_of (by decide) h

/-- The high word of the generator's key applies the whole key (R4, R323). -/
theorem generatorTestEff_keyHigh (h : Writes b fn 0xB0000C = true) :
    generatorTestEff fn 0xB0000C value b = b.applyHigh fn 0xB00008 (BitVec.ofNat 32 value) :=
  generatorTestEff_of (by decide) h

/-- The generator's position and index are words of their own (R323). -/
theorem generatorTestEff_word (ho : off = 0xB00010 ∨ off = 0xB00014) (h : Writes b fn off = true) :
    generatorTestEff fn off value b = b.writeWord off (BitVec.ofNat 32 value) := by
  rcases ho with rfl | rfl <;> exact generatorTestEff_of (by decide) h

/-- Settles O4: a function that may write passes the right's check of R380, and the word is then the register's own write. -/
theorem queryWritesComplete : Obligations.QueryWritesComplete := by
  refine fun b q fn v => ⟨fun h => ?_, fun h => ?_, fun h => ?_, fun h => ?_, fun h => ?_, fun h => ?_, fun h => ?_, fun h => ?_,
    fun h => ?_, fun h => ?_, fun h => ?_⟩
  · rw [exec_routeQuery, routeQueryEff_of h]
  · rw [exec_dirQuery, dirQueryEff_of h]
  · rw [exec_candQuery, candQueryEff_of h]
  · rw [exec_imageQuery, imageQueryEff_of h]
  · rw [exec_pageQuery, pageQueryEff_zero h]
  · rw [exec_pageQuery, pageQueryEff_of_ne_zero one_ne_zero h]
  · rw [exec_slotQuery, slotQueryEff_of h]
  · rw [exec_generatorTest, generatorTestEff_keyLow h]
  · rw [exec_generatorTest, generatorTestEff_keyHigh h]
  · rw [exec_generatorTest, generatorTestEff_word (.inl rfl) h]
  · rw [exec_generatorTest, generatorTestEff_word (.inr rfl) h]

end Sys2Proof.Machine
end

section
/-! PROOFS. The fabric: where a router takes a flit (R38, R39, R43), and the guards of time sync, heartbeats and stalls (R50, R51, R54). -/
namespace Sys2Proof.Machine

variable {b : Block} {site port cls leg err flit : Nat} {room : Bool}

/-! ### Flits (R38, R39, R43) -/

/-- A router that has its tables and its power, and operands in range: what a FLIT_RECEIVE asks for before it looks at the port's flit. -/
def Block.routerTakes (b : Block) (site port cls leg err : Nat) : Prop :=
  b.boot.en.fabric = true ∧ b.fab.routesOk = true ∧ site ≤ 103 ∧ siteKind b.wafer.kinds site ≠ 3 ∧
    b.unpowered (siteField b.wafer.kinds site) = false ∧ port ≤ 4 ∧ cls ≤ 3 ∧ leg ≤ 1 ∧ err ≤ 2

/-- A FLIT_RECEIVE passes its guard exactly where the router takes flits. -/
theorem routerTakes_iff : b.routerTakes site port cls leg err ↔
    ¬(b.boot.en.fabric = false ∨ b.fab.routesOk = false ∨ 103 < site ∨ siteKind b.wafer.kinds site = 3 ∨
      b.unpowered (siteField b.wafer.kinds site) ∨ 4 < port ∨ 3 < cls ∨ 1 < leg ∨ 2 < err) := by
  simp only [Block.routerTakes, not_or, Bool.not_eq_false, Bool.not_eq_true, not_lt, ne_eq]

/-- From another router comes the flit that the link has carried longest. -/
theorem flitReceiveEff_link {f : Flit} {rest : List Flit} (h : b.routerTakes site port cls leg err) (hp : port ≤ 3)
    (hw : b.wire (vcKey site port (cls + 4 * leg)) = f :: rest) :
    flitReceiveEff site port cls leg err flit room b =
      ((b.setWire (vcKey site port (cls + 4 * leg)) rest).takeFlit site port (vcKey site port (cls + 4 * leg)) err f room).meshRun room := by
  have hne : port ≠ 4 := by omega
  simp only [flitReceiveEff, if_neg (routerTakes_iff.mp h), hne, if_false, hw]

/-- An endpoint of the site starts a packet: its header enters with the route's waypoint and the epoch of its camp (R43). -/
theorem flitReceiveEff_header {hd : Nat} (h : b.routerTakes site 4 cls leg err)
    (hroom : (b.vc (vcKey site 4 (cls + 4 * leg))).flits.length < vcDepth) (hleft : (b.vc (vcKey site 4 (cls + 4 * leg))).left = 0)
    (hr : b.routedHeader site (cls + 4 * leg) flit = some hd) :
    flitReceiveEff site 4 cls leg err flit room b =
      (b.takeFlit site 4 (vcKey site 4 (cls + 4 * leg)) err ⟨hd, false, true, false, sget (fun _ => 0) b.fab.epochs (hdrCamp hd)⟩ room).meshRun
        room := by
  simp only [flitReceiveEff, if_neg (routerTakes_iff.mp h), if_true, hroom.not_ge, if_false, hleft, hr]

/-- An endpoint of the site sends on the packet that it has started. -/
theorem flitReceiveEff_payload (h : b.routerTakes site 4 cls leg err)
    (hroom : (b.vc (vcKey site 4 (cls + 4 * leg))).flits.length < vcDepth) (hleft : (b.vc (vcKey site 4 (cls + 4 * leg))).left ≠ 0) :
    flitReceiveEff site 4 cls leg err flit room b =
      (b.takeFlit site 4 (vcKey site 4 (cls + 4 * leg)) err ⟨flit % 2 ^ 256, false, false, false, 0⟩ room).meshRun room := by
  simp only [flitReceiveEff, if_neg (routerTakes_iff.mp h), if_true, hroom.not_ge, if_false, hleft]

/-! ### Time, heartbeats, stalls (R50, R51, R54) -/

theorem timeSyncEff_of (h : b.boot.en.fabric = true) (os : List (Nat × Int)) : timeSyncEff os b =
    { os.foldl (fun b so => b.syncSite so.1 so.2) b with
      fab := { (os.foldl (fun b so => b.syncSite so.1 so.2) b).fab with spread := min 255 (os.foldl (fun m so => max m so.2.natAbs) 0) } } := by
  simp only [timeSyncEff, h, if_true]

/-- A router that has heard no sync for 1 ms loses its lock and says so once (R51). -/
theorem timeUnlockedEff_of (h : b.boot.en.fabric = true) (hk : siteKind b.wafer.kinds site ≠ 3) (hu : (b.siteSt site).unlockedAt = 0)
    (ht : (b.siteSt site).lastSync + 1000000 ≤ b.fab.time) : timeUnlockedEff site b =
      (b.setSite site { b.siteSt site with locked := false, unlockedAt := b.fab.time }).raise 0x0681 (siteField b.wafer.kinds site) 0xFF
        (packBits [(0, 8, site), (32, 32, toTwos 32 (b.siteSt site).offset)]) :=
  if_pos ⟨h, hk, hu, ht⟩

/-- The acknowledgement of a live link is noted at its time (R54). -/
theorem linkHeartbeatEff_acked (h : b.fab.dead.contains (site, port) = false) : linkHeartbeatEff site port true b =
    { b with fab := { b.fab with lastAck := sset (fun _ => 0) b.fab.lastAck (linkKey site port) b.fab.time } } := by
  simp only [linkHeartbeatEff, h, Bool.not_false, Bool.and_self, if_true]

/-- The time in µs since the link of an output was last acknowledged (R54). -/
def Block.ackAge (b : Block) (site port : Nat) : Nat := (b.fab.time - sget (fun _ => 0) b.fab.lastAck (linkKey site port)) / 1000

/-- A link that has not acknowledged for the limit is dead from then on, and its stall is counted and raised (R54). -/
theorem fabricStallEff_of (h : b.boot.en.fabric = true) (hk : siteKind b.wafer.kinds site ≠ 3)
    (hd : b.fab.dead.contains (site, port) = false) (ha : max 1 (b.fget F.stallLimitUs) ≤ b.ackAge site port) :
    fabricStallEff site port cls leg b =
      ((({ b with fab := { b.fab with dead := b.fab.dead ++ [(site, port)] } } : Block).bump (F.siteStalls site)).bump F.stallsTotal).raise
        0x0680 (siteField b.wafer.kinds site) 0xFF
        (packBits [(0, 8, site), (8, 8, port), (16, 8, (b.oldestAt site port (cls, leg)).1), (24, 8, (b.oldestAt site port (cls, leg)).2),
          (32, 32, b.ackAge site port)]) :=
  if_pos ⟨h, hk, hd, ha⟩

/-- Settles O5: the router's guard holds at either kind of port, whose flit is then the link's or the endpoint's; each other command passes its
own guard. -/
theorem fabricCompletes : Obligations.FabricCompletes := by
  refine ⟨fun b q site port cls leg err flit room hen hok hs hk hpow hc hl he => ?_, fun b q os hen => ?_,
    fun b q site hen hk hu ht => ?_, fun b q site port hd => ?_, fun b q site port cls leg hen hk hd ha => ?_⟩
  · have htakes : port ≤ 4 → b.routerTakes site port cls leg err := fun hp => ⟨hen, hok, hs, hk, hpow, hp, hc, hl, he⟩
    refine ⟨fun f rest hp hw => ?_, fun h hp hroom hleft hr => ?_, fun hp hroom hleft => ?_⟩
    · rw [exec_flitReceive, flitReceiveEff_link (htakes (by omega)) hp hw]
    · subst hp
      rw [exec_flitReceive, flitReceiveEff_header (htakes le_rfl) hroom hleft hr]
    · subst hp
      rw [exec_flitReceive, flitReceiveEff_payload (htakes le_rfl) hroom hleft]
  · rw [exec_timeSync, timeSyncEff_of hen]
  · rw [exec_timeUnlocked, timeUnlockedEff_of hen hk hu ht]
  · rw [exec_linkHeartbeat, linkHeartbeatEff_acked hd]
  · rw [exec_fabricStall, fabricStallEff_of hen hk hd ha, Block.ackAge]

end Sys2Proof.Machine
end

section
/-! PROOFS. Steps: the guards of a step token, of a boundary and of the idle hold (R52, R77, R330, R331). -/
namespace Sys2Proof.Machine

variable {b : Block} {c f : Nat} {plan : List (Nat × Nat × Nat × Nat × Nat)} {drops : List (Nat × Nat × Nat × Nat)}

/-! ### Step tokens (R52, R200, R284) -/

/-- A field takes the camp's token and announces the experts that its kernels use. -/
def Block.takeToken (b : Block) (c f : Nat) (experts : List Announcement) : Block :=
  experts.foldl (fun b' a => b'.announce c (b.stepSt c).token a.layer a.expert a.object a.peers)
    (b.setCampField c f { b.campField c f with token := (b.stepSt c).token })

/-- A field does the rows of its step in the order of their positions, counts its waves and sends its pieces on (R284, R291). -/
def Block.doRows (b : Block) (c f : Nat) (rows : List KvWork) : Block :=
  (((sortBy (fun x y => decide (x.pos < y.pos)) rows).foldl (fun b w => b.doWork c f w) b).countWaves f rows).sendPieces c f rows

/-- A member field takes a token that it does not hold yet, does the step's rows and starts its kernels (R52, R200). -/
theorem stepTokenReceiveEff_of {work : StepWork} {experts : List Announcement} (hs : (b.stepSt c).inStep = true)
    (hm : (b.campField c f).member = true) (ht : (b.campField c f).token ≠ (b.stepSt c).token) :
    stepTokenReceiveEff c f work experts b = (((b.takeToken c f experts).doRows c f work.rows).addKernels c f work.kernels).runKernels :=
  if_pos ⟨hs, hm, ht⟩

/-! ### Boundaries (R330, R331) -/

/-- May a boundary of the camp run now: in service, not resetting, not held for an approved change, and not waiting for TOKEN room? -/
def Block.boundaryFree (b : Block) (c : Nat) : Prop :=
  b.boot.en.service = true ∧ b.resetting c = false ∧ b.camp.held.contains c = false ∧ (b.phaseSt c).waiting = false

/-- A boundary that may run goes by whether the camp is in a step. -/
theorem stepBoundaryEff_free (h : b.boundaryFree c) : stepBoundaryEff c plan drops b =
    if b.inStep c then
      if b.stepComplete c && b.resultsReady c && !b.barrierOpen c then
        if (b.item1 c).tokenRoom c then (b.item1 c).restOfBoundary c plan drops else (b.item1 c).setPhase c fun p => { p with waiting := true }
      else b
    else if (b.phaseSt c).ramping then
      (if (b.rat.plans.any fun x => x.1 == c) || b.trayCopies c then b else (b.openStep c).finishPhase c)
    else b.restOfBoundary c plan drops := by
  obtain ⟨hen, hres, hheld, hwait⟩ := h
  simp only [stepBoundaryEff, hen, hres, hheld, hwait, Bool.true_eq_false, Bool.false_eq_true, or_self, if_false]

/-- A camp without a step runs items 2 to 7 (R331). -/
theorem stepBoundaryEff_noStep (h : b.boundaryFree c) (hs : b.inStep c = false) (hr : (b.phaseSt c).ramping = false) :
    stepBoundaryEff c plan drops b = b.restOfBoundary c plan drops := by
  simp only [stepBoundaryEff_free h, hs, hr, Bool.false_eq_true, if_false]

/-- A camp whose step is finished runs item 1, and the rest where the TOKEN rings have room (R330). -/
theorem stepBoundaryEff_finished (h : b.boundaryFree c) (hs : b.inStep c = true) (hc : b.stepComplete c = true)
    (hres : b.resultsReady c = true) (hbar : b.barrierOpen c = false) (hroom : (b.item1 c).tokenRoom c = true) :
    stepBoundaryEff c plan drops b = (b.item1 c).restOfBoundary c plan drops := by
  simp only [stepBoundaryEff_free h, hs, hc, hres, hbar, hroom, Bool.not_false, Bool.and_self, if_true]

/-! ### The idle hold (R77) -/

/-- A camp that has been idle for IDLE_HOLD_MS gives back every standing grant at every desk. -/
theorem campIdleHoldEff_of (hs : b.inStep c = false) (hr : (b.phaseSt c).ramping = false) (hw : (b.phaseSt c).waiting = false)
    (ht : (b.phaseSt c).idleAt + b.fget F.serveConfigIdleHoldMs * 1000000 ≤ b.fab.time) :
    campIdleHoldEff c b = b.rat.desks.foldl (fun b kv => kv.2.grants.foldl (fun b g => b.planDrop c kv.1 g.who) b) b :=
  if_pos ⟨hs, hr, hw, ht⟩

/-- Settles O6: the token is taken once by a member, a STEP_DONE has no guard, and a boundary goes by the camp's step. -/
theorem stepsComplete : Obligations.StepsComplete := by
  refine ⟨fun b q c f work experts hs hm ht => ?_, fun b q c f done => rfl, fun b q c plan drops hen hres hheld hwait hs hr => ?_,
    fun b q c plan drops hen hres hheld hwait hs hc hrdy hbar hroom => ?_, fun b q c hs hr hw ht => ?_⟩
  · rw [exec_stepTokenReceive, stepTokenReceiveEff_of hs hm ht]
    rfl
  · rw [exec_stepBoundary, stepBoundaryEff_noStep ⟨hen, hres, hheld, hwait⟩ hs hr]
  · rw [exec_stepBoundary, stepBoundaryEff_finished ⟨hen, hres, hheld, hwait⟩ hs hc hrdy hbar hroom]
  · rw [exec_campIdleHold, campIdleHoldEff_of hs hr hw ht]

end Sys2Proof.Machine
end

section
/-! PROOFS. Sound desks: what handover, delivery, clock steps and ramps keep of the fit of a desk's grants and queue, and of what they draw
(R65, R66, R70, R80). -/
namespace Sys2Proof.Machine

variable {gs gs' : List Grant} {qs qs' : List Req} {q r : Req} {g : Grant}

/-! ### Grants and requests that fit -/

/-- What `Desk.sound` asks, said of the grants and the queue alone: a desk's other fields have no part in it. -/
structure Fits (gs : List Grant) (qs : List Req) : Prop where
  holders : (gs.map (·.who)).Nodup
  waiters : (qs.map fun r => (r.who, r.clock)).Nodup
  within : ∀ r ∈ qs, r.handed + r.ramped ≤ r.amount
  fresh : ∀ r ∈ qs, r.clock = false → ∀ g ∈ gs, g.who ≠ r.who
  steps : ∀ r ∈ qs, r.clock = true → ∃ g ∈ gs, g.who = r.who ∧ g.k < 16 ∧ r.amount = atFraction g.amount (g.k + 1) - g.counted

theorem Desk.sound_iff_fits (d : Desk) : d.sound ↔ Fits d.grants d.queue :=
  ⟨fun ⟨holders, waiters, within, fresh, steps⟩ => ⟨holders, waiters, within, fresh, steps⟩,
    fun ⟨holders, waiters, within, fresh, steps⟩ => ⟨holders, waiters, within, fresh, steps⟩⟩

/-- What handover and ramps never change of a request. -/
def Req.key (r : Req) : Asker × Bool × Nat := (r.who, r.clock, r.amount)

/-- Requests that have got more or less, each within its amount, fit as they did. -/
theorem Fits.same_keys (h : Fits gs qs) (hk : qs'.map Req.key = qs.map Req.key) (hw : ∀ r ∈ qs', r.handed + r.ramped ≤ r.amount) :
    Fits gs qs' := by
  have hmem : ∀ r ∈ qs', ∃ x ∈ qs, x.who = r.who ∧ x.clock = r.clock ∧ x.amount = r.amount := fun r hr => by
    simpa [Req.key] using (hk ▸ List.mem_map_of_mem hr : r.key ∈ qs.map Req.key)
  have hwaiters : (qs'.map fun r => (r.who, r.clock)) = qs.map fun r => (r.who, r.clock) := by
    simpa [Function.comp_def, Req.key] using congrArg (List.map fun x => (x.1, x.2.1)) hk
  refine ⟨h.holders, hwaiters ▸ h.waiters, hw, fun r hr hc => ?_, fun r hr hc => ?_⟩
  · obtain ⟨x, hx, hwho, hclock, -⟩ := hmem r hr
    exact hwho ▸ h.fresh x hx (hclock.trans hc)
  · obtain ⟨x, hx, hwho, hclock, hamount⟩ := hmem r hr
    exact hwho ▸ hamount ▸ h.steps x hx (hclock.trans hc)

/-- What a request fits by, and what it has got. -/
def Req.share (r : Req) : (Asker × Bool × Nat) × Nat × Nat := (r.key, r.handed, r.ramped)

/-- Requests that differ in nothing but how long they have waited or been held fit as they did. -/
theorem Fits.same_share (h : Fits gs qs) (hs : qs'.map Req.share = qs.map Req.share) : Fits gs qs' := by
  refine h.same_keys (by simpa [Function.comp_def, Req.share] using congrArg (List.map (·.1)) hs) fun r hr => ?_
  obtain ⟨x, hx, hshare⟩ := List.mem_map.mp (hs ▸ List.mem_map_of_mem hr : r.share ∈ qs.map Req.share)
  simp only [Req.share, Req.key, Prod.mk.injEq] at hshare
  obtain ⟨⟨-, -, hamount⟩, hhanded, hramped⟩ := hshare
  exact hamount ▸ hhanded ▸ hramped ▸ h.within x hx

theorem sumReqs_same_share (hs : qs'.map Req.share = qs.map Req.share) : sumReqs qs' = sumReqs qs := by
  have := congrArg (List.map fun x => min x.1.2.2 (x.2.1 + x.2.2)) hs
  simp only [List.map_map, Function.comp_def, Req.share, Req.key] at this
  rw [sumReqs, sumReqs, this]

/-- Some of the requests that fit, no two for the same, fit. -/
theorem Fits.subset (h : Fits gs qs) (hs : qs' ⊆ qs) (hn : (qs'.map fun r => (r.who, r.clock)).Nodup) : Fits gs qs' :=
  ⟨h.holders, hn, fun r hr => h.within r (hs hr), fun r hr => h.fresh r (hs hr), fun r hr => h.steps r (hs hr)⟩

theorem Fits.sublist (h : Fits gs qs) (hs : qs'.Sublist qs) : Fits gs qs' :=
  h.subset hs.subset (h.waiters.sublist (hs.map _))

theorem Fits.perm (h : Fits gs qs) (hp : qs'.Perm qs) : Fits gs qs' :=
  h.subset hp.subset ((hp.map _).nodup_iff.mpr h.waiters)

/-- Grants that keep their holders fit requests for grants. -/
theorem Fits.of_holders (h : Fits gs qs) (hw : gs'.map (·.who) = gs.map (·.who)) (hc : ∀ r ∈ qs, r.clock = false) : Fits gs' qs := by
  refine ⟨hw ▸ h.holders, h.waiters, h.within, fun r hr hf g hg => ?_, fun r hr ht => by simp [hc r hr] at ht⟩
  obtain ⟨x, hx, hwho⟩ := List.mem_map.mp (hw ▸ List.mem_map_of_mem hg : g.who ∈ gs.map (·.who))
  exact hwho ▸ h.fresh r hr hf x hx

/-! ### Clock fractions -/

theorem atFraction_mono (a : Nat) {k l : Nat} (h : k ≤ l) : atFraction a k ≤ atFraction a l := by
  have := Nat.mul_le_mul_left a h
  exact Nat.div_le_div_right (by omega)

/-- The grants with the one of a holder changed. -/
def changeGrant (gs : List Grant) (w : Asker) (h : Grant → Grant) : List Grant := gs.map fun x => if x.who == w then h x else x

theorem changeGrant_holders {w : Asker} {h : Grant → Grant} (hw : ∀ x, (h x).who = x.who) :
    (changeGrant gs w h).map (·.who) = gs.map (·.who) := by
  rw [changeGrant, List.map_map]
  refine List.map_congr_left fun x _ => ?_
  show (if x.who == w then h x else x).who = x.who
  split
  · exact hw x
  · rfl

theorem changeGrant_of_notMem {w : Asker} {h : Grant → Grant} (hw : w ∉ gs.map (·.who)) : changeGrant gs w h = gs := by
  refine (List.map_congr_left fun x hx => ?_).trans (List.map_id gs)
  have hne : x.who ≠ w := fun he => hw (he ▸ List.mem_map_of_mem (f := (·.who)) hx)
  simp [hne]

/-- Where each holder has one grant, changing one changes what it counts and no more. -/
theorem sum_changeGrant {h : Grant → Grant} (hn : (gs.map (·.who)).Nodup) (hg : g ∈ gs) :
    sumGrants (changeGrant gs g.who h) + g.counted = sumGrants gs + (h g).counted := by
  induction gs with
  | nil => simp at hg
  | cons x xs ih =>
    obtain ⟨hx, hxs⟩ := List.nodup_cons.mp hn
    rcases List.mem_cons.mp hg with rfl | hg
    · have := changeGrant_of_notMem (h := h) hx
      simp only [changeGrant, List.map_cons, beq_self_eq_true, if_true, sumGrants_cons] at this ⊢
      rw [this]; omega
    · have hne : x.who ≠ g.who := fun he => hx (List.mem_map.mpr ⟨g, hg, he.symm⟩)
      have := ih hxs hg
      simp only [changeGrant, List.map_cons, beq_eq_false_iff_ne.mpr hne, Bool.false_eq_true, if_false, sumGrants_cons] at this ⊢
      omega

/-! ### Delivery (R65, R66, R80) -/

/-- A step of a clock back up. -/
def Grant.stepUp (g : Grant) : Grant := { g with k := min 16 (g.k + 1) }

theorem receive_cons (gs : List Grant) (q : Req) (rs : List Req) : receive gs (q :: rs) = receive (receive gs [q]) rs := rfl

theorem receive_clock (h : q.clock = true) : receive gs [q] = changeGrant gs q.who Grant.stepUp := by
  simp only [receive, List.foldl_cons, List.foldl_nil, h, if_true]
  rfl

theorem receive_grant (h : q.clock = false) : receive gs [q] = gs ++ [q.toGrant] := by
  simp only [receive, List.foldl_cons, List.foldl_nil, h, Bool.false_eq_true, if_false]

/-- One covered request becomes what it waited for, and all fit. -/
theorem Fits.receive_one (h : Fits gs (q :: qs)) : Fits (receive gs [q]) qs := by
  obtain ⟨hfirst, hrest⟩ := List.nodup_cons.mp h.waiters
  have hne : ∀ r ∈ qs, r.clock = q.clock → r.who ≠ q.who := fun r hr hc hw =>
    hfirst (List.mem_map.mpr ⟨r, hr, by rw [hw, hc]⟩)
  have hfit := h.sublist (List.sublist_cons_self q qs)
  cases hc : q.clock with
  | false =>
    have hnew := h.fresh q List.mem_cons_self hc
    rw [receive_grant hc]
    refine ⟨?_, hrest, hfit.within, fun r hr hf g hg => ?_, fun r hr ht => ?_⟩
    · rw [List.map_append, List.nodup_append]
      refine ⟨h.holders, List.nodup_singleton _, fun x hx y hy => ?_⟩
      obtain ⟨g, hg, rfl⟩ := List.mem_map.mp hx
      rw [List.mem_singleton.mp hy]
      exact hnew g hg
    · rcases List.mem_append.mp hg with hg | hg
      · exact hfit.fresh r hr hf g hg
      · rw [List.mem_singleton.mp hg]
        exact (hne r hr (hf.trans hc.symm)).symm
    · obtain ⟨g, hg, hstep⟩ := hfit.steps r hr ht
      exact ⟨g, List.mem_append_left _ hg, hstep⟩
  | true =>
    rw [receive_clock hc]
    have hholders := changeGrant_holders (gs := gs) (w := q.who) (h := Grant.stepUp) fun _ => rfl
    refine ⟨hholders ▸ h.holders, hrest, hfit.within, fun r hr hf g hg => ?_, fun r hr ht => ?_⟩
    · obtain ⟨x, hx, hwho⟩ := List.mem_map.mp (hholders ▸ List.mem_map_of_mem hg : g.who ∈ gs.map (·.who))
      exact hwho ▸ hfit.fresh r hr hf x hx
    · obtain ⟨g, hg, hwho, hstep⟩ := hfit.steps r hr ht
      refine ⟨g, List.mem_map.mpr ⟨g, hg, ?_⟩, hwho, hstep⟩
      have : g.who ≠ q.who := hwho ▸ hne r hr (ht.trans hc.symm)
      simp [this]

/-- A covered request draws as a grant, or as a sixteenth of one, what it drew in the queue. -/
theorem Fits.sum_receive_one (h : Fits gs (q :: qs)) (hq : q.covered = true) :
    sumGrants (receive gs [q]) = sumGrants gs + min q.amount (q.handed + q.ramped) := by
  cases hc : q.clock with
  | false =>
    rw [receive_grant hc, sumGrants_append, sumGrants_cons, counted_toGrant hq]
    rfl
  | true =>
    obtain ⟨g, hg, hwho, hk, hamount⟩ := h.steps q List.mem_cons_self hc
    have hsum := sum_changeGrant (h := Grant.stepUp) h.holders hg
    have hup : g.stepUp.counted = atFraction g.amount (g.k + 1) := by
      rw [Grant.counted, Grant.stepUp, min_eq_right (by omega : g.k + 1 ≤ 16)]
    have hmono : g.counted ≤ atFraction g.amount (g.k + 1) := atFraction_mono _ (Nat.le_succ _)
    simp only [Req.covered, decide_eq_true_eq] at hq
    rw [receive_clock hc, ← hwho]
    omega

/-- Delivery keeps the fit, and what grants and queue draw together. -/
theorem Fits.delivered (h : Fits gs qs) : Fits (receive gs (deliver qs).2) (deliver qs).1 ∧
    sumGrants (receive gs (deliver qs).2) + sumReqs (deliver qs).1 = sumGrants gs + sumReqs qs := by
  induction qs generalizing gs with
  | nil => exact ⟨h, rfl⟩
  | cons q qs ih =>
    unfold deliver
    split
    · next hq =>
      obtain ⟨hfit, hsum⟩ := ih h.receive_one
      have hone := h.sum_receive_one hq
      dsimp only
      rw [receive_cons, sumReqs_cons]
      exact ⟨hfit, by omega⟩
    · exact ⟨h, rfl⟩

/-! ### Handover and ramps (R65, R66) -/

theorem handOver_keys (qs : List Req) (n : Nat) : (handOver n qs).1.map Req.key = qs.map Req.key := by
  induction qs generalizing n with
  | nil => rfl
  | cons q qs ih =>
    unfold handOver
    dsimp only
    split
    · rfl
    · exact congrArg (q.key :: ·) (ih _)

theorem handOver_within (n : Nat) (h : ∀ r ∈ qs, r.handed + r.ramped ≤ r.amount) :
    ∀ r ∈ (handOver n qs).1, r.handed + r.ramped ≤ r.amount := by
  induction qs generalizing n with
  | nil => exact h
  | cons q qs ih =>
    obtain ⟨hq, hqs⟩ := List.forall_mem_cons.mp h
    unfold handOver
    dsimp only
    split
    · next hn =>
      simp only [Req.need] at hn
      exact List.forall_mem_cons.mpr ⟨by dsimp only; omega, hqs⟩
    · exact List.forall_mem_cons.mpr ⟨by simp only [Req.need]; omega, ih _ hqs⟩

theorem Fits.handedOver (h : Fits gs qs) (n : Nat) : Fits gs (handOver n qs).1 :=
  h.same_keys (handOver_keys qs n) (handOver_within n h.within)

/-- Handover and the delivery of what it covers keep the fit, and give the desk what they take (R66). -/
theorem Fits.passOn (h : Fits gs qs) (n : Nat) :
    Fits (receive gs (deliver (handOver n qs).1).2) (deliver (handOver n qs).1).1 ∧
    sumGrants (receive gs (deliver (handOver n qs).1).2) + sumReqs (deliver (handOver n qs).1).1 +
      (handOver n qs).2 = sumGrants gs + sumReqs qs + n := by
  obtain ⟨hfit, hsum⟩ := (h.handedOver n).delivered
  have := sum_handOver qs n
  exact ⟨hfit, by omega⟩

theorem rampQueue_keys (qs : List Req) (room cap : Nat) : (rampQueue room cap qs).map Req.key = qs.map Req.key := by
  induction qs generalizing room cap with
  | nil => rfl
  | cons q qs ih =>
    unfold rampQueue
    dsimp only
    split
    · rfl
    · split
      · exact congrArg (q.key :: ·) (ih _ _)
      · rfl

theorem rampQueue_within (room cap : Nat) (h : ∀ r ∈ qs, r.handed + r.ramped ≤ r.amount) :
    ∀ r ∈ rampQueue room cap qs, r.handed + r.ramped ≤ r.amount := by
  induction qs generalizing room cap with
  | nil => exact h
  | cons q qs ih =>
    obtain ⟨hq, hqs⟩ := List.forall_mem_cons.mp h
    have hq' : q.handed + (q.ramped + min room q.need) ≤ q.amount := by simp only [Req.need]; omega
    unfold rampQueue
    dsimp only
    split
    · exact h
    · split
      · exact List.forall_mem_cons.mpr ⟨hq', ih _ _ hqs⟩
      · exact List.forall_mem_cons.mpr ⟨hq', hqs⟩

theorem Fits.ramped (h : Fits gs qs) (room cap : Nat) : Fits gs (rampQueue room cap qs) :=
  h.same_keys (rampQueue_keys qs room cap) (rampQueue_within room cap h.within)

/-- A ramp adds to what the queue draws, and no more than its room (R63, R65). -/
theorem sum_rampQueue (qs : List Req) (room cap : Nat) :
    sumReqs qs ≤ sumReqs (rampQueue room cap qs) ∧ sumReqs (rampQueue room cap qs) ≤ sumReqs qs + room := by
  induction qs generalizing room cap with
  | nil => exact ⟨le_rfl, Nat.zero_le _⟩
  | cons q qs ih =>
    have := ih (room - min room q.need) (cap - min room q.need)
    unfold rampQueue
    dsimp only
    split
    · exact ⟨le_rfl, Nat.le_add_right _ _⟩
    · split
      · simp only [sumReqs_cons]; omega
      · simp only [sumReqs_cons]; omega

/-! ### Joining the queue (R70) -/

theorem enter_perm (r : Req) (qs : List Req) : (enter r qs).Perm (r :: qs) := by
  induction qs with
  | nil => exact .refl _
  | cons q qs ih =>
    unfold enter
    split
    · exact .refl _
    · exact (ih.cons q).trans (.swap r q qs)

theorem takeRamp_keys (qs : List Req) : (takeRamp qs).map Req.key = qs.map Req.key := by
  unfold takeRamp
  split <;> rfl

theorem takeRamp_within (h : ∀ r ∈ qs, r.handed + r.ramped ≤ r.amount) : ∀ r ∈ takeRamp qs, r.handed + r.ramped ≤ r.amount := by
  unfold takeRamp
  split
  · simp only [List.forall_mem_cons] at h ⊢
    obtain ⟨hr, hq, hqs⟩ := h
    exact ⟨by simp only [Req.need]; omega, by omega, hqs⟩
  · exact h

/-- A request that fits with the queue fits in its place there. -/
theorem Fits.enqueued (h : Fits gs (r :: qs)) : Fits gs (enqueue r qs) := by
  have henter : Fits gs (enter r qs) := h.perm (enter_perm r qs)
  exact henter.same_keys (takeRamp_keys _) (takeRamp_within henter.within)

/-! ### Clocks step down and back up (R80) -/

theorem mem_nextDown (h : nextDown gs = some g) : g ∈ gs := by
  induction gs with
  | nil => simp [nextDown] at h
  | cons x xs ih =>
    unfold nextDown at h
    split at h
    · next y hy =>
      split at h
      · exact Option.some.inj h ▸ List.mem_cons_self
      · exact List.mem_cons_of_mem _ (ih (hy.trans h))
    · split at h
      · exact Option.some.inj h ▸ List.mem_cons_self
      · cases h

/-- Stepping down keeps the holders; what the grants lose falls, within the room, or still tapers. -/
theorem stepDown_draw (n room excess : Nat) (hn : (gs.map (·.who)).Nodup) :
    (stepDown n room excess gs).1.map (·.who) = gs.map (·.who) ∧
    sumGrants (stepDown n room excess gs).1 + (stepDown n room excess gs).2.1 + (stepDown n room excess gs).2.2.1 = sumGrants gs ∧
    (stepDown n room excess gs).2.2.1 ≤ room := by
  induction n generalizing room excess gs with
  | zero => exact ⟨rfl, rfl, Nat.zero_le _⟩
  | succ n ih =>
    unfold stepDown
    split
    · exact ⟨rfl, rfl, Nat.zero_le _⟩
    · split
      · exact ⟨rfl, rfl, Nat.zero_le _⟩
      · next g hg =>
        have hholders := changeGrant_holders (gs := gs) (w := g.who) (h := fun x => { x with k := x.k - 1 }) fun _ => rfl
        have hsum := sum_changeGrant (h := fun x => { x with k := x.k - 1 }) hn (mem_nextDown hg)
        have hmono : atFraction g.amount (g.k - 1) ≤ g.counted := atFraction_mono _ (Nat.sub_le _ _)
        obtain ⟨hkeep, hdraw, hroom⟩ := ih (room - min room (g.counted - atFraction g.amount (g.k - 1)))
          (excess - (g.counted - atFraction g.amount (g.k - 1))) (hholders ▸ hn)
        refine ⟨hkeep.trans hholders, ?_, ?_⟩
        · simp only [changeGrant, Grant.counted] at hsum hdraw hmono ⊢
          omega
        · simp only [changeGrant] at hroom ⊢
          omega

/-- A clock's sixteenth that costs nothing is stepped at once. -/
theorem Fits.step_free {pre : List Grant} (h : Fits (pre ++ g :: gs) qs) (hq : (qs.any fun q => q.clock && q.who == g.who) = false) :
    Fits (pre ++ { g with k := g.k + 1 } :: gs) qs := by
  have hholders : (pre ++ { g with k := g.k + 1 } :: gs).map (·.who) = (pre ++ g :: gs).map (·.who) := by simp
  refine ⟨hholders ▸ h.holders, h.waiters, h.within, fun r hr hf x hx => ?_, fun r hr ht => ?_⟩
  · obtain ⟨y, hy, hwho⟩ := List.mem_map.mp (hholders ▸ List.mem_map_of_mem hx : x.who ∈ (pre ++ g :: gs).map (·.who))
    exact hwho ▸ h.fresh r hr hf y hy
  · obtain ⟨x, hx, hwho, hstep⟩ := h.steps r hr ht
    have hne : x ≠ g := by
      rintro rfl
      simpa [ht, hwho] using List.any_eq_false.mp hq r hr
    refine ⟨x, ?_, hwho, hstep⟩
    simp only [List.mem_append, List.mem_cons, hne, false_or] at hx ⊢
    tauto

/-- The request for a clock's next sixteenth. -/
def Grant.stepReq (g : Grant) (now : Nat) : Req :=
  ⟨g.who, g.cls, g.camp, atFraction g.amount (g.k + 1) - g.counted, 0, 0, now, 0, false, false, true⟩

/-- A grant below full rate with no step under way may ask for its next sixteenth. -/
theorem Fits.step_asked (h : Fits gs qs) (hg : g ∈ gs) (hk : g.k < 16) (hq : (qs.any fun q => q.clock && q.who == g.who) = false)
    (now : Nat) : Fits gs (g.stepReq now :: qs) := by
  refine ⟨h.holders, ?_, ?_, ?_, ?_⟩
  · refine List.nodup_cons.mpr ⟨fun hmem => ?_, h.waiters⟩
    obtain ⟨r, hr, he⟩ := List.mem_map.mp hmem
    obtain ⟨hwho, hclock⟩ := Prod.mk.inj he
    have hwho : r.who = g.who := hwho
    have hclock : r.clock = true := hclock
    simpa [hwho, hclock] using List.any_eq_false.mp hq r hr
  · exact List.forall_mem_cons.mpr ⟨Nat.zero_le _, h.within⟩
  · exact List.forall_mem_cons.mpr ⟨fun hc => absurd hc Bool.true_eq_false.mp, h.fresh⟩
  · exact List.forall_mem_cons.mpr ⟨fun _ => ⟨g, hg, rfl, hk, rfl⟩, h.steps⟩

/-- Clocks that step up, or ask to, keep the fit and what the desk draws. -/
theorem Fits.stepped_up {pre : List Grant} (h : Fits (pre ++ gs) qs) (now room : Nat) :
    Fits (pre ++ (stepUp now room gs qs).1) (stepUp now room gs qs).2.1 ∧
    sumGrants (stepUp now room gs qs).1 + sumReqs (stepUp now room gs qs).2.1 = sumGrants gs + sumReqs qs := by
  induction gs generalizing pre room qs with
  | nil => exact ⟨h, rfl⟩
  | cons g gs ih =>
    have hsplit : ∀ x : Grant, ∀ xs, (pre ++ [x]) ++ xs = pre ++ x :: xs := fun x xs => by simp
    unfold stepUp
    dsimp only
    split
    · obtain ⟨hfit, hsum⟩ := ih (pre := pre ++ [g]) (hsplit g gs ▸ h) room
      rw [hsplit] at hfit
      exact ⟨hfit, by simp only [sumGrants_cons]; omega⟩
    · next hgo =>
      simp only [not_or, not_le, Bool.not_eq_true, not_lt] at hgo
      obtain ⟨hk, hq, -⟩ := hgo
      split
      · next hinc =>
        obtain ⟨hfit, hsum⟩ := ih (pre := pre ++ [{ g with k := g.k + 1 }]) (hsplit _ gs ▸ h.step_free hq) room
        have hmono : g.counted ≤ atFraction g.amount (g.k + 1) := atFraction_mono _ (Nat.le_succ _)
        have hsame : Grant.counted { g with k := g.k + 1 } = g.counted := le_antisymm (Nat.sub_eq_zero_iff_le.mp hinc) hmono
        rw [hsplit] at hfit
        exact ⟨hfit, by simp only [sumGrants_cons, hsame]; omega⟩
      · have hask := h.step_asked (List.mem_append_right pre List.mem_cons_self) hk hq now
        obtain ⟨hfit, hsum⟩ := ih (pre := pre ++ [g]) (hsplit g gs ▸ hask.enqueued) (room - (atFraction g.amount (g.k + 1) - g.counted))
        have henq := sum_enqueue hask.within
        rw [hsplit] at hfit
        refine ⟨hfit, ?_⟩
        simp only [Grant.stepReq, sumGrants_cons, Nat.zero_add, Nat.add_zero, Nat.min_zero] at hsum henq ⊢
        omega

/-! ### Requests leave the queue (R74, R80) -/

theorem sum_filter (p : Req → Bool) (qs : List Req) : sumReqs (qs.filter fun q => !p q) + sumReqs (qs.filter p) = sumReqs qs := by
  induction qs with
  | nil => rfl
  | cons q qs ih => cases hp : p q <;> simp [hp] <;> omega

end Sys2Proof.Machine
end

section
/-! PROOFS. One desk moves for a microsecond (R63, R65 to R67, R80): it stays sound, and its level stays within its slew. -/
namespace Sys2Proof.Machine

variable {d : Desk} {eff testing now maxUp maxDown room : Nat} {held : Bool}

/-! ### The parts of a move -/

/-- A desk hands its taper to its queue and delivers what that covers (R66). -/
def Desk.passTaper (d : Desk) : Desk :=
  { d with queue := (deliver (handOver d.taper d.queue).1).1
           grants := receive d.grants (deliver (handOver d.taper d.queue).1).2
           taper := (handOver d.taper d.queue).2 }

theorem Desk.passTaper_sound (h : d.sound) : d.passTaper.sound :=
  (Desk.sound_iff_fits _).mpr (((Desk.sound_iff_fits d).mp h).passOn d.taper).1

theorem Desk.passTaper_level (h : d.sound) : d.passTaper.level = d.level := by
  have := (((Desk.sound_iff_fits d).mp h).passOn d.taper).2
  simp only [Desk.level, Desk.passTaper]
  omega

theorem Desk.dropClocks_sound (h : d.sound) : d.dropClocks.sound :=
  (Desk.sound_iff_fits _).mpr (((Desk.sound_iff_fits d).mp h).sublist List.filter_sublist)

theorem Desk.dropClocks_level (d : Desk) : d.dropClocks.level = d.level := by
  have := sum_filter (·.clock) d.queue
  have hsum : sumOf ((d.queue.filter (·.clock)).map fun q => min q.amount (q.handed + q.ramped)) = sumReqs (d.queue.filter (·.clock)) := rfl
  simp only [Desk.level, Desk.dropClocks, hsum]
  omega

theorem Desk.fall_sound (h : d.sound) : (d.fall testing room).1.sound := by
  rw [Desk.sound_iff_fits] at h ⊢
  exact h

/-- What falls is taken from the room (R63). -/
theorem Desk.fall_level (d : Desk) (testing room : Nat) :
    (d.fall testing room).1.level + room = d.level + (d.fall testing room).2 ∧ (d.fall testing room).2 ≤ room := by
  simp only [Desk.fall, Desk.level]
  split <;> omega

/-- An OVER desk steps its clocks down, within what its fall has left of the room (R80). -/
def Desk.slowClocks (d : Desk) (room eff : Nat) : Desk :=
  if d.level ≤ eff then d
  else { d with grants := (stepDown (16 * d.grants.length) room (d.level - eff) d.grants).1
                taper := d.taper + (stepDown (16 * d.grants.length) room (d.level - eff) d.grants).2.1 }

theorem Desk.slowClocks_sound (h : d.sound) (hc : ∀ r ∈ d.queue, r.clock = false) : (d.slowClocks room eff).sound := by
  unfold Desk.slowClocks
  split
  · exact h
  · exact (Desk.sound_iff_fits _).mpr (((Desk.sound_iff_fits d).mp h).of_holders (stepDown_draw _ _ _ h.holders).1 hc)

theorem Desk.slowClocks_level (h : d.sound) :
    (d.slowClocks room eff).level ≤ d.level ∧ d.level ≤ (d.slowClocks room eff).level + room := by
  unfold Desk.slowClocks
  split
  · exact ⟨le_rfl, Nat.le_add_right _ _⟩
  · obtain ⟨-, hdraw, hroom⟩ := stepDown_draw (16 * d.grants.length) room (d.level - eff) h.holders
    simp only [Desk.level] at hdraw hroom ⊢
    omega

/-- An undervoltage holds the ramp at the head of the queue: the time that it is held is counted (R504). -/
def holdHead : List Req → List Req
  | [] => []
  | q :: qs => (if q.ramped = 0 then q else { q with heldUs := q.heldUs + 1 }) :: qs

theorem holdHead_share (qs : List Req) : (holdHead qs).map Req.share = qs.map Req.share := by
  cases qs with
  | nil => rfl
  | cons q qs =>
    simp only [holdHead]
    split <;> rfl

/-- Clocks step back up and the queue ramps (R65, R80). -/
def Desk.rampUp (d : Desk) (eff now up : Nat) : Desk :=
  let s := stepUp now (eff - d.level) d.grants d.queue
  let z := deliver (rampQueue up (eff - d.level) s.2.1)
  { d with grants := receive s.1 z.2, queue := z.1 }

theorem Desk.rampUp_slew (h : d.sound) (eff now up : Nat) : (d.rampUp eff now up).sound ∧
    d.level ≤ (d.rampUp eff now up).level ∧ (d.rampUp eff now up).level ≤ d.level + up := by
  have hstart : Fits ([] ++ d.grants) d.queue := (Desk.sound_iff_fits d).mp h
  obtain ⟨hstep, hsum⟩ := hstart.stepped_up now (eff - d.level)
  obtain ⟨hfit, hdraw⟩ := (hstep.ramped up (eff - d.level)).delivered
  have hramp := sum_rampQueue (stepUp now (eff - d.level) d.grants d.queue).2.1 up (eff - d.level)
  refine ⟨(Desk.sound_iff_fits _).mpr hfit, ?_⟩
  simp only [Desk.level, Desk.rampUp, List.nil_append] at hdraw hramp hsum ⊢
  omega

/-- The field test raises its draw where nobody waits (R522). -/
def Desk.riseTest (d : Desk) (eff testing room : Nat) : Desk :=
  { d with test := d.test + if d.queue.isEmpty then min room (min (d.testRise testing) (eff - d.level)) else 0 }

theorem Desk.riseTest_sound (h : d.sound) (eff testing room : Nat) : (d.riseTest eff testing room).sound := by
  rw [Desk.sound_iff_fits] at h ⊢
  exact h

theorem Desk.riseTest_level (d : Desk) (eff testing room : Nat) :
    d.level ≤ (d.riseTest eff testing room).level ∧ (d.riseTest eff testing room).level ≤ d.level + room := by
  unfold Desk.riseTest
  split <;> simp only [Desk.level] <;> omega

/-- Clocks, queue and field test rise within one up slew (R63, R65, R80, R522). -/
def Desk.rise (d : Desk) (eff testing now up : Nat) : Desk :=
  (d.rampUp eff now up).riseTest eff testing (up - ((d.rampUp eff now up).level - d.level))

theorem Desk.rise_slew (h : d.sound) (eff testing now up : Nat) : (d.rise eff testing now up).sound ∧
    d.level ≤ (d.rise eff testing now up).level ∧ (d.rise eff testing now up).level ≤ d.level + up := by
  obtain ⟨hfit, hlow, hhigh⟩ := Desk.rampUp_slew h eff now up
  have := (d.rampUp eff now up).riseTest_level eff testing (up - ((d.rampUp eff now up).level - d.level))
  exact ⟨Desk.riseTest_sound hfit _ _ _, this.1.trans' hlow, by unfold Desk.rise; omega⟩

/-! ### The move -/

/-- What a desk may fall in the move. -/
def Desk.moveRoom (d : Desk) (held : Bool) (maxDown : Nat) : Nat := min (if held then 1 else d.downSlew) maxDown

theorem Desk.move_over (h : eff < d.level) : (d.move eff held testing now maxUp maxDown).1 =
    (d.dropClocks.fall testing (d.moveRoom held maxDown)).1.slowClocks (d.dropClocks.fall testing (d.moveRoom held maxDown)).2 eff := by
  simp only [Desk.move, h, if_true, Desk.slowClocks, Desk.moveRoom]
  exact apply_ite Prod.fst _ _ _

theorem Desk.move_held (h : ¬ eff < d.level) : (d.move eff true testing now maxUp maxDown).1 =
    { (d.passTaper.fall testing (d.moveRoom true maxDown)).1 with queue := holdHead d.passTaper.queue } := by
  simp only [Desk.move, h, if_false, if_true]
  rfl

theorem Desk.move_up (h : ¬ eff < d.level) : (d.move eff false testing now maxUp maxDown).1 =
    (d.passTaper.fall testing (d.moveRoom false maxDown)).1.rise eff testing now (min d.upSlew maxUp) := by
  simp only [Desk.move, h, if_false]
  rfl

/-- A sound desk moves to a sound desk, and its level moves within its slew and within what the wafer leaves it (R63). -/
theorem Desk.move_slew (h : d.sound) (eff : Nat) (held : Bool) (testing now maxUp maxDown : Nat) :
    let x := (d.move eff held testing now maxUp maxDown).1
    x.sound ∧ x.level ≤ d.level + min d.upSlew maxUp ∧ d.level ≤ x.level + min d.downSlew maxDown := by
  have hroom : d.moveRoom held maxDown ≤ min d.downSlew maxDown := by
    unfold Desk.moveRoom Desk.downSlew
    split <;> omega
  by_cases ho : eff < d.level
  · have hfall := d.dropClocks.fall_level testing (d.moveRoom held maxDown)
    have hsound := Desk.fall_sound (testing := testing) (room := d.moveRoom held maxDown) (Desk.dropClocks_sound h)
    have hslow := Desk.slowClocks_level (room := (d.dropClocks.fall testing (d.moveRoom held maxDown)).2) (eff := eff) hsound
    have hdrop := d.dropClocks_level
    rw [Desk.move_over ho]
    exact ⟨Desk.slowClocks_sound hsound fun r hr => by simpa using (List.mem_filter.mp hr).2, by omega, by omega⟩
  · have hpass := Desk.passTaper_level h
    have hfall := d.passTaper.fall_level testing (d.moveRoom held maxDown)
    have hsound := Desk.fall_sound (testing := testing) (room := d.moveRoom held maxDown) (Desk.passTaper_sound h)
    cases held with
    | true =>
      have hlevel : (d.move eff true testing now maxUp maxDown).1.level = (d.passTaper.fall testing (d.moveRoom true maxDown)).1.level := by
        rw [Desk.move_held ho]
        simp only [Desk.level, sumReqs_same_share (holdHead_share _)]
        rfl
      refine ⟨?_, by omega, by omega⟩
      rw [Desk.move_held ho, Desk.sound_iff_fits]
      exact ((Desk.sound_iff_fits _).mp hsound).same_share (holdHead_share _)
    | false =>
      obtain ⟨hfit, hlow, hhigh⟩ := Desk.rise_slew hsound eff testing now (min d.upSlew maxUp)
      rw [Desk.move_up ho]
      exact ⟨hfit, by omega, by omega⟩

end Sys2Proof.Machine
end

section
/-! PROOFS. The tick of the desks (R50, R63, R64): every desk within its slew, the wafer within 122 rations, the time that passes. -/
namespace Sys2Proof.Machine

variable {b b' : Block} {f g rise fall : Nat} {fs : List Nat}

/-! ### Every desk in turn (R63) -/

/-- The move of one desk within what is left of the wafer's net change. -/
def Block.movedDesk (b : Block) (rise fall f : Nat) : Desk :=
  ((b.desk f).move (b.effCeiling f) b.modu.underVolt b.rat.testing b.fab.time (122 + fall - rise) (122 + rise - fall)).1

/-- The block after one desk has moved. -/
def Block.moveDesk (b : Block) (rise fall f : Nat) : Block :=
  let r := (b.desk f).move (b.effCeiling f) b.modu.underVolt b.rat.testing b.fab.time (122 + fall - rise) (122 + rise - fall)
  ((b.setDesk f r.1).count F.rmThrottleSteps r.2.2).delivered f r.2.1

theorem moveDesks_cons (b : Block) (rise fall f : Nat) (fs : List Nat) : b.moveDesks rise fall (f :: fs) =
    (b.moveDesk rise fall f).moveDesks (rise + ((b.movedDesk rise fall f).level - (b.desk f).level))
      (fall + ((b.desk f).level - (b.movedDesk rise fall f).level)) fs := rfl

theorem moveDesk_desk_self (b : Block) (rise fall f : Nat) : (b.moveDesk rise fall f).desk f = b.movedDesk rise fall f := by
  rw [Block.moveDesk, delivered_desk]
  exact desk_setDesk_self b f _

theorem moveDesk_desk_ne (h : g ≠ f) : (b.moveDesk rise fall f).desk g = b.desk g := by
  rw [Block.moveDesk, delivered_desk]
  exact desk_setDesk_ne b _ h

theorem movedDesk_slew (h : (b.desk f).sound) (rise fall : Nat) : (b.movedDesk rise fall f).sound ∧
    (b.movedDesk rise fall f).level ≤ (b.desk f).level + min (b.desk f).upSlew (122 + fall - rise) ∧
    (b.desk f).level ≤ (b.movedDesk rise fall f).level + min (b.desk f).downSlew (122 + rise - fall) :=
  Desk.move_slew h _ _ _ _ _ _

theorem delivered_fab (f : Nat) (rs : List Req) (b : Block) : (b.delivered f rs).fab = b.fab := by
  obtain ⟨_, _, _, e⟩ := delivered_frame f rs b
  rw [e]

theorem moveDesks_fab (rise fall : Nat) (fs : List Nat) (b : Block) : (b.moveDesks rise fall fs).fab = b.fab := by
  induction fs generalizing b rise fall with
  | nil => rfl
  | cons f fs ih => rw [moveDesks_cons, ih, Block.moveDesk, delivered_fab]; rfl

theorem moveDesks_desk_notMem (h : g ∉ fs) : (b.moveDesks rise fall fs).desk g = b.desk g := by
  induction fs generalizing b rise fall with
  | nil => rfl
  | cons f fs ih =>
    simp only [List.mem_cons, not_or] at h
    obtain ⟨hne, hfs⟩ := h
    rw [moveDesks_cons, ih hfs, moveDesk_desk_ne hne]

/-- Each desk of the turn moves from where it stood, within its slew (R63). -/
theorem moveDesks_slew (hn : fs.Nodup) (h : ∀ f ∈ fs, (b.desk f).sound) (hf : f ∈ fs) :
    ((b.moveDesks rise fall fs).desk f).sound ∧
    ((b.moveDesks rise fall fs).desk f).level ≤ (b.desk f).level + (b.desk f).upSlew ∧
    (b.desk f).level ≤ ((b.moveDesks rise fall fs).desk f).level + (b.desk f).downSlew := by
  induction fs generalizing b rise fall with
  | nil => cases hf
  | cons g fs ih =>
    obtain ⟨hg, hfs⟩ := List.nodup_cons.mp hn
    obtain ⟨hsound, hrest⟩ := List.forall_mem_cons.mp h
    rw [moveDesks_cons]
    rcases List.mem_cons.mp hf with rfl | hf
    · rw [moveDesks_desk_notMem hg, moveDesk_desk_self]
      obtain ⟨hmoved, hup, hdown⟩ := movedDesk_slew hsound rise fall
      exact ⟨hmoved, by omega, by omega⟩
    · have hdesk : ∀ x ∈ fs, (b.moveDesk rise fall g).desk x = b.desk x := fun x hx =>
        moveDesk_desk_ne (ne_of_mem_of_not_mem hx hg)
      rw [← hdesk f hf]
      exact ih hfs (fun x hx => hdesk x hx ▸ hrest x hx) hf

/-- The summed level of some desks. -/
def Block.levels (b : Block) (fs : List Nat) : Nat := (fs.map fun f => (b.desk f).level).sum

theorem levels_cons (b : Block) (f : Nat) (fs : List Nat) : b.levels (f :: fs) = (b.desk f).level + b.levels fs := rfl

theorem levels_congr (h : ∀ f ∈ fs, (b'.desk f).level = (b.desk f).level) : b'.levels fs = b.levels fs := by
  rw [Block.levels, Block.levels, List.map_congr_left h]

theorem waferLevel_eq (b : Block) : b.waferLevel = b.levels (List.range 96) := by
  rw [Block.waferLevel, foldl_add, Nat.zero_add, Block.levels]

/-- With what the desks before have risen and fallen within 122 rations of each other, the desks of the turn keep it so (R63). -/
theorem moveDesks_net (hn : fs.Nodup) (h : ∀ f ∈ fs, (b.desk f).sound) (hr : rise ≤ fall + 122) (hf : fall ≤ rise + 122) :
    (b.moveDesks rise fall fs).levels fs + rise ≤ b.levels fs + fall + 122 ∧
    b.levels fs + fall ≤ (b.moveDesks rise fall fs).levels fs + rise + 122 := by
  induction fs generalizing b rise fall with
  | nil => exact ⟨by simp [Block.levels]; omega, by simp [Block.levels]; omega⟩
  | cons g fs ih =>
    obtain ⟨hg, hfs⟩ := List.nodup_cons.mp hn
    obtain ⟨hsound, hrest⟩ := List.forall_mem_cons.mp h
    obtain ⟨-, hup, hdown⟩ := movedDesk_slew hsound rise fall
    have hdesk : ∀ x ∈ fs, (b.moveDesk rise fall g).desk x = b.desk x := fun x hx =>
      moveDesk_desk_ne (ne_of_mem_of_not_mem hx hg)
    have hnet := ih (b := b.moveDesk rise fall g) (rise := rise + ((b.movedDesk rise fall g).level - (b.desk g).level))
      (fall := fall + ((b.desk g).level - (b.movedDesk rise fall g).level)) hfs (fun x hx => hdesk x hx ▸ hrest x hx) (by omega) (by omega)
    rw [levels_congr fun x hx => congrArg Desk.level (hdesk x hx)] at hnet
    rw [moveDesks_cons, levels_cons, levels_cons, moveDesks_desk_notMem hg, moveDesk_desk_self]
    omega

/-! ### What else the tick does leaves the draw -/

/-- A desk without its loan slots: all that its level and its soundness speak of. -/
def Desk.draw (d : Desk) : Desk := { d with up := [], down := [], matchUp := [], matchDown := [] }

theorem Desk.level_of_draw {d d' : Desk} (h : d'.draw = d.draw) : d'.level = d.level := by
  show d'.draw.level = d.draw.level
  rw [h]

theorem Desk.sound_of_draw {d d' : Desk} (h : d'.draw = d.draw) (hd : d.sound) : d'.sound := by
  have hfits : Fits d.draw.grants d.draw.queue := (Desk.sound_iff_fits d).mp hd
  rw [← h] at hfits
  exact (Desk.sound_iff_fits d').mpr hfits

/-- A part of the block, as a function of it, is as it was. -/
def Same {α : Type} (p : Block → α) (b b' : Block) : Prop := p b' = p b

section Same
variable {α β : Type} {p : Block → α}

theorem Same.refl (b : Block) : Same p b b := rfl

theorem Same.trans {b b' b'' : Block} (h : Same p b b') (h' : Same p b' b'') : Same p b b'' := Eq.trans h' h

theorem Same.ite {b x y : Block} {c : Prop} [Decidable c] (hx : Same p b x) (hy : Same p b y) : Same p b (if c then x else y) := by
  split
  · exact hx
  · exact hy

theorem Same.foldl {g : Block → β → Block} (h : ∀ b a, Same p b (g b a)) (as : List β) (b : Block) : Same p b (as.foldl g b) := by
  induction as generalizing b with
  | nil => exact .refl b
  | cons a as ih => exact (h b a).trans (ih _)

end Same

/-- The time and the desks with their slots. -/
def Block.rations (b : Block) : Nat × Sparse Desk := (b.fab.time, b.rat.desks)

/-- The time and what each desk draws. -/
def Block.draws (b : Block) : Nat × (Nat → Desk) := (b.fab.time, fun f => (b.desk f).draw)

theorem Same.rations_desk (h : Same Block.rations b b') (f : Nat) : b'.desk f = b.desk f :=
  congrArg (fun x : Nat × Sparse Desk => sget (fun _ => Desk.init) x.2 f) h

theorem Same.rations_draws (h : Same Block.rations b b') : Same Block.draws b b' :=
  congrArg (fun x : Nat × Sparse Desk => (x.1, fun f => (sget (fun _ => Desk.init) x.2 f).draw)) h

theorem Same.draws_time (h : Same Block.draws b b') : b'.fab.time = b.fab.time := congrArg Prod.fst h

theorem Same.draws_desk (h : Same Block.draws b b') (f : Nat) : (b'.desk f).draw = (b.desk f).draw := congrFun (congrArg Prod.snd h) f

theorem sameRations_count (b : Block) (f : Fld) (n : Nat) : Same Block.rations b (b.count f n) := rfl
theorem sameRations_peak (b : Block) (f : Fld) (v : Nat) : Same Block.rations b (b.peak f v) := rfl
theorem sameRations_send (b : Block) (o : Out) : Same Block.rations b (b.send o) := rfl
theorem sameRations_raise (b : Block) (code source camp payload : Nat) : Same Block.rations b (b.raise code source camp payload) := rfl

/-! ### Loans, plans and the field test leave what the desks draw (R64, R78, R522) -/

theorem sameDraws_setDesk {d : Desk} (h : d.draw = (b.desk f).draw) : Same Block.draws b (b.setDesk f d) :=
  Prod.ext rfl <| funext fun g => by
    show ((b.setDesk f d).desk g).draw = (b.desk g).draw
    rw [desk_setDesk]
    split
    · next e => exact e ▸ h
    · rfl

theorem sameDraws_lendUp (expiry free : Nat) (fs : List Nat) (b : Block) : Same Block.draws b (b.lendUp expiry free fs) := by
  induction fs generalizing b free with
  | nil => exact .refl b
  | cons f fs ih =>
    unfold Block.lendUp
    refine .ite (.trans ?_ (ih ..)) (ih free b)
    exact (sameDraws_setDesk (f := f) (d := { b.desk f with up := (b.desk f).up ++ [expiry] }) rfl).trans rfl

theorem sameDraws_lendDown (expiry free : Nat) (fs : List Nat) (b : Block) : Same Block.draws b (b.lendDown expiry free fs) := by
  induction fs generalizing b free with
  | nil => exact .refl b
  | cons f fs ih =>
    unfold Block.lendDown
    refine .ite (.trans ?_ (ih ..)) (ih free b)
    exact (sameDraws_setDesk (f := f) (d := { b.desk f with down := (b.desk f).down ++ [expiry] }) rfl).trans rfl

theorem sameDraws_lendMatched (expiry : Nat) (ps : List (Nat × Nat)) (b : Block) : Same Block.draws b (b.lendMatched expiry ps) := by
  induction ps generalizing b with
  | nil => exact .refl b
  | cons p ps ih =>
    unfold Block.lendMatched
    refine .ite (ih b) ?_
    refine .trans ?_ (ih _)
    refine .trans ?_ (sameRations_count ..).rations_draws
    refine .trans ?_ (sameDraws_setDesk rfl)
    exact sameDraws_setDesk rfl

theorem sameDraws_lend (b : Block) : Same Block.draws b b.lend := by
  unfold Block.lend
  refine .ite (.refl b) (.ite (.trans ?_ (sameDraws_lendMatched ..)) ?_)
  · exact (sameDraws_lendUp ..).trans (sameDraws_lendDown ..)
  · exact (sameDraws_lendUp ..).trans (sameDraws_lendDown ..)

theorem sameDraws_settle (ps : List (Nat × Nat)) (b : Block) : Same Block.draws b (b.settle ps) := by
  induction ps generalizing b with
  | nil => exact .refl b
  | cons p ps ih =>
    unfold Block.settle
    refine .ite (ih b) (.trans ?_ (ih _))
    exact .trans rfl (sameRations_raise ..).rations_draws

theorem sameDraws_testTurns (b : Block) : Same Block.draws b b.testTurns := rfl

theorem sameDraws_slewPeaks (b : Block) (before : Nat) : Same Block.draws b (b.slewPeaks before) :=
  .trans (sameRations_peak ..).rations_draws (sameRations_peak ..).rations_draws

/-! ### The mesh and the clock (R41 to R43, R50) -/

theorem sameRations_captureEntry (b : Block) (site kind cls port header payload : Nat) (room : Bool) :
    Same Block.rations b (b.captureEntry site kind cls port header payload room) := by
  unfold Block.captureEntry
  split
  · split <;> exact rfl
  · exact .refl b

theorem sameRations_discardPacket (b : Block) (site h : Nat) : Same Block.rations b (b.discardPacket site h) := by
  unfold Block.discardPacket
  dsimp only
  split
  · exact sameRations_count ..
  · exact sameRations_count ..
  · exact sameRations_count ..
  · exact sameRations_count ..
  · exact .refl b

theorem sameRations_deliverPacket (b : Block) (site port : Nat) (room : Bool) (flits : List Flit) :
    Same Block.rations b (b.deliverPacket site port room flits) := by
  cases flits with
  | nil => exact .refl b
  | cons f pay =>
    unfold Block.deliverPacket
    dsimp only
    refine .ite ?_ (.ite ?_ ?_)
    · exact (Same.ite (sameRations_captureEntry ..) (.refl b)).trans (sameRations_discardPacket ..)
    · exact .ite (sameRations_captureEntry ..) (.refl b)
    · exact (Same.ite (sameRations_captureEntry ..) (.refl b)).trans (sameRations_send ..)

theorem sameRations_popFlit (b : Block) (key : Nat) (f : Flit) : Same Block.rations b (b.popFlit key f) := by
  unfold Block.popFlit
  exact .ite rfl rfl

theorem sameRations_sendFlit (b : Block) (s port vc key : Nat) (room : Bool) : Same Block.rations b (b.sendFlit s port vc key room) := by
  unfold Block.sendFlit
  split
  · exact .refl b
  · next f _ _ =>
    dsimp only
    refine (sameRations_popFlit b key f).trans ?_
    split
    · split
      · exact Same.trans rfl (sameRations_deliverPacket ..)
      · exact rfl
    · split <;> exact rfl

/-- Flits on their way change neither the time nor the desks. -/
theorem sameRations_meshRun (b : Block) (room : Bool) : Same Block.rations b (b.meshRun room) := by
  refine .foldl (fun b _ => .foldl (fun b s => .foldl (fun b port => ?_) _ b) _ b) _ b
  split
  · exact sameRations_sendFlit ..
  · exact .refl b

/-- The root's counter passes by 1 µs, one ns more or less in a slew to the domain's time (R50, R453). -/
theorem clockTick_time (b : Block) : b.fab.time + 999 ≤ b.clockTick.fab.time ∧ b.clockTick.fab.time ≤ b.fab.time + 1001 ∧
    (b.yg.domain.slew = 0 → b.clockTick.fab.time = b.fab.time + 1000) := by
  unfold Block.clockTick
  dsimp only
  split
  · exact ⟨Nat.add_le_add_left (by decide) _, Nat.add_le_add_left (by decide) _, fun _ => rfl⟩
  · next hslew =>
    split
    · exact ⟨Nat.add_le_add_left (by decide) _, Nat.add_le_add_left (by decide) _, fun h => absurd h hslew⟩
    · split <;> exact ⟨Nat.add_le_add_left (by decide) _, Nat.add_le_add_left (by decide) _, fun h => absurd h hslew⟩

theorem clockTick_rat (b : Block) : b.clockTick.rat = b.rat := by
  unfold Block.clockTick
  dsimp only
  split
  · rfl
  · split
    · rfl
    · split <;> rfl

/-! ### The tick -/

/-- The block as its desks find it in a tick: the time has passed and the mesh has run. -/
def Block.beforeDesks (b : Block) : Block := (({ b.clockTick with regs := countFull b.regs b.ring.rings } : Block).slewRouters).tickMesh

/-- The block as its desks leave it in a tick. -/
def Block.afterDesks (b : Block) : Block := b.beforeDesks.moveDesks 0 0 (List.range 96)

theorem beforeDesks_time (b : Block) : b.beforeDesks.fab.time = b.clockTick.fab.time := (sameRations_meshRun ..).rations_draws.draws_time

theorem beforeDesks_desk (b : Block) (f : Nat) : b.beforeDesks.desk f = b.desk f := by
  refine ((sameRations_meshRun ..).rations_desk f).trans ?_
  show sget _ b.clockTick.rat.desks f = _
  rw [clockTick_rat]
  rfl

/-- The tick after the desks have moved: the field test may turn, slots are lent, the peaks and settled plans are noted. -/
theorem rationTickDesks_eq (h : b.boot.en.fabric = true) : b.rationTickDesks =
    (b.afterDesks.testTurns.lend.slewPeaks b.waferLevel).settle (b.afterDesks.testTurns.lend.slewPeaks b.waferLevel).rat.plans := by
  rw [Block.rationTickDesks, if_pos h, Block.afterDesks, Block.beforeDesks]

theorem sameDraws_rationTickDesks (h : b.boot.en.fabric = true) : Same Block.draws b.afterDesks b.rationTickDesks := by
  rw [rationTickDesks_eq h]
  refine .trans ?_ (sameDraws_settle ..)
  refine .trans ?_ (sameDraws_slewPeaks ..)
  exact (sameDraws_testTurns _).trans (sameDraws_lend _)

/-- The time of a tick is its clock's (R50). -/
theorem rationTickDesks_time (h : b.boot.en.fabric = true) : b.rationTickDesks.fab.time = b.clockTick.fab.time := by
  rw [(sameDraws_rationTickDesks h).draws_time, Block.afterDesks, moveDesks_fab, beforeDesks_time]

/-- In a tick each desk moves within its slew (R63). -/
theorem rationTickDesks_slew (h : b.boot.en.fabric = true) (hs : ∀ f, (b.desk f).sound) (hf : f < 96) :
    (b.rationTickDesks.desk f).level ≤ (b.desk f).level + (b.desk f).upSlew ∧
    (b.desk f).level ≤ (b.rationTickDesks.desk f).level + (b.desk f).downSlew := by
  have hmoved := moveDesks_slew (rise := 0) (fall := 0) List.nodup_range (fun g _ => (beforeDesks_desk b g).symm ▸ hs g) (List.mem_range.mpr hf)
  rw [beforeDesks_desk] at hmoved
  rw [Desk.level_of_draw ((sameDraws_rationTickDesks h).draws_desk f)]
  exact hmoved.2

/-- In a tick the wafer's level moves by at most 122 rations net (R63). -/
theorem rationTickDesks_net (h : b.boot.en.fabric = true) (hs : ∀ f, (b.desk f).sound) :
    b.rationTickDesks.waferLevel ≤ b.waferLevel + 122 ∧ b.waferLevel ≤ b.rationTickDesks.waferLevel + 122 := by
  have hnet := moveDesks_net (fs := List.range 96) (rise := 0) (fall := 0) List.nodup_range (fun g _ => (beforeDesks_desk b g).symm ▸ hs g)
    (Nat.zero_le _) (Nat.zero_le _)
  have hafter := levels_congr (fs := List.range 96) fun f _ => Desk.level_of_draw ((sameDraws_rationTickDesks h).draws_desk f)
  have hbefore := levels_congr (fs := List.range 96) fun f _ => congrArg Desk.level (beforeDesks_desk b f)
  rw [waferLevel_eq, waferLevel_eq, hafter, ← hbefore]
  simpa [Block.afterDesks] using hnet

/-- A tick keeps the desks sound. -/
theorem rationTickDesks_sound (h : b.boot.en.fabric = true) (hs : ∀ f, (b.desk f).sound) (f : Nat) : (b.rationTickDesks.desk f).sound := by
  refine Desk.sound_of_draw ((sameDraws_rationTickDesks h).draws_desk f) ?_
  have hbefore : ∀ g, (b.beforeDesks.desk g).sound := fun g => (beforeDesks_desk b g).symm ▸ hs g
  by_cases hf : f ∈ List.range 96
  · exact (moveDesks_slew List.nodup_range (fun g _ => hbefore g) hf).1
  · rw [Block.afterDesks, moveDesks_desk_notMem hf]
    exact hbefore f

end Sys2Proof.Machine
end

section
/-! PROOFS. Requests, releases, starvation, lost grants and expired loans: what each makes of its desk, which stays sound (R64 to R67, R69, R74). -/
namespace Sys2Proof.Machine

variable {b b' : Block} {f g n : Nat} {who : Asker}

/-! ### Giving back (R66, R67) -/

/-- A desk hands over what is given back, and what is left tapers (R66, R67). -/
def Desk.handBack (d : Desk) (n : Nat) : Desk :=
  { d with queue := (deliver (handOver n d.queue).1).1
           grants := receive d.grants (deliver (handOver n d.queue).1).2
           taper := d.taper + (handOver n d.queue).2 }

/-- What is given back tapers at an OVER desk, and is handed over at another (R66, R67, R80). -/
theorem giveBack_desk (b : Block) (f n : Nat) : (b.giveBack f n).desk f =
    if b.effCeiling f < (b.desk f).level + n then { b.desk f with taper := (b.desk f).taper + n } else (b.desk f).handBack n := by
  unfold Block.giveBack
  dsimp only
  split
  · exact desk_setDesk_self b f _
  · rw [delivered_desk]
    exact desk_setDesk_self b f _

theorem giveBack_desk_ne (h : g ≠ f) : (b.giveBack f n).desk g = b.desk g := by
  obtain ⟨d, r, th, co, e⟩ := giveBack_frame f n b
  rw [e]
  exact desk_setDesk_ne b d h

/-- A desk given back to stays sound, and its level rises by what it is given. -/
theorem giveBack_sound (h : (b.desk f).sound) (n : Nat) :
    ((b.giveBack f n).desk f).sound ∧ ((b.giveBack f n).desk f).level = (b.desk f).level + n := by
  rw [giveBack_desk]
  split
  · refine ⟨?_, by simp only [Desk.level]; omega⟩
    rw [Desk.sound_iff_fits] at h ⊢
    exact h
  · obtain ⟨hfit, hsum⟩ := ((Desk.sound_iff_fits _).mp h).passOn n
    refine ⟨(Desk.sound_iff_fits _).mpr hfit, ?_⟩
    simp only [Desk.level, Desk.handBack]
    omega

/-! ### Requests and grants leave a desk (R66, R69, R74) -/

/-- The desk holds the grant, and no step of its clock back up waits there. -/
def Desk.steady (d : Desk) (g : Grant) : Prop := g ∈ d.grants ∧ ∀ r ∈ d.queue, r.clock = true → r.who ≠ g.who

theorem mem_receive {gs : List Grant} {rs : List Req} {g : Grant} (hg : g ∈ gs) (h : ∀ r ∈ rs, r.clock = true → r.who ≠ g.who) :
    g ∈ receive gs rs := by
  induction rs generalizing gs with
  | nil => exact hg
  | cons r rs ih =>
    obtain ⟨hr, hrs⟩ := List.forall_mem_cons.mp h
    rw [receive_cons]
    refine ih ?_ hrs
    cases hc : r.clock with
    | false =>
      rw [receive_grant hc]
      exact List.mem_append_left _ hg
    | true =>
      rw [receive_clock hc]
      exact List.mem_map.mpr ⟨g, hg, by simp [(hr hc).symm]⟩

theorem deliver_append (qs : List Req) : (deliver qs).2 ++ (deliver qs).1 = qs := by
  induction qs with
  | nil => rfl
  | cons q qs ih =>
    unfold deliver
    split
    · exact congrArg (q :: ·) ih
    · rfl

/-- What a desk passes on to its queue leaves a steady grant as it is. -/
theorem Desk.handBack_steady {d : Desk} {g : Grant} (h : d.steady g) (n : Nat) : (d.handBack n).steady g := by
  have hwaits : ∀ r ∈ (handOver n d.queue).1, r.clock = true → r.who ≠ g.who := fun r hr hc => by
    obtain ⟨x, hx, hkey⟩ := List.mem_map.mp (handOver_keys d.queue n ▸ List.mem_map_of_mem hr : r.key ∈ d.queue.map Req.key)
    simp only [Req.key, Prod.mk.injEq] at hkey
    exact hkey.1 ▸ h.2 x hx (hkey.2.1.trans hc)
  rw [← deliver_append (handOver n d.queue).1] at hwaits
  exact ⟨mem_receive h.1 fun r hr => hwaits r (List.mem_append_left _ hr), fun r hr => hwaits r (List.mem_append_right _ hr)⟩

theorem giveBack_steady {x : Grant} (h : (b.desk f).steady x) (n : Nat) : ((b.giveBack f n).desk f).steady x := by
  rw [giveBack_desk]
  split
  · exact h
  · exact Desk.handBack_steady h n

/-- A removal takes its requests off the queue and gives back what they have got. -/
theorem removeReqs_cases (b : Block) (f : Nat) (out : Req → Bool) :
    (b.removeReqs f out = b ∧ ∀ r ∈ (b.desk f).queue, out r = false) ∨
    b.removeReqs f out = (b.setDesk f { b.desk f with queue := (b.desk f).queue.filter fun q => !out q }).giveBack f
      (sumReqs ((b.desk f).queue.filter out)) := by
  unfold Block.removeReqs
  dsimp only
  split
  · next h => exact .inl ⟨rfl, by simpa using h⟩
  · exact .inr rfl

/-- A desk whose requests are removed stays sound, at its level (R74). -/
theorem removeReqs_sound (h : (b.desk f).sound) (out : Req → Bool) :
    ((b.removeReqs f out).desk f).sound ∧ ((b.removeReqs f out).desk f).level = (b.desk f).level := by
  rcases removeReqs_cases b f out with ⟨e, -⟩ | e
  · rw [e]
    exact ⟨h, rfl⟩
  · have hrest : ((b.setDesk f { b.desk f with queue := (b.desk f).queue.filter fun q => !out q }).desk f).sound := by
      rw [desk_setDesk_self, Desk.sound_iff_fits]
      exact ((Desk.sound_iff_fits _).mp h).sublist List.filter_sublist
    obtain ⟨hsound, hlevel⟩ := giveBack_sound hrest (sumReqs ((b.desk f).queue.filter out))
    have hsum := sum_filter out (b.desk f).queue
    rw [desk_setDesk_self] at hlevel
    rw [e]
    refine ⟨hsound, hlevel.trans ?_⟩
    simp only [Desk.level]
    omega

/-- With the steps of its clock removed, a grant is steady. -/
theorem removeReqs_steady {x : Grant} (hx : x ∈ (b.desk f).grants) :
    ((b.removeReqs f fun q => q.clock && q.who == x.who).desk f).steady x := by
  rcases removeReqs_cases b f fun q => q.clock && q.who == x.who with ⟨e, hnone⟩ | e
  · rw [e]
    exact ⟨hx, fun r hr hc he => by simpa [hc, he] using hnone r hr⟩
  · rw [e]
    refine giveBack_steady ?_ _
    rw [desk_setDesk_self]
    exact ⟨hx, fun r hr hc he => by simpa [hc, he] using (List.mem_filter.mp hr).2⟩

theorem dropFirst_eq_eraseP {α : Type} (p : α → Bool) (xs : List α) : dropFirst p xs = xs.eraseP p := by
  induction xs with
  | nil => rfl
  | cons x xs ih => cases h : p x <;> simp [dropFirst, h, ih]

theorem find?_holder {gs : List Grant} {x : Grant} (hn : (gs.map (·.who)).Nodup) (hx : x ∈ gs) :
    gs.find? (·.who == x.who) = some x := by
  induction gs with
  | nil => cases hx
  | cons y ys ih =>
    obtain ⟨hy, hys⟩ := List.nodup_cons.mp hn
    rcases List.mem_cons.mp hx with rfl | hx
    · simp
    · have hne : y.who ≠ x.who := fun e => hy (List.mem_map.mpr ⟨x, hx, e.symm⟩)
      rw [List.find?_cons_of_neg (by simpa using hne), ih hys hx]

/-- Without a steady grant, a sound desk is sound, and lower by what it counted. -/
theorem Desk.dropGrant_sound {d : Desk} {x : Grant} (h : d.sound) (hx : d.steady x) :
    ({ d with grants := dropFirst (·.who == x.who) d.grants } : Desk).sound ∧
    ({ d with grants := dropFirst (·.who == x.who) d.grants } : Desk).level + x.counted = d.level := by
  have hsum := sum_dropFirst (find?_holder h.holders hx.1)
  refine ⟨?_, by simp only [Desk.level]; omega⟩
  rw [dropFirst_eq_eraseP]
  have hsub : (d.grants.eraseP (·.who == x.who)).Sublist d.grants := List.eraseP_sublist
  refine ⟨h.holders.sublist (hsub.map _), h.waiters, h.within, fun r hr hc g hg => h.fresh r hr hc g (hsub.subset hg), fun r hr hc => ?_⟩
  obtain ⟨g, hg, hwho, hstep⟩ := h.steps r hr hc
  have hne : g.who ≠ x.who := hwho ▸ hx.2 r hr hc
  exact ⟨g, (List.mem_eraseP_of_neg (by simpa using hne)).mpr hg, hwho, hstep⟩

/-- The grant of a requester leaves its desk, with the steps of its clock back up. -/
def Block.dropGrant (b : Block) (f : Nat) (who : Asker) : Block :=
  let b1 := b.removeReqs f fun q => q.clock && q.who == who
  b1.setDesk f { b1.desk f with grants := dropFirst (·.who == who) (b1.desk f).grants }

theorem release_some {x : Grant} (h : b.grantOf f who = some x) : b.release f who = (b.dropGrant f who).giveBack f x.counted := by
  simp only [Block.release, h, Block.dropGrant]

theorem release_none (h : b.grantOf f who = none) : b.release f who = b := by
  simp only [Block.release, h]

theorem dropDraw_some {x : Grant} (h : b.grantOf f who = some x) :
    b.dropDraw f who = (b.dropGrant f who).catchDrop f who.unit x.camp x.counted := by
  simp only [Block.dropDraw, h, Block.dropGrant]

theorem dropDraw_none (h : b.grantOf f who = none) : b.dropDraw f who = b := by
  simp only [Block.dropDraw, h]

theorem dropGrant_sound {x : Grant} (h : (b.desk f).sound) (hx : b.grantOf f who = some x) :
    ((b.dropGrant f who).desk f).sound ∧ ((b.dropGrant f who).desk f).level + x.counted = (b.desk f).level := by
  obtain rfl : x.who = who := by simpa using List.find?_some hx
  obtain ⟨hsound, hlevel⟩ := removeReqs_sound h fun q => q.clock && q.who == x.who
  rw [Block.dropGrant, desk_setDesk_self, ← hlevel]
  exact Desk.dropGrant_sound hsound (removeReqs_steady (List.mem_of_find?_eq_some hx))

/-- A released grant's desk stays sound, at its level (R66, R67). -/
theorem release_sound (h : (b.desk f).sound) (who : Asker) :
    ((b.release f who).desk f).sound ∧ ((b.release f who).desk f).level = (b.desk f).level := by
  cases hx : b.grantOf f who with
  | none =>
    rw [release_none hx]
    exact ⟨h, rfl⟩
  | some x =>
    obtain ⟨hdrop, hlevel⟩ := dropGrant_sound h hx
    rw [release_some hx, ← hlevel]
    exact giveBack_sound hdrop x.counted

/-- What the ballast catches is counted, and raised with what it cannot (R69). -/
theorem sameRations_catchDrop (b : Block) (f unit camp lost : Nat) :
    Same Block.rations (b.setDesk f { b.desk f with caught := (b.desk f).caught + min lost (512 - (b.desk f).ballast) })
      (b.catchDrop f unit camp lost) := by
  unfold Block.catchDrop
  have hcaught {b1 : Block} {c : Prop} [Decidable c] (code source pay : Nat) (fld : Fld) :
      Same Block.rations b1 (if c then b1 else (b1.bump fld).raise code source camp pay) := .ite (.refl b1) rfl
  refine .ite (hcaught ..) (.trans ?_ (sameRations_raise ..))
  exact (hcaught ..).trans (sameRations_count ..)

theorem dropDraw_sound (h : (b.desk f).sound) (who : Asker) : ((b.dropDraw f who).desk f).sound := by
  cases hx : b.grantOf f who with
  | none => rwa [dropDraw_none hx]
  | some x =>
    have hdrop := (dropGrant_sound h hx).1
    rw [dropDraw_some hx, (sameRations_catchDrop ..).rations_desk, desk_setDesk_self]
    rw [Desk.sound_iff_fits] at hdrop ⊢
    exact hdrop

end Sys2Proof.Machine
end

section
/-! PROOFS. The commands of a desk: what a request makes of it; what each command leaves as it is (R64, R66, R69, R70, R73, R74). -/
namespace Sys2Proof.Machine

variable {b b' : Block} {f g : Nat} {who : Asker} {cls camp amount : Nat} {standing : Bool}

/-! ### Requests (R70, R73) -/

/-- The request as it enters the queue. -/
def Block.newReq (b : Block) (who : Asker) (cls camp amount : Nat) (standing : Bool) : Req :=
  ⟨who, cls, camp, amount, 0, 0, b.fab.time, 0, false, standing, false⟩

/-- A refused request changes no desk (R73). -/
theorem request_refused (h : b.refusal f who amount ≠ 0) : Same Block.rations b (b.request f who cls camp amount standing) := by
  rw [Block.request, if_pos h]
  rfl

/-- A requester that is not refused neither holds nor waits (R72, R73). -/
theorem refusal_zero (h : b.refusal f who amount = 0) : b.holds f who = false ∧ b.waits f who = false := by
  unfold Block.refusal at h
  split at h
  · cases h
  · split at h
    · cases h
    · split at h
      · cases h
      · split at h
        · cases h
        · next hno => simpa [not_or] using hno

/-- A request that is not refused joins the queue, and a taper under way goes to the queue unless the desk is OVER (R66, R70, R80). -/
theorem request_desk (h : b.refusal f who amount = 0) : (b.request f who cls camp amount standing).desk f =
    let d := { b.desk f with queue := enqueue (b.newReq who cls camp amount standing) (b.desk f).queue }
    if b.deskOver f then d else d.passTaper := by
  rw [Block.request, if_neg (not_not_intro h)]
  dsimp only
  split
  · rw [desk_setDesk_self]
    rfl
  · rw [delivered_desk, desk_setDesk_self]
    rfl

theorem request_desk_ne (h : b.refusal f who amount = 0) (hg : g ≠ f) : (b.request f who cls camp amount standing).desk g = b.desk g := by
  rw [Block.request, if_neg (not_not_intro h)]
  dsimp only
  split
  · exact desk_setDesk_ne b _ hg
  · rw [delivered_desk, desk_setDesk_ne _ _ hg, desk_setDesk_ne b _ hg]

/-- A requester that neither holds nor waits may join the queue. -/
theorem newReq_fits (hs : (b.desk f).sound) (h : b.refusal f who amount = 0) :
    Fits (b.desk f).grants (b.newReq who cls camp amount standing :: (b.desk f).queue) := by
  obtain ⟨hholds, hwaits⟩ := refusal_zero h
  have hgrants : ∀ x ∈ (b.desk f).grants, x.who ≠ who := by simpa [Block.holds, Block.grantOf] using hholds
  have hqueue : ∀ r ∈ (b.desk f).queue, r.who = who → r.clock = true := by simpa [Block.waits] using hwaits
  refine ⟨hs.holders, List.nodup_cons.mpr ⟨fun hmem => ?_, hs.waiters⟩, List.forall_mem_cons.mpr ⟨Nat.zero_le _, hs.within⟩,
    List.forall_mem_cons.mpr ⟨fun _ => hgrants, hs.fresh⟩, List.forall_mem_cons.mpr ⟨fun hc => absurd hc Bool.false_ne_true, hs.steps⟩⟩
  obtain ⟨r, hr, he⟩ := List.mem_map.mp hmem
  obtain ⟨hwho, hclock⟩ := Prod.mk.inj he
  exact Bool.true_eq_false.mp ((hqueue r hr hwho).symm.trans hclock)

/-- A request leaves a sound desk sound, at its level (R65, R66). -/
theorem request_sound (hs : (b.desk f).sound) : ((b.request f who cls camp amount standing).desk f).sound ∧
    ((b.request f who cls camp amount standing).desk f).level = (b.desk f).level := by
  by_cases h : b.refusal f who amount = 0
  · have hfit := newReq_fits (cls := cls) (camp := camp) (standing := standing) hs h
    have hjoin : ({ b.desk f with queue := enqueue (b.newReq who cls camp amount standing) (b.desk f).queue } : Desk).sound :=
      (Desk.sound_iff_fits _).mpr hfit.enqueued
    have hlevel : ({ b.desk f with queue := enqueue (b.newReq who cls camp amount standing) (b.desk f).queue } : Desk).level =
        (b.desk f).level := by
      have hsum := sum_enqueue hfit.within
      simp only [Block.newReq, Nat.add_zero, Nat.min_zero, Nat.zero_add] at hsum
      simp only [Desk.level, Block.newReq, hsum]
    rw [request_desk h]
    dsimp only
    split
    · exact ⟨hjoin, hlevel⟩
    · exact ⟨Desk.passTaper_sound hjoin, (Desk.passTaper_level hjoin).trans hlevel⟩
  · rw [(request_refused h).rations_desk]
    exact ⟨hs, rfl⟩

theorem sameRations_passTo (b : Block) (f : Nat) (who : Asker) (c : Nat) : Same Block.rations b (b.passTo f who c) := by
  unfold Block.passTo Block.passArray
  exact .ite (.ite (.refl b) rfl) (.refl b)

/-- An array that passes to a camp with the request for its standing grant changes no desk. -/
theorem sameRations_passIf (b : Block) (f : Nat) (who : Asker) (c : Nat) (p : Prop) [Decidable p] :
    Same Block.rations b (if p then b.passTo f who c else b) := .ite (sameRations_passTo ..) (.refl b)

/-! ### What the commands leave (R64, R66) -/

/-- Every desk but one, and that one's loan slots. -/
def Block.besides (f : Nat) (b : Block) : Nat → Desk := fun g =>
  if g = f then { Desk.init with up := (b.desk f).up, down := (b.desk f).down, matchUp := (b.desk f).matchUp, matchDown := (b.desk f).matchDown }
  else b.desk g

theorem Same.besides_of (hg : ∀ g, g ≠ f → b'.desk g = b.desk g) (hup : (b'.desk f).up = (b.desk f).up)
    (hdown : (b'.desk f).down = (b.desk f).down) (hmup : (b'.desk f).matchUp = (b.desk f).matchUp)
    (hmdown : (b'.desk f).matchDown = (b.desk f).matchDown) : Same (Block.besides f) b b' := by
  funext g
  unfold Block.besides
  split
  · rw [hup, hdown, hmup, hmdown]
  · next h => exact hg g h

theorem Same.besides_desk (h : Same (Block.besides f) b b') (hg : g ≠ f) : b'.desk g = b.desk g := by
  simpa [Block.besides, hg] using congrFun h g

theorem Same.besides_slots (h : Same (Block.besides f) b b') : (b'.desk f).up = (b.desk f).up ∧ (b'.desk f).down = (b.desk f).down ∧
    (b'.desk f).matchUp = (b.desk f).matchUp ∧ (b'.desk f).matchDown = (b.desk f).matchDown := by
  simpa [Block.besides] using congrFun h f

theorem Same.rations_besides (h : Same Block.rations b b') (f : Nat) : Same (Block.besides f) b b' := by
  refine .besides_of (fun g _ => h.rations_desk g) ?_ ?_ ?_ ?_ <;> rw [h.rations_desk]

theorem sameBesides_setDesk {d : Desk} (hup : d.up = (b.desk f).up) (hdown : d.down = (b.desk f).down) (hmup : d.matchUp = (b.desk f).matchUp)
    (hmdown : d.matchDown = (b.desk f).matchDown) : Same (Block.besides f) b (b.setDesk f d) := by
  refine .besides_of (fun g hg => desk_setDesk_ne b d hg) ?_ ?_ ?_ ?_ <;> rwa [desk_setDesk_self]

theorem sameBesides_giveBack (b : Block) (f n : Nat) : Same (Block.besides f) b (b.giveBack f n) := by
  refine .besides_of (fun g hg => giveBack_desk_ne hg) ?_ ?_ ?_ ?_ <;> rw [giveBack_desk] <;> split <;> rfl

theorem sameBesides_removeReqs (b : Block) (f : Nat) (out : Req → Bool) : Same (Block.besides f) b (b.removeReqs f out) := by
  rcases removeReqs_cases b f out with ⟨e, -⟩ | e
  · rw [e]
    exact .refl b
  · rw [e]
    refine .trans ?_ (sameBesides_giveBack ..)
    exact sameBesides_setDesk rfl rfl rfl rfl

theorem sameBesides_dropGrant (b : Block) (f : Nat) (who : Asker) : Same (Block.besides f) b (b.dropGrant f who) :=
  (sameBesides_removeReqs ..).trans (sameBesides_setDesk rfl rfl rfl rfl)

theorem sameBesides_release (b : Block) (f : Nat) (who : Asker) : Same (Block.besides f) b (b.release f who) := by
  cases hx : b.grantOf f who with
  | none =>
    rw [release_none hx]
    exact .refl b
  | some x =>
    rw [release_some hx]
    exact (sameBesides_dropGrant ..).trans (sameBesides_giveBack ..)

theorem sameBesides_dropDraw (b : Block) (f : Nat) (who : Asker) : Same (Block.besides f) b (b.dropDraw f who) := by
  cases hx : b.grantOf f who with
  | none =>
    rw [dropDraw_none hx]
    exact .refl b
  | some x =>
    rw [dropDraw_some hx]
    refine (sameBesides_dropGrant b f who).trans ?_
    refine .trans ?_ ((sameRations_catchDrop ..).rations_besides f)
    exact sameBesides_setDesk rfl rfl rfl rfl

theorem sameBesides_request (b : Block) (f : Nat) (who : Asker) (cls camp amount : Nat) (standing : Bool) :
    Same (Block.besides f) b (b.request f who cls camp amount standing) := by
  by_cases h : b.refusal f who amount = 0
  · refine .besides_of (fun g hg => request_desk_ne h hg) ?_ ?_ ?_ ?_ <;> rw [request_desk h] <;> dsimp only <;> split <;> rfl
  · exact (request_refused h).rations_besides f

/-- Where one desk stays sound and the others stay as they are, all stay sound. -/
theorem Same.besides_sound (h : Same (Block.besides f) b b') (hs : ∀ g, (b.desk g).sound) (hf : (b'.desk f).sound) (g : Nat) : (b'.desk g).sound := by
  by_cases hg : g = f
  · exact hg ▸ hf
  · rw [h.besides_desk hg]
    exact hs g

/-! ### Starved requests and expired loans (R64, R74) -/

/-- A requester's requests are marked as starved. -/
def starve (who : Asker) (qs : List Req) : List Req := qs.map fun x => if x.who == who then { x with starved := true } else x

theorem starve_share (who : Asker) (qs : List Req) : (starve who qs).map Req.share = qs.map Req.share := by
  rw [starve, List.map_map]
  refine List.map_congr_left fun x _ => ?_
  show Req.share (if x.who == who then _ else x) = x.share
  split <;> rfl

/-- A starvation changes no desk, or marks the requests of one requester and no more (R74). -/
theorem rationStarvedEff_cases (b : Block) (f unit thread sub : Nat) : rationStarvedEff f unit thread sub b = b ∨
    ∃ who, Same Block.rations (b.setDesk f { b.desk f with queue := starve who (b.desk f).queue }) (rationStarvedEff f unit thread sub b) := by
  unfold rationStarvedEff
  split
  · next r _ =>
    dsimp only
    split
    · exact .inr ⟨r.who, rfl⟩
    · exact .inl rfl
  · exact .inl rfl

theorem setDesk_sound {d : Desk} (hs : ∀ g, (b.desk g).sound) (hd : d.sound) (g : Nat) : ((b.setDesk f d).desk g).sound := by
  rw [desk_setDesk]
  split
  · exact hd
  · exact hs g

/-- A starved request keeps its place, and its desk is sound as before (R74). -/
theorem rationStarvedEff_sound {unit thread sub : Nat} (hs : ∀ g, (b.desk g).sound) (g : Nat) :
    ((rationStarvedEff f unit thread sub b).desk g).sound := by
  rcases rationStarvedEff_cases b f unit thread sub with e | ⟨who, hsame⟩
  · rw [e]
    exact hs g
  · rw [hsame.rations_desk]
    refine setDesk_sound hs ?_ g
    rw [Desk.sound_iff_fits]
    exact ((Desk.sound_iff_fits _).mp (hs f)).same_share (starve_share ..)

theorem sameDraws_loanExpiryEff (f : Nat) (b : Block) : Same Block.draws b (loanExpiryEff f b) := sameDraws_setDesk rfl

/-! ### The obligations -/

theorem next_blk {x : Block} {q q' : List Instr} (h : (.next ⟨x, q⟩ : Host.Outcome State Fault Refusal) = .next ⟨b', q'⟩) : x = b' := by
  injection h with h
  injection h

theorem reset_desk (f : Nat) : Block.reset.desk f = Desk.init := rfl

/-- Each command of the desks keeps them sound. -/
theorem rationCommand_sound {unit thread sub : Nat} {q : List Instr} {c : Instr}
    (hc : c = .rationRequest f unit thread sub cls camp amount standing ∨ c = .rationRelease f unit thread sub ∨
      c = .rationStarved f unit thread sub ∨ c = .unplannedDrop f unit thread sub ∨ c = .loanExpiry f)
    (hs : ∀ g, (b.desk g).sound) (he : exec c ⟨b, q⟩ = .next ⟨b', q⟩) (g : Nat) : (b'.desk g).sound := by
  rcases hc with rfl | rfl | rfl | rfl | rfl
  · obtain rfl := next_blk ((exec_rationRequest ..).symm.trans he)
    have hpass := sameRations_passIf b f ⟨unit, thread, sub⟩ camp (b.refusal f ⟨unit, thread, sub⟩ amount = 0)
    have hs' := fun g => (hpass.rations_desk g).symm ▸ hs g
    exact (sameBesides_request ..).besides_sound hs' (request_sound (hs' f)).1 g
  · obtain rfl := next_blk ((exec_rationRelease ..).symm.trans he)
    exact (sameBesides_release ..).besides_sound hs (release_sound (hs f) _).1 g
  · obtain rfl := next_blk ((exec_rationStarved ..).symm.trans he)
    exact rationStarvedEff_sound hs g
  · obtain rfl := next_blk ((exec_unplannedDrop ..).symm.trans he)
    exact (sameBesides_dropDraw ..).besides_sound hs (dropDraw_sound (hs f) _) g
  · obtain rfl := next_blk ((exec_loanExpiry ..).symm.trans he)
    exact Desk.sound_of_draw ((sameDraws_loanExpiryEff f b).draws_desk g) (hs g)

/-- Settles O36: a desk's move stays within its slew and within what the desks before it have left of the wafer's; everything else in the tick
leaves what desks draw. The commands keep the fit of grants and queue. -/
theorem slewBounds : Obligations.SlewBounds := by
  refine ⟨fun b hen hs => ⟨?_, fun f hf => rationTickDesks_slew hen hs hf, (rationTickDesks_net hen hs).1, (rationTickDesks_net hen hs).2,
    rationTickDesks_sound hen hs⟩, fun b b' q f unit thread sub cls camp amount standing c hc hs he => rationCommand_sound hc hs he, fun f => ?_⟩
  · rw [rationTickDesks_time hen]
    exact clockTick_time b
  · rw [reset_desk, Desk.sound_iff_fits]
    exact ⟨List.nodup_nil, List.nodup_nil, nofun, nofun, nofun⟩

/-- Settles O37: a release gives back exactly what the dropped grant counted, and a request joins with nothing; what is handed over or tapers
counts as it did. -/
theorem handoverKeepsLevel : Obligations.HandoverKeepsLevel := by
  intro b b' q f unit thread sub cls camp amount standing h
  have hall : Same (Block.besides f) b b' ∧ ((b.desk f).sound → (b'.desk f).level = (b.desk f).level) := by
    rcases h with he | he
    · obtain rfl := next_blk ((exec_rationRelease ..).symm.trans he)
      exact ⟨sameBesides_release .., fun hs => (release_sound hs _).2⟩
    · obtain rfl := next_blk ((exec_rationRequest ..).symm.trans he)
      have hpass := sameRations_passIf b f ⟨unit, thread, sub⟩ camp (b.refusal f ⟨unit, thread, sub⟩ amount = 0)
      refine ⟨(hpass.rations_besides f).trans (sameBesides_request ..), fun hs => ?_⟩
      rw [← hpass.rations_desk f] at hs ⊢
      exact (request_sound hs).2
  obtain ⟨hsame, hlevel⟩ := hall
  obtain ⟨hup, hdown, hmup, hmdown⟩ := hsame.besides_slots
  exact ⟨hlevel, hup, hdown, hmup, hmdown, fun g hg => hsame.besides_desk hg⟩

end Sys2Proof.Machine
end

section
/-! PROOFS. The ration commands complete (R63, R64, R66, R69, R70, R72, R74), and grants past their idle time go (R123, R209, R243). -/
namespace Sys2Proof.Machine

variable {b : Block} {f unit thread sub camp lost : Nat}

/-! ### Lost grants (R69) -/

/-- The ballast has room for the whole loss: it is caught. -/
theorem catchDrop_whole (h0 : 0 < lost) (h : lost ≤ 512 - (b.desk f).ballast) : b.catchDrop f unit camp lost =
    ((b.setDesk f { b.desk f with caught := (b.desk f).caught + lost }).bump (F.deskCatches f)).raise 0x0303 f camp
      (packBits [(0, 16, unit), (16, 16, lost), (32, 16, lost)]) := by
  simp only [Block.catchDrop, min_eq_left h, h0.ne', if_false, if_true]

/-- The ballast is in use whole: the loss is an excursion. -/
theorem catchDrop_none (h0 : 0 < lost) (h : 512 ≤ (b.desk f).ballast) : b.catchDrop f unit camp lost =
    ((b.setDesk f { b.desk f with caught := (b.desk f).caught }).bump F.rmExcursions).raise 0x0304 f camp
      (packBits [(0, 16, unit), (16, 16, lost), (32, 16, 0)]) := by
  simp only [Block.catchDrop, Nat.sub_eq_zero_of_le h, Nat.min_zero, h0.ne', if_false, if_true, Nat.add_zero]

/-- The ballast catches what it can, and the rest is an excursion. -/
theorem catchDrop_part (hb : (b.desk f).ballast < 512) (h : 512 - (b.desk f).ballast < lost) : b.catchDrop f unit camp lost =
    ((((b.setDesk f { b.desk f with caught := (b.desk f).caught + (512 - (b.desk f).ballast) }).bump (F.deskCatches f)).raise 0x0303 f camp
      (packBits [(0, 16, unit), (16, 16, lost), (32, 16, 512 - (b.desk f).ballast)])).bump F.rmExcursions).raise 0x0304 f camp
      (packBits [(0, 16, unit), (16, 16, lost), (32, 16, 512 - (b.desk f).ballast)]) := by
  simp only [Block.catchDrop, min_eq_right h.le, (Nat.sub_pos_of_lt hb).ne', h.ne', if_false]

/-- The desk without the grant keeps its queue and what its ballast has caught. -/
theorem dropGrant_desk (b : Block) (f : Nat) (who : Asker) : (b.dropGrant f who).desk f =
    { (b.removeReqs f fun q => q.clock && q.who == who).desk f with
      grants := dropFirst (·.who == who) ((b.removeReqs f fun q => q.clock && q.who == who).desk f).grants } :=
  desk_setDesk_self _ f _

theorem unplannedDropEff_some {g : Grant} (h : b.grantOf f ⟨unit, thread, sub⟩ = some g) :
    unplannedDropEff f unit thread sub b = (b.dropGrant f ⟨unit, thread, sub⟩).catchDrop f unit g.camp g.counted :=
  dropDraw_some h

/-! ### The tick, starvation, idle grants -/

/-- A tick runs where the fabric does (R63). -/
theorem rationTickEff_of (h : b.boot.en.fabric = true) : rationTickEff b =
    let b2 := (((b.refill.rationTickDesks.runKernels.tickWaits b.tier.waits).lateSteps b.tier.waits).payAllGranted.runUnits).tickParts
    let b4 := (List.range 96).foldl (fun b f => b.tickField f) (b2.tickArrays b2.arr)
    let b5 := if b4.fab.time / 1000000 ≠ b.fab.time / 1000000 then b4.tickMs else b4
    ((List.range 16).foldl (fun b c => b.tickCamp c) b5).rampedOff := by
  rw [rationTickEff, h, if_neg Bool.true_eq_false.mp]

/-- A request past its class's starvation time is marked, counted and raised (R74). -/
theorem rationStarvedEff_of {r : Req} (h : (b.desk f).queue.find? (·.who == ⟨unit, thread, sub⟩) = some r) (hs : r.starved = false)
    (ht : b.starveUs r.cls < (b.fab.time - r.at_) / 1000 - r.heldUs) : rationStarvedEff f unit thread sub b =
      ((b.setDesk f { b.desk f with queue := (b.desk f).queue.map fun x => if x.who == r.who then { x with starved := true } else x }).bump
        (F.deskStarved f)).raise 0x0301 f r.camp (b.reqPayload f r.who r.cls 0 r.amount ((b.fab.time - r.at_) / 1000)) := by
  simp only [rationStarvedEff, h]
  exact if_pos ⟨hs, ht⟩

/-- A core without a wide VL for its hold time is charged nothing any more, and its wide grant goes (R209). -/
theorem wideHoldExpiryEff_of {core : Nat} (hon : b.wideOn f core = true)
    (hwide : (((List.range 4).map (threadKey f core)).any fun t => (b.thread t).live && isWide (b.thread t).vl (b.thread t).ew) = false)
    (ht : (b.core f core).lastWide + b.fget F.tcConfigWideHoldUs * 1000 ≤ b.fab.time) : wideHoldExpiryEff f core b =
      (((List.range 4).map (threadKey f core)).foldl (fun b t => if (b.thread t).charged = 0 then b else b.setThread t { b.thread t with charged := 0 })
        (b.setCore f core { b.core f core with charged := 0 })).releaseAuto f (wideAsker core) :=
  if_pos ⟨hon, hwide, ht⟩

/-- A controller without a deep queue for its idle time releases a grant that is not firmware's (R123). -/
theorem burstIdleExpiryEff_of {p : Nat} {g : Grant} (h : b.grantOf f (ctlAsker p 0) = some g) (hs : g.standing = false)
    (ht : (b.ctl f p).deepAt + b.fget F.burstCtrlBurstIdleUs * 1000 ≤ b.fab.time)
    (hq : ((podChans p).all fun n => decide ((b.chanQueue f n).length < b.queueDeep)) = true) :
    burstIdleExpiryEff f p b = b.release f (ctlAsker p 0) := by
  simp only [burstIdleExpiryEff, h]
  exact if_pos ⟨hs, ht, hq⟩

/-- Settles O7: each command passes its guard; a lost grant goes by how much of its draw the desk's free ballast covers. -/
theorem rationsComplete : Obligations.RationsComplete := by
  refine ⟨fun _ _ _ _ _ _ _ _ _ _ => rfl, fun _ _ _ _ _ _ => rfl, fun b q hen => ?_, fun _ _ _ => rfl,
    fun b q f unit thread sub r hr hs ht => ?_, fun b q f unit thread sub g hg => ?_, fun b q f core => ?_, fun _ _ _ _ => rfl,
    fun b q f p g hg hs ht hq => ?_⟩
  · rw [exec_rationTick, rationTickEff_of hen]
  · rw [exec_rationStarved, rationStarvedEff_of hr hs ht]
  · have hcaught := congrArg Desk.caught (dropGrant_desk b f ⟨unit, thread, sub⟩)
    have hballast := congrArg Desk.ballast (dropGrant_desk b f ⟨unit, thread, sub⟩)
    rw [exec_unplannedDrop, unplannedDropEff_some hg]
    refine ⟨fun h0 h => ?_, fun h0 h => ?_, fun hb h => ?_⟩
    · rw [catchDrop_whole h0 (hballast ▸ h), hcaught]
      rfl
    · rw [catchDrop_none h0 (hballast ▸ h), hcaught]
      rfl
    · rw [catchDrop_part (hballast ▸ hb) (hballast ▸ h), hcaught, hballast]
      rfl
  · intro ts hon hwide ht
    rw [exec_wideHoldExpiry, wideHoldExpiryEff_of hon hwide ht]
  · rw [exec_burstIdleExpiry, burstIdleExpiryEff_of hg hs ht hq]

end Sys2Proof.Machine
end

section
/-! PROOFS. JOBs (R196 to R199, R214, R221, R224, R226): the guards of their launch, start, end and watchdog, and of what returns to them. -/
namespace Sys2Proof.Machine

variable {b : Block} {camp seq id t : Nat} {j : Job} {d : Desc} {o : MemOp}

/-! ### From the descriptor to the threads (R196 to R198) -/

/-- May a JOB be launched: its cores and arrays are free, none of its ring comes before it, and fewer than 256 run (R197)? -/
def Block.launches (b : Block) (j : Job) : Prop :=
  j.phase = 0 ∧ b.coresFree j = true ∧ b.arraysFree j = true ∧ b.earlierJob j false = false ∧ b.jobsRunning < 256

/-- A JOB that may be launched asks for the wake grants that it lacks, and takes its cores and arrays once its pods are awake (R75, R197). -/
theorem jobLaunchEff_of (hj : b.jobOf camp seq = some j) (h : b.launches j) : jobLaunchEff camp seq b =
    if (b.askWakes j).awake j then
      ((j.fieldList.foldl (fun b f => j.coreList.foldl (fun b c => b.clearCore f c) b) (b.askWakes j)).takeArrays j).setJob j.id
        fun j => { j with phase := 1 }
    else b.askWakes j := by
  obtain ⟨hphase, hcores, harrays, hearlier, hrun⟩ := h
  simp only [jobLaunchEff, hj, hphase, hcores, harrays, hearlier, hrun.not_ge, ne_eq, not_true_eq_false, Bool.true_eq_false,
    Bool.false_eq_true, or_self, if_false]

/-- A launched JOB whose image the camp may read starts its threads (R198). -/
theorem jobStartEff_of {b1 : Block} {image : List (Option Byte)} (hj : b.jobOf camp seq = some j) (hd : b.desc? camp seq = some d)
    (hphase : j.phase = 1) (hearlier : b.earlierJob j true = false) (hread : b.readDenied camp j.code j.codeLen = 0)
    (himage : b.codeImage j = (b1, some image)) : jobStartEff camp seq b =
      ((((j.fieldList.foldl (fun b f => j.coreList.foldl (fun b c => b.copyCode (localAddr f c 0) image) b) b1).setJob j.id
        fun j => { j with phase := 2, start := b.fab.time }).startThreads j 0 j.threadKeys).bump F.jobsStarted).count F.jobWaitUs
          ((b.fab.time - d.at_) / 1000) := by
  simp only [jobStartEff, hj, hd, hphase, hearlier, hread, himage, ne_eq, not_true_eq_false, Bool.false_eq_true, or_self, if_false]

/-! ### The end (R199, R224, R226) -/

/-- Is a JOB over: stopped or with every thread ended, its operations acknowledged and its arrays idle? -/
def Block.jobOver (b : Block) (j : Job) : Prop :=
  b.jobBusy j = false ∧ (j.phase = 3 ∨ j.phase = 2 ∧ b.jobEnded j = true) ∧ b.arraysIdle j = true

/-- The completion of a JOB: the status and body that its end has given it, or its fault's, or OK (R199). -/
def Job.status (j : Job) : Nat × Nat :=
  if j.ended = 0 then j.fault.elim (0, 0) fun x => (faultStatus x.1, faultBody x) else (j.ended - 1, j.body)

/-- A JOB that is over leaves and completes. -/
theorem jobCompleteEff_of (hj : b.jobOf camp seq = some j) (h : b.jobOver j) :
    jobCompleteEff camp seq b = (b.dropJob j).completeSeq camp seq j.status.1 j.status.2 := by
  obtain ⟨hbusy, hend, hidle⟩ := h
  simp only [jobCompleteEff, hj, hbusy, hidle, hend, Bool.false_eq_true, Bool.true_eq_false, not_true_eq_false, or_self, if_false, Job.status]
  cases j.fault <;> dsimp only <;> split <;> rfl

/-- A JOB past its limit faults, and the waiting requests of its threads and cores are withdrawn (R226). -/
theorem watchdogEff_of (hj : b.jobOf camp seq = some j) (hphase : j.phase = 2) (hlimit : j.limitMs ≠ 0)
    (ht : j.start + j.limitMs * 1000000 < b.fab.time) : watchdogEff camp seq b =
      j.threadKeys.foldl (fun b t => (b.withdraw (keyField t) (threadAsker (keyCore t) (keyThr t))).withdrawAuto (keyField t) (wideAsker (keyCore t)))
        ((b.bump F.watchdogFired).fault ((j.threadKeys.find? fun t => (b.thread t).live).getD (j.threadKeys.headD 0)) 7 0) := by
  simp only [watchdogEff, hj]
  exact if_pos ⟨hphase, hlimit, ht⟩

/-- A parity error of a live thread is counted and raised, and the thread faults (R224). -/
theorem regfileParityEff_of (hlive : (b.thread t).live = true) (hj : b.job? (b.thread t).job = some j) : regfileParityEff t b =
    ((b.bump (F.parityErrors (keyField t))).raise 0x0170 (keyField t) j.camp (jobPayload 6 t (b.thread t).pc 0)).fault t 6 0 := by
  simp only [regfileParityEff, hlive, hj, if_true]

/-! ### What returns (R214, R221) -/

/-- A performed load or atomic returns to its thread, unless its camp has been reset since (R228). -/
theorem loadReturnEff_thread (ho : b.tc.ops.find? (fun o => o.id == id) = some o) (hp : o.performed = true) (hk : o.kind.returns = true)
    (ht : o.thread = some t) : loadReturnEff id b = (if b.stale o then b else b.setThread t ((b.thread t).receive o)).opDone o := by
  simp only [loadReturnEff, ho, hp, hk, ht, and_self, if_true]

/-- A performed read of the firmware's lands where it was wanted (R316). -/
theorem loadReturnEff_firmware (ho : b.tc.ops.find? (fun o => o.id == id) = some o) (hp : o.performed = true) (hk : o.kind.returns = true)
    (ht : o.thread = none) (ha : o.array = none) : loadReturnEff id b = (b.opDone o).gathered o := by
  simp only [loadReturnEff, ho, hp, hk, ht, ha, and_self, if_true, Option.isSome_none, Bool.false_eq_true, if_false]

theorem writeAckEff_of (ho : b.tc.ops.find? (fun o => o.id == id) = some o) (hp : o.performed = true) (hk : o.kind.returns = false) :
    writeAckEff id b = (b.opDone o).firmDone o := by
  simp only [writeAckEff, ho, hp, hk, and_self, if_true]

/-- Settles O14: each command finds its JOB or its operation and passes its guard; the completion of a JOB goes by how it ended. -/
theorem jobsComplete : Obligations.JobsComplete := by
  refine ⟨fun b q camp seq d hd hgood => ?_, fun b q camp seq j hj hphase hcores harrays hearlier hrun => ?_,
    fun b q camp seq j d b1 image hj hd hphase hearlier hread himage => ?_, fun b q camp seq j hj hbusy hend hidle => ?_,
    fun b q camp seq j hj hphase hlimit ht => ?_, fun b q t j hlive hj => ?_, fun b q id t o ho hp hk ht => ?_,
    fun b q id o ho hp hk ht ha => ?_, fun b q id o ho hp hk => ?_⟩
  · rw [exec_job, jobEff, withDesc_of hd]
    simp only [hgood]
  · have hlaunch : b.launches j := ⟨hphase, hcores, harrays, hearlier, hrun⟩
    refine ⟨fun hawake => ?_, fun hasleep => ?_⟩
    · rw [exec_jobLaunch, jobLaunchEff_of hj hlaunch, if_pos hawake]
    · rw [exec_jobLaunch, jobLaunchEff_of hj hlaunch, hasleep, if_neg Bool.false_ne_true]
  · rw [exec_jobStart, jobStartEff_of hj hd hphase hearlier hread himage]
  · rw [exec_jobComplete, jobCompleteEff_of hj ⟨hbusy, hend, hidle⟩]
    refine ⟨fun hfault hended => ?_, fun hended => ?_, fun x hfault hended => ?_⟩
    · simp only [Job.status, hfault, hended, if_true, Option.elim_none]
    · simp only [Job.status, hended, if_false]
    · simp only [Job.status, hfault, hended, if_true, Option.elim_some]
  · rw [exec_watchdog, watchdogEff_of hj hphase hlimit ht]
  · rw [exec_regfileParity, regfileParityEff_of hlive hj]
  · rw [exec_loadReturn, loadReturnEff_thread ho hp hk ht]
  · rw [exec_loadReturn, loadReturnEff_firmware ho hp hk ht ha]
  · rw [exec_writeAck, writeAckEff_of ho hp hk]

end Sys2Proof.Machine
end

section
/-! PROOFS. Words of control (R76, R202, R207, R208, R215, R223): an issued word runs on the block at its issue, where its conditions pick one
branch. -/
namespace Sys2Proof.Machine

variable {b0 : Block} {t : Nat}

/-- PCHK by its kind of register: g, v, or p (R223). -/
theorem pchkEff_of (h : Issues b0 t (ofSys 0x042) = true) {bad : Bool} {th1 : ThreadSt}
    (hk : let th := (AtIssue b0 t).thread t
      let r := wRs1 ((AtIssue b0 t).fetch t)
      wRs2 ((AtIssue b0 t).fetch t) = 0 ∧ bad = th.gBad r ∧ th1 = { th with gp := setBit th.gp r false } ∨
      wRs2 ((AtIssue b0 t).fetch t) = 1 ∧ bad = th.vBad r ∧ th1 = { th with vp := setBit th.vp r false } ∨
      2 ≤ wRs2 ((AtIssue b0 t).fetch t) ∧ bad = th.pBad r ∧ th1 = { th with pp := setBit th.pp r false }) :
    pchkEff t b0 =
      let rd := wRd ((AtIssue b0 t).fetch t) % 8
      let th2 := th1.wp rd (predOf bad)
      ((AtIssue b0 t).setThread t { th2.next with pp := if rd = 0 then th2.pp else setBit th2.pp rd false }).count F.pchkCleared
        (if bad then 1 else 0) := by
  rw [pchkEff, runWord_of h]
  rcases hk with ⟨hn, rfl, rfl⟩ | ⟨hn, rfl, rfl⟩ | ⟨hn, rfl, rfl⟩
  · simp only [hn]
  · simp only [hn]
  · obtain ⟨n, hn⟩ := Nat.exists_eq_add_of_le' hn
    simp only [hn]

/-- Settles O17: each word runs on the block at its issue, and the conditions named pick its branch. -/
theorem controlWordsComplete : Obligations.ControlWordsComplete := by
  intro b0 q t
  dsimp only
  refine ⟨fun h hc hp => ?_, fun h hc => ?_, fun h hg hc h4 => ?_, fun h hg => ⟨fun hw => ?_, fun hw hx => ?_, fun hw hx hon => ?_, fun hw hx hon => ?_⟩,
    fun h hg1 hg2 => ?_, fun h hg => ?_, fun g h hg => ?_, fun h => ?_, fun h hg => ?_, fun h => ?_, fun h => ?_, fun h hk => ?_, fun h hk => ?_,
    fun h hk => ?_, fun h hg => ?_⟩
  · rw [exec_br, brEff, runWord_of h]
    simp only [hc, hp, Bool.true_eq_false, Bool.false_eq_true, if_false]
  · rw [exec_call, callEff, runWord_of h]
    simp only [hc, Bool.true_eq_false, if_false]
  · rw [exec_jr, jrEff, runWord_of h]
    simp only [hg, hc, h4, ne_eq, not_true_eq_false, Bool.true_eq_false, Bool.false_eq_true, or_self, if_false]
  · rw [exec_setvl, setvlEff, runWord_of h]
    simp only [hg, hw, Bool.false_eq_true, if_false, if_true]
  · rw [exec_setvl, setvlEff, runWord_of h]
    simp only [hg, hw, hx, Bool.true_eq_false, Bool.false_eq_true, if_false, if_true]
  · rw [exec_setvl, setvlEff, runWord_of h]
    simp only [hg, hw, hx.not_ge, hon, Bool.true_eq_false, Bool.false_eq_true, if_false, if_true]
  · rw [exec_setvl, setvlEff, runWord_of h]
    simp only [hg, hw, hx.not_ge, hon, Bool.true_eq_false, Bool.false_eq_true, if_false]
  · rw [exec_rationReq, rationReqEff, runWord_of h]
    simp only [hg1, hg2, Bool.false_eq_true, or_self, if_false]
  · rw [exec_rationRel, rationRelEff, runWord_of h]
    simp only [hg]
  · rw [exec_rationRel, rationRelEff, runWord_of h]
    simp only [hg]
  · rw [exec_csrr, csrrEff, runWord_of h]
  · rw [exec_csrw, csrwEff, runWord_of h]
    simp only [hg, Bool.false_eq_true, if_false]
  · rw [exec_tbar, tbarEff, runWord_of h]
  · rw [exec_yield, yieldEff, runWord_of h]
  · rw [exec_pchk, pchkEff_of h (.inl ⟨hk, rfl, rfl⟩)]
  · rw [exec_pchk, pchkEff_of h (.inr (.inl ⟨hk, rfl, rfl⟩))]
  · rw [exec_pchk, pchkEff_of h (.inr (.inr ⟨hk, rfl, rfl⟩))]
  · rw [exec_endCmd, endCmdEff, runWord_of h]
    simp only [hg, Bool.false_eq_true, if_false]

end Sys2Proof.Machine
end

section
/-! PROOFS. The tiers (R98, R104, R105, R216): what lets an operation be served, a move start and switch, a report count, and a late object be
raised. -/
namespace Sys2Proof.Machine

variable {b b0 : Block} {f g c n layer expert key slot dst : Nat} {step : Bool} {o : MemOp} {m : Move} {a : Announce}

/-! ### Operations at their service points (R216) -/

/-- Does an operation touch a physical place without power? -/
def Block.siteDark (b : Block) (o : MemOp) : Bool :=
  (b.sites o).any fun s => match s.1 with | .at_ p => b.unpowered (physField p) | _ => false

/-- Is an operation that reaches its service point served there: not performed and not held yet, its camp not reset since, none that it must
follow in flight, and its places powered (R99, R216, R217, R228)? -/
def Block.serves (b : Block) (o : MemOp) : Prop :=
  o.performed = false ∧ o.fed ≠ 9 ∧ b.stale o = false ∧ (b.tc.ops.any fun x => o.behind x) = false ∧ b.siteDark o = false

/-- An operation that is served reads the directory, is struck by the soft errors, and goes to the queues of its channels. -/
theorem memoryAccessEff_of {id : Nat} (ho : b.tc.ops.find? (fun o => o.id == id) = some o) (h : b.serves o) (errs checks : List (Nat × Nat))
    (miss : Bool) : memoryAccessEff id errs checks miss b =
      (((if miss then b.missDir o else b).touchAll o).strikeAll o errs checks).asQueued o fun b => b.serveOp o := by
  obtain ⟨hperf, hfed, hstale, hbehind, hdark⟩ := h
  simp only [memoryAccessEff, ho, hperf, hfed, hstale, hbehind, Bool.false_eq_true, or_self, if_false]
  exact if_neg (ne_true_of_eq_false hdark)

/-! ### Moves (R98, R99, R560) -/

/-- The first queued move of its camp starts where its granule stands still, its slot runs it, and its frame is free within the quota. -/
theorem moveStartEff_of
    (hm : b.nextMove f (b.dirEntry f g).camp ((b.tier.moves.find? fun m => m.isOf f g false).elim true (·.up)) = some m)
    (hg : m.granule = g) (hup : (b.dirEntry f g).state ≠ 5) (hdown : (b.dirEntry f g).state ≠ 6) (hon : b.tierOn = true)
    (hruns : Runs b f slot 0x8000 (.move g) = true) (hroom : 0 < b.available f m.tier (b.dirEntry f g).camp (decide ((b.dirEntry f g).hint = 3)))
    (hfree : b.frameFree f m.tier dst = true) : moveStartEff f g dst slot b = b.startMove m dst slot := by
  simp only [moveStartEff, hm, hg, hup, hdown, hon, inSlot_of hruns, hroom, hfree, ne_eq, not_true_eq_false, Bool.true_eq_false, or_self,
    if_false, if_true]

/-- A bulk access runs once the regulators let it. -/
theorem withBulk_of {camp cls : Nat} {rd wr : List (Nat × Nat)}
    (h : (b.noteBulk cls camp ((rd.flatMap fun x => b.bulkSlots true x.1 x.2) ++ wr.flatMap fun x => b.bulkSlots false x.1 x.2)).bulkSpend
      camp rd wr = some b0) (k : Block → Block) : b.withBulk camp cls rd wr k = k b0 := by
  simp only [Block.withBulk, h]

/-- What a move reads of SRAM or DRAM, in its field: its old frame, or nothing where the cellar or the host brings the granule. -/
def Move.readRuns (m : Move) (f : Nat) : List (Nat × Nat) :=
  if m.srcTier = 1 ∨ m.srcTier = 2 then [(frameAddr f m.srcTier m.src, 0x8000)] else []

/-- What a move writes. -/
def Move.writeRuns (m : Move) (f : Nat) : List (Nat × Nat) := [(frameAddr f m.tier m.dst, 0x8000)]

/-- A running move that has its data switches once the regulators let its copy run: its source is decoded, the directory follows, and the
writes that the granule held land. -/
theorem moveSwitchEff_of (hm : b.tier.moves.find? (fun m => m.field == f && m.granule == g && m.running && m.got) = some m)
    (h : (b.noteBulk m.cls (b.dirEntry f g).camp (((m.readRuns f).flatMap fun x => b.bulkSlots true x.1 x.2) ++
      (m.writeRuns f).flatMap fun x => b.bulkSlots false x.1 x.2)).bulkSpend (b.dirEntry f g).camp (m.readRuns f) (m.writeRuns f) = some b0)
    (data : Nat) : moveSwitchEff f g data b =
      (((((m.readRuns f).foldl (fun b s => b.check s.1 s.2) b0).switchMove m data).actAfterMove f g).endWaits).applyHeld f g := by
  simp only [moveSwitchEff, hm]
  exact withBulk_of h _

/-- A retired frame whose reads have returned is freed. -/
theorem moveOldFrameFreeEff_of {tier : Nat} (huse : (b.frame f tier n).use = 3) (hreads : (b.frame f tier n).reads = 0) :
    moveOldFrameFreeEff f tier n b = b.freeFrame f tier n :=
  if_pos ⟨huse, hreads⟩

/-! ### Experts and late objects (R104, R105) -/

/-- A field of the announcement whose slice is resident in time reports READY. -/
theorem expertReadyReportEff_of (ha : b.tier.announces.find? (fun a => a.camp == c && a.layer == layer && a.expert == expert) = some a)
    (hf : bitAt a.fields f = true) (hres : b.objResident f a.object = true) (ht : b.fab.time ≤ a.at_ + a.deadlineUs * 1000) :
    expertReadyReportEff c layer expert f b = b.setAnnounce c layer expert fun a => { a with ready := setBit a.ready f true }.settle := by
  simp only [expertReadyReportEff, ha]
  exact if_pos ⟨hf, hres, ht⟩

/-- An announcement that is undecided at its deadline takes the substitute. -/
theorem substituteDeadlineEff_of (ha : b.tier.announces.find? (fun a => a.camp == c && a.layer == layer && a.expert == expert) = some a)
    (hd : a.decided = 0) (ht : a.at_ + a.deadlineUs * 1000 ≤ b.fab.time) : substituteDeadlineEff c layer expert b = b.substitute a := by
  simp only [substituteDeadlineEff, ha]
  exact if_pos ⟨hd, ht⟩

/-- Does a wait belong to the object and the step, or the field's object and the descriptor, that a TIER_LATE speaks of (R105)? -/
def TierWait.lateFor (w : TierWait) (f c n : Nat) (step : Bool) (key : Nat) : Bool :=
  w.camp == c && w.object == n && w.step == step && w.key == key && (step || w.field == f)

/-- The longest of those waits, in µs. -/
def Block.longestWait (b : Block) (f c n : Nat) (step : Bool) (key : Nat) : Nat :=
  ((b.tier.waits.filter fun w => w.lateFor f c n step key).map fun w => (b.fab.time - w.at_) / 1000).foldl max 0

/-- A wait past the limit is marked and raised, once. -/
theorem tierLateEff_of (hnew : b.tier.lates.contains (lateMark f c n step key) = false)
    (hwaits : (b.tier.waits.any fun w => w.lateFor f c n step key && w.field == f) = true)
    (hlong : max 1 (b.fget F.tierDeadlineLateEventUs) < b.longestWait f c n step key) : tierLateEff f c n step key b =
      ({ b with tier := { b.tier with
          waits := b.tier.waits.map fun w => if w.lateFor f c n step key then { w with late := true } else w
          lates := (b.tier.lates.filter b.lateLive) ++ [lateMark f c n step key] } } : Block).raise 0x0401 (if step then 0xFF else f) c
        (tierPayload n 0 (b.longestWait f c n step key) (granuleAddr f (b.obj f n).base)) :=
  if_pos ⟨hnew, hwaits, hlong⟩

/-- Settles O8: each command finds its operation, move, frame, announcement or waits, and passes its guard. -/
theorem tierCompletes : Obligations.TierCompletes := by
  refine ⟨fun b q id errs checks miss o ho hperf hfed hstale hbehind hdark => ?_, fun b q f g dst slot m => ?_,
    fun b q f g data m b0 hm => ?_, fun b q f tier n huse hreads => ?_, fun b q c layer expert f a ha hf hres ht => ?_,
    fun b q c layer expert a ha hd ht => ?_, fun b q f c n step key => ?_⟩
  · rw [exec_memoryAccess, memoryAccessEff_of ho ⟨hperf, hfed, hstale, hbehind, hdark⟩]
  · intro e hm hg hup hdown hon hruns hroom hfree
    rw [exec_moveStart, moveStartEff_of hm hg hup hdown hon hruns hroom hfree]
  · intro src dst camp hspend
    rw [exec_moveSwitch, moveSwitchEff_of hm hspend]
    rfl
  · rw [exec_moveOldFrameFree, moveOldFrameFreeEff_of huse hreads]
  · rw [exec_expertReadyReport, expertReadyReportEff_of ha hf hres ht]
  · rw [exec_substituteDeadline, substituteDeadlineEff_of ha hd ht]
  · intro same longest mark hnew hwaits hlong
    rw [exec_tierLate, tierLateEff_of hnew hwaits hlong]
    rfl

end Sys2Proof.Machine
end

section
/-! PROOFS. Hints (R94 to R97, R431): the guards of MAP, UNMAP and SET, and the object that a MAP makes. -/
namespace Sys2Proof.Machine

variable {b : Block} {camp seq f n : Nat} {frames : List Nat} {d : Desc} {o : TierObj}

/-! ### MAP (R94, R431) -/

/-- The field that a HINT names. -/
def Desc.hintField (d : Desc) : Nat := bitsOf (d.field 24 8) 40 8

/-- The granules of a MAP. -/
def Desc.mapCount (d : Desc) : Nat := d.bits 32 0 26

/-- The tier of a MAP: SRAM for PIN there, DRAM otherwise. -/
def Desc.mapTier (d : Desc) : Nat := if d.bits 17 0 3 = 2 ∧ d.bits 17 5 1 = 0 then 1 else 2

/-- The object that a MAP makes; its content comes from the host where the body names an address there. -/
def Desc.mapObj (d : Desc) (camp : Nat) : TierObj :=
  { (({ TierObj.init with base := bitsOf (d.field 24 8) 15 25, count := d.mapCount, camp := camp,
                          writable := decide (d.bits 17 3 1 = 1) } : TierObj).hinted d) with
    host := if d.bits 17 3 1 = 0 then d.field 48 8 + 1 else 0, loading := decide (d.field 48 8 ≠ 0) }

/-- Does a MAP fit: an object number is free, the camp's quota holds its granules, and the frames are as many, free and all different? -/
def Block.mapFits (b : Block) (camp : Nat) (d : Desc) (frames : List Nat) : Prop :=
  ((b.fieldObjs d.hintField).filter fun no => decide (0 < no.2.count)).length < 65535 ∧
    d.mapCount ≤ b.available d.hintField d.mapTier camp false ∧ frames.length = d.mapCount ∧ b.framesFree d.hintField d.mapTier frames = true

/-- The object and the directory entries of a MAP, in the frames that firmware chose. -/
def Block.mapMade (b : Block) (camp : Nat) (d : Desc) (frames : List Nat) : Block :=
  (b.setObj d.hintField (b.freeObj d.hintField 65535 1) (d.mapObj camp)).mapFrames d.hintField (b.freeObj d.hintField 65535 1) d.mapTier
    (d.mapObj camp) (decide (d.field 48 8 ≠ 0)) 0 frames

/-- A MAP that fits makes its object; without content it completes, with content its transfer starts. -/
theorem hintMapEff_of (hw : Waits b camp seq 0x08 d) (hop : d.bits 16 0 2 = 0) (hbad : mapBad b d = none) (h : b.mapFits camp d frames) :
    hintMapEff camp seq frames b =
      if d.field 48 8 = 0 then ((b.mapMade camp d frames).hintMoves d.hintField (d.mapObj camp)).complete d 0 0
      else ((b.mapMade camp d frames).startDma camp seq d.mapCount).start d := by
  obtain ⟨hnum, hroom, hlen, hfree⟩ := h
  rw [hintMapEff, withDesc_of hw, if_neg (not_not_intro hop), hbad]
  exact (if_neg (Nat.not_lt_of_le hnum)).trans <| (if_neg (Nat.not_lt_of_le hroom)).trans <|
    if_neg (not_or_intro (not_not_intro hlen) (ne_false_of_eq_true hfree))

/-! ### UNMAP and SET (R95 to R97) -/

/-- An UNMAP of an object that no LOAD_MODEL made takes effect at once, or at the boundary of a camp in a step. -/
theorem hintUnmapEff_of (hw : Waits b camp seq 0x08 d) (hop : d.bits 16 0 2 = 1) (ho : b.objAt (d.field 24 8) = some (f, n, o))
    (hc : o.camp = camp) (hm : o.model = 0) : hintUnmapEff camp seq b =
      if b.inStep camp then (b.setObj f n { o with unmapping := seq + 1 }).start d else (b.unmapObj f n).complete d 0 0 := by
  rw [hintUnmapEff, withDesc_of hw, if_neg (not_not_intro hop)]
  simp only [ho, hc, hm, ne_eq, not_true_eq_false, if_false]

/-- A SET with a usable body, whose PIN is not short of frames, gives the object its hints and its moves. -/
theorem hintSetEff_of (hw : Waits b camp seq 0x08 d) (hop : d.bits 16 0 2 = 2) (ho : b.objAt (d.field 24 8) = some (f, n, o))
    (hc : o.camp = camp) (hbad : hintBad b d o.writable (decide (o.image ≠ 0)) = none)
    (hpin : (o.hinted d).hint = 2 → b.pinShort f n (o.hinted d) = 0) : hintSetEff camp seq b =
      (((b.setObj f n (o.hinted d)).hintEntries f (o.hinted d)).hintMoves f (o.hinted d)).complete d 0 0 := by
  rw [hintSetEff, withDesc_of hw, if_neg (not_not_intro hop)]
  simp only [ho, hc, hbad, ne_eq, not_true_eq_false, if_false]
  exact if_neg fun ⟨h2, hshort⟩ => hshort.ne' (hpin h2)

/-- Settles O9: each HINT passes its checks; MAP goes by whether it has content, UNMAP by the camp's step. -/
theorem hintsComplete : Obligations.HintsComplete := by
  refine ⟨fun b q camp seq frames d hw hop hbad => ?_, fun b q camp seq d f n o hw hop ho hc hm => ?_,
    fun b q camp seq d f n o hw hop ho hc hbad hpin => ?_⟩
  · intro addr f count tier host hnum hroom hlen hfree
    rw [exec_hintMap, hintMapEff_of hw hop hbad ⟨hnum, hroom, hlen, hfree⟩]
    rfl
  · rw [exec_hintUnmap, hintUnmapEff_of hw hop ho hc hm]
  · rw [exec_hintSet, hintSetEff_of hw hop ho hc hbad hpin]

end Sys2Proof.Machine
end

section
/-! PROOFS. PHASE, REFRESH, LOAD_MODEL, UNLOAD_MODEL and COPY (R97, R349, R350, R361, R362, R365, R426, R428, R430): usable operands pass the
checks of each. -/
namespace Sys2Proof.Machine

variable {b : Block} {camp seq c : Nat} {d : Desc} {m : Model}

/-! ### PHASE (R349, R350, R428) -/

/-- The phase that a PHASE asks for. -/
def Desc.phaseTarget (d : Desc) : Nat := d.bits 16 0 2

/-- The entries of a PHASE's park table. -/
def Desc.parkCount (d : Desc) : Nat := d.bits 28 0 13

/-- Is the body of a PHASE usable: a phase, with its model A for phase 1, and a park table of its length at an aligned address whose entries
may be parked (R349, R359, R428)? -/
def Block.phaseUsable (b : Block) (camp : Nat) (table : List Nat) (d : Desc) : Prop :=
  d.phaseTarget ≠ 3 ∧ (d.phaseTarget = 1 → d.field 24 2 ≠ 0) ∧ d.parkCount ≤ 4096 ∧ (d.parkCount ≠ 0 → d.field 40 8 % 32 = 0) ∧
    table.length = d.parkCount ∧ table.any (b.parkBad camp (decide (d.phaseTarget = 2))) = false

/-- May a PHASE name a model: none, or one that the camp's requests may name (R365, R428)? -/
def Block.phaseModelOk (b : Block) (camp id : Nat) : Prop := id = 0 ∨ (b.usable camp id).isSome = true

theorem phaseModelOk_iff {id : Nat} : b.phaseModelOk camp id ↔ (decide (id ≠ 0) && (b.usable camp id).isNone) = false := by
  rw [Block.phaseModelOk, Bool.and_eq_false_iff, decide_eq_false_iff_not, not_not, Option.isNone_eq_false_iff]

/-- The waiting work of a PHASE. -/
def Block.newPhaseJob (b : Block) (camp seq : Nat) (table : List Nat) (d : Desc) : PhaseJob :=
  ⟨camp, seq, d.phaseTarget, decide (d.bits 17 0 1 = 1), d.field 20 4, d.field 24 2, d.field 26 2, d.field 32 8,
    table.map fun x => (parkAddr x, parkHost x, parkGranules x), 0, false, 0, 0, (b.phaseSt camp).phase⟩

/-- A usable PHASE whose table has been read joins the camp's PHASEs and starts when nothing stands before it. -/
theorem phaseEff_of {table : List Nat} (hw : Waits b camp seq 0x04 d) (h : b.phaseUsable camp table d)
    (hA : b.phaseModelOk camp (d.field 24 2)) (hB : b.phaseModelOk camp (d.field 26 2)) : phaseEff camp seq table 0 b =
      (({ b with serve := { b.serve with phaseJobs := b.serve.phaseJobs ++ [b.newPhaseJob camp seq table d] } } : Block).start d).startPhase
        camp := by
  obtain ⟨htarget, hmodel, hcount, halign, hlen, hpark⟩ := h
  rw [phaseEff, withDesc_of hw]
  exact (if_neg htarget).trans <| (if_neg fun ⟨h1, h0⟩ => hmodel h1 h0).trans <| (if_neg hcount.not_gt).trans <|
    (if_neg fun ⟨h0, h32⟩ => h32 (halign h0)).trans <| (if_neg fun ⟨_, h0⟩ => h0 rfl).trans <| (if_neg (not_not_intro hlen)).trans <|
    (if_neg (ne_true_of_eq_false hpark)).trans <| (if_neg (ne_true_of_eq_false (phaseModelOk_iff.mp hA))).trans <|
    if_neg (ne_true_of_eq_false (phaseModelOk_iff.mp hB))

/-- A started PHASE without HOLD is limited once DRAIN_LIMIT_MS has passed since its start. -/
theorem phaseDrainLimitEff_of {j : PhaseJob} (hj : b.serve.phaseJobs.find? (fun j => j.camp == c && j.started != 0 && j.switched == 0) = some j)
    (hhold : j.hold = false) (hdrain : j.drainMs ≠ 0) (ht : j.started - 1 + j.drainMs * 1000000 ≤ b.fab.time) :
    phaseDrainLimitEff c b = b.setPhaseJob c j.seq fun x => { x with limit := true } := by
  simp only [phaseDrainLimitEff, hj]
  exact if_pos ⟨hhold, hdrain, ht⟩

/-! ### REFRESH (R361, R362, R365) -/

/-- A REFRESH of a loaded model in phase 2, with 1 to 8 members that cover its tiles, waits for its kernels. -/
theorem refreshEff_of (hw : Waits b camp seq 0x05 d) (hm : b.model? camp (d.field 16 2) = some m) (hstate : m.state = 1)
    (hphase : (b.phaseSt camp).phase = 2) (hobj : b.refreshObjBad m = false) (h0 : d.bits 18 0 4 ≠ 0) (h8 : d.bits 18 0 4 ≤ 8) :
    refreshEff camp seq true b =
      ({ b with serve := { b.serve with
          refreshes := b.serve.refreshes ++ [⟨camp, seq, m.id, d.bits 18 0 4, b.fab.time, false, 0, []⟩] } } : Block).start d := by
  rw [refreshEff, withDesc_of hw]
  simp only [hm, hstate, hphase, hobj, h0, h8.not_gt, ne_eq, not_true_eq_false, Bool.false_eq_true, Bool.true_eq_false, or_self, if_false]

/-- May a REFRESH be built: no JOB of the camp that was consumed before it is still open, and the granules that it writes stand still (R362)? -/
def Block.refreshStill (b : Block) (camp seq : Nat) (own : List RefreshTile) (scales : List RefreshScale) (gathered : List GatheredTile) : Prop :=
  ((b.ring.descs.takeWhile fun x => !(x.camp == camp && x.seq == seq)).any fun x => x.camp == camp && x.op == 0x06) = false ∧
    (own.any fun t => !b.rewritable t.dst (imageBytes t.fmt)) = false ∧
    (gathered.any fun t => !b.rewritable t.dst (imageBytes t.fmt)) = false ∧
    (scales.any fun s => !b.rewritable s.dst (2 * s.vector.length)) = false

/-- A REFRESH with the fields that hold the tiles which this member builds. -/
def Refresh.withOwn (r : Refresh) (own : List RefreshTile) : Refresh :=
  { r with fields := (r.fields ++ (own.map fun t => addrField t.dst).filter fun f => decide (f < 96)).dedup }

/-- The block once the kernels of a REFRESH have asked for their grants, and whether they hold them all. -/
def Block.refreshAsked (b : Block) (r : Refresh) : Block × Bool := (b.noteRefresh r).refreshGrants r

/-- Every tile and SCALE vector of a REFRESH is written. -/
def Block.rewriteAll (b : Block) (camp : Nat) (r : Refresh) (tiles : List GatheredTile) (scales : List RefreshScale) : Block :=
  scales.foldl (fun b s => b.rewriteRun camp r.model s.dst (scaleBytes s))
    (tiles.foldl (fun b t => b.rewriteRun camp r.model t.dst (bytesLE (imageBytes t.fmt) t.image)) b)

/-- A REFRESH whose weights are written ends: its model is whole again, the camp's weights have a new version, and the descriptor completes
with it. `time` is when it ended. -/
def Block.refreshDone (b : Block) (camp seq time : Nat) (d : Desc) (r : Refresh) (tiles : List GatheredTile) : Block :=
  let v := (b.phaseSt camp).version + 1
  let b3 := ((b.endRefresh r).setModel camp r.model fun m => { m with incomplete := false }).setPhase camp fun p => { p with version := v }
  ((((b3.countGather r (tiles.map fun t => addrField t.dst).dedup.length true).raise 0x0551 0xFF camp
    (packBits [(0, 32, seq), (32, 32, v), (64, 32, (time - r.started) / 1000), (96, 32, tiles.length)])).bump (F.refreshes camp)).complete d 0
      v).startPhase camp

/-- A REFRESH that nothing stands before, under its grants, with every tile built and none lost, writes its weights and ends. -/
theorem refreshCompleteEff_of {own : List RefreshTile} {scales : List RefreshScale} {gathered ts : List GatheredTile} {r : Refresh}
    (hd : b.desc? camp seq = some d) (hr : b.serve.refreshes.find? (fun x => x.camp == camp && x.seq == seq) = some r)
    (hstill : b.refreshStill camp seq own scales gathered) (hgrants : (b.refreshAsked (r.withOwn own)).2 = true)
    (hbuilt : ((b.refreshAsked (r.withOwn own)).1.buildTiles camp seq own).2 = .ok ts)
    (hkept : (ts ++ gathered).find? (fun t => ((b.refreshAsked (r.withOwn own)).1.buildTiles camp seq own).1.tileLost t.dst) = none) :
    refreshCompleteEff camp seq own scales gathered none b =
      (((b.refreshAsked (r.withOwn own)).1.buildTiles camp seq own).1.rewriteAll camp (r.withOwn own) (ts ++ gathered) scales).refreshDone
        camp seq b.fab.time d (r.withOwn own) (ts ++ gathered) := by
  obtain ⟨hearlier, hown, hgathered, hscales⟩ := hstill
  rw [Block.refreshAsked, Refresh.withOwn] at hgrants hbuilt hkept
  simp only [refreshCompleteEff, hd, hr, hearlier, hown, hgathered, hscales, hgrants, hbuilt, hkept, Bool.false_eq_true, Bool.true_eq_false,
    or_self, if_false]
  rfl

/-! ### LOAD_MODEL and UNLOAD_MODEL (R97, R426, R552 to R556) -/

/-- The rows of the minimum pool that a load must have room for: none where it receives no pool now (R552). -/
def Block.loadRows (b : Block) (camp : Nat) (m : Model) : Nat := if b.poolNow m then b.minRows camp else 0

/-- How many objects of a container a load spills: from an image, as many as the fields need (R555). -/
def Block.spills (b : Block) (camp : Nat) (d : Desc) (s : ModelSpec) : Nat :=
  if d.field 20 2 = 0 then 0
  else b.spillCount (newModel b d s) s.objs (b.freeStream camp s.objs) (b.loadRows camp (newModel b d s)) (spillable s.objs) 0

/-- The objects of a container as a load places them. -/
def Block.loadObjs (b : Block) (camp : Nat) (d : Desc) (s : ModelSpec) : List ObjSpec :=
  if d.field 20 2 = 0 then s.objs else spill s.objs (b.spills camp d s) (b.freeStream camp s.objs)

/-- The most objects that a field has with the container's. -/
def Block.mostObjs (b : Block) (os : List ObjSpec) : Nat :=
  (List.range 96).foldl (fun x f => max x (((b.fieldObjs f).filter fun no => decide (0 < no.2.count)).length + os.length)) 0

/-- The bytes by which the fields' trays are short with the model's. -/
def Block.trayShort (b : Block) (m : Model) : Nat :=
  (List.range 96).foldl (fun x f =>
    max x (b.trayTaken + m.trayKib * 1024 + ((b.fieldTrays f).map fun (t : Nat × TrayEnt) => t.2.bytes).foldl (· + ·) 0 -
      (b.trayBanks f).length * 0x400000)) 0

/-- Does a load fit every field: its objects collide with none and have numbers left, and trays and frames hold what it needs (R262, R554)? -/
def Block.loadFits (b : Block) (camp : Nat) (d : Desc) (s : ModelSpec) : Prop :=
  b.specClash s.objs = false ∧ b.mostObjs s.objs ≤ 65535 ∧ ¬((newModel b d s).trayKib ≠ 0 ∧ 0 < b.trayShort (newModel b d s)) ∧
    b.loadShort (newModel b d s) (b.loadObjs camp d s) (b.loadRows camp (newModel b d s)) = 0

/-- The granules of a load in DRAM, over all fields. -/
def dramGranules (os : List ObjSpec) : Nat := weightNeed os * 96

/-- The granules of a load in the cellar, over all fields. -/
def cellarGranules (os : List ObjSpec) : Nat := ((os.filter fun o => !inDram o).map (·.granules)).foldl (· + ·) 0 * 96

/-- The rows of the pool that a load reserves: the most that every field holds beside weights and windows (R552). -/
def Block.poolRows (b : Block) (camp : Nat) (m : Model) (os : List ObjSpec) : Nat :=
  if b.poolNow m then m.mostRows fun f => b.available f 2 camp false - weightNeed os - windowNeed os else 0

/-- The model that a load makes, with its pool and its bytes. -/
def Block.loadedModel (b : Block) (camp : Nat) (d : Desc) (s : ModelSpec) : Model :=
  let m0 := newModel b d s
  let os := b.loadObjs camp d s
  { m0 with rows := b.poolRows camp m0 os, log := if b.poolNow m0 then logGranules (b.poolRows camp m0 os) else 0
            bytesDram := dramGranules os * 32768, bytesCellar := cellarGranules os * 32768, windows := windowNeed os }

/-- The objects, windows and pool of a load are reserved in one update (R554). -/
def Block.reserveLoad (b : Block) (camp : Nat) (d : Desc) (m : Model) (os : List ObjSpec) : Block :=
  let b1 := b.placeAll d m os
  let b2 : Block := { b1 with
    serve := { b1.serve with models := b1.serve.models ++ [m] }
    tier := { b1.tier with
      reserved := (List.range 96).foldl (fun r f => supd (fun _ => 0) r (16 * f + camp) (· + windowNeed os)) b1.tier.reserved } }
  (List.range 96).foldl (fun b f => b.fillPool m f (m.poolAim f)) b2

/-- A load that fits is reserved; its elements are copied, or it is loaded at once where DRAM holds none of it. -/
theorem loadModelEff_of {s : ModelSpec} (hw : Waits b camp seq 0x01 d) (hbad : loadBad b d s = none) (h : b.loadFits camp d s) :
    loadModelEff camp seq s b =
      if dramGranules (b.loadObjs camp d s) = 0 then
        (b.reserveLoad camp d (b.loadedModel camp d s) (b.loadObjs camp d s)).modelLoaded d (b.loadedModel camp d s)
      else ((b.reserveLoad camp d (b.loadedModel camp d s) (b.loadObjs camp d s)).startDma camp seq
        (dramGranules (b.loadObjs camp d s))).start d := by
  obtain ⟨hclash, hmost, htray, hshort⟩ := h
  rw [loadModelEff, withDesc_of hw, hbad]
  exact (if_neg hmost.not_gt).trans <| (if_neg (ne_true_of_eq_false hclash)).trans <| (if_neg htray).trans <| if_neg (not_not_intro hshort)

/-- A loaded model goes at once, or at the boundary of a camp in a step or of a model in use. -/
theorem unloadModelEff_of (hw : Waits b camp seq 0x02 d) (hm : b.model? camp (d.field 16 2) = some m) (hstate : m.state = 1) :
    unloadModelEff camp seq b =
      if b.inStep camp || b.modelBusy m then (b.setModel camp m.id fun x => { x with state := 2, unload := seq + 1 }).start d
      else (b.dropModel m).complete d 0 0 := by
  rw [unloadModelEff, withDesc_of hw]
  simp only [hm, hstate, ne_eq, not_true_eq_false, if_false]

/-! ### COPY (R430) -/

/-- A COPY with a side on the wafer, whose wafer sides the camp may reach, starts its elements. -/
theorem copyEff_of (hw : Waits b camp seq 0x07 d) (hhost : ¬(d.srcHost = true ∧ d.dstHost = true)) (hlen : d.copyLen ≠ 0)
    (hsrc : d.srcHost = false → b.copyDenied camp d.copySrc d.copyLen true = none)
    (hdst : d.dstHost = false → b.copyDenied camp d.copyDst d.copyLen false = none) :
    copyEff camp seq b = (b.startDma camp seq (elemCount d.copyCuts d.copyLen)).start d := by
  have hs : (if d.srcHost then none else b.copyDenied camp d.copySrc d.copyLen true) = none :=
    ite_eq_left_iff.mpr fun h => hsrc (Bool.eq_false_of_not_eq_true h)
  have hd : (if d.dstHost then none else b.copyDenied camp d.copyDst d.copyLen false) = none :=
    ite_eq_left_iff.mpr fun h => hdst (Bool.eq_false_of_not_eq_true h)
  rw [copyEff, withDesc_of hw]
  simp only [hs, hd, hhost, hlen, if_false]

/-- Settles O23: each descriptor passes its checks in their order. A LOAD_MODEL goes by whether DRAM holds any of it, an UNLOAD_MODEL by the
camp's step and the model's use. -/
theorem modelDescriptorsComplete : Obligations.ModelDescriptorsComplete := by
  refine ⟨fun b q camp seq table d hw htarget hmodel hcount halign hlen hpark hA hB => ?_, fun b q c j hj hhold hdrain ht => ?_,
    fun b q camp seq d m hw hm hstate hphase hobj h0 h8 => ?_,
    fun b q camp seq own scales gathered d r ts hd hr hearlier hown hgathered hscales => ?_, fun b q camp seq s d hw hbad hclash hmost => ?_,
    fun b q camp seq d m hw hm hstate => ?_, fun b q camp seq d hw hhost hlen hsrc hdst => ?_⟩
  · rw [exec_phase, phaseEff_of hw ⟨htarget, hmodel, hcount, halign, hlen, hpark⟩ hA hB]
    rfl
  · rw [exec_phaseDrainLimit, phaseDrainLimitEff_of hj hhold hdrain ht]
  · rw [exec_refresh, refreshEff_of hw hm hstate hphase hobj h0 h8]
  · intro r' b0 hgrants hbuilt hkept
    rw [exec_refreshComplete, refreshCompleteEff_of hd hr ⟨hearlier, hown, hgathered, hscales⟩ hgrants hbuilt hkept]
    rfl
  · intro m0 rows trayShort stream os htray hshort
    rw [exec_loadModel, loadModelEff_of hw hbad ⟨hclash, hmost, htray, hshort⟩]
    rfl
  · rw [exec_unloadModel, unloadModelEff_of hw hm hstate]
  · rw [exec_copy, copyEff_of hw hhost hlen hsrc hdst]

end Sys2Proof.Machine
end

section
/-! PROOFS. The stacks (R121, R122, R141, R147): a refresh that comes due on a lit channel, and what the test port answers in bring-up mode. -/
namespace Sys2Proof.Machine

variable {b : Block} {f n fn value errors : Nat}

/-! ### Refresh (R121, R122, R124) -/

/-- A tREFI has passed: the channel owes one refresh more (R121). -/
def Block.oweRefresh (b : Block) (f n : Nat) : Block := b.setChan f n { b.chan f n with owed := (b.chan f n).owed + 1 }

/-- A controller outside GRACE that neither holds nor awaits its refresh-burst grant asks for it (R124). -/
def Block.askRefreshBurst (b : Block) (f p : Nat) : Block :=
  if b.holds f (ctlAsker p 1) ∨ b.waits f (ctlAsker p 1) ∨ (b.stack f).state = 3 then b else b.request f (ctlAsker p 1) 2 0xFF 12 false

/-- What base mode makes of a refresh that is owed, where the channel owed `before` ahead of it: paid by the burst that its controller's grant
allows, paid distributed at REF_POSTPONE, or postponed (R122). -/
def Block.refreshBase (b : Block) (f n before : Nat) : Block :=
  if b.refPostpone ≤ (b.chan f n).owed then b.payDistributed f n
  else if before < (b.chan f n).owed then b.bump (F.refPostponed f n) else b

/-- A refresh due on a lit channel of a lit stack is owed, and goes by the mode of its controller. -/
theorem refreshDueEff_of (hchan : (b.chan f n).state ≠ 3) (hstack : (b.stack f).state ≠ 4) (hen : b.boot.en.dram = true) :
    refreshDueEff f n b =
      if (b.oweRefresh f n).bursting f (n / 8) then (b.oweRefresh f n).refreshBurst f (n / 8) 8
      else (((b.oweRefresh f n).askRefreshBurst f (n / 8)).payGranted f (n / 8)).refreshBase f n (b.chan f n).owed :=
  if_neg (not_or_intro hchan (not_or_intro hstack (ne_false_of_eq_true hen)))

/-! ### The test port in bring-up mode (R141, R147) -/

/-- START begins a margin scan (R141). -/
theorem marginScanEff_of (hw : Writes b fn (0x1020010 + 0x80000 * f) = true) (hbring : b.boot.bringup = true) (hstart : bitAt value 31 = true) :
    marginScanEff fn f value b =
      (b.writeWord (0x1020010 + 0x80000 * f) (BitVec.ofNat 32 value)).setTest f
        { (b.writeWord (0x1020010 + 0x80000 * f) (BitVec.ofNat 32 value)).test f with scanning := true, scanDone := false } := by
  rw [marginScanEff, barWrite_of hw]
  exact if_pos ⟨hbring, hstart⟩

/-- A scan that runs ends with its errors (R141). -/
theorem marginScanDoneEff_of (h : (b.test f).scanning = true) : marginScanDoneEff f errors b =
    b.setTest f { b.test f with scanning := false, scanDone := true, errors := satTo 24 errors } :=
  if_pos h

/-- GO lets a repair command act on the block that holds the written word (R147). -/
theorem repairWrite_of (hw : Writes b fn (0x1020018 + 0x80000 * f) = true) (hbring : b.boot.bringup = true) (hgo : bitAt value 31 = true)
    (act : Block → Block) :
    b.repairWrite fn f value act = act (b.writeWord (0x1020018 + 0x80000 * f) (BitVec.ofNat 32 value)) := by
  rw [Block.repairWrite, barWrite_of hw]
  exact (if_neg (ne_false_of_eq_true hgo)).trans (if_neg (ne_false_of_eq_true hbring))

/-- What KIND 0 answers: the spare rows that a bank has left (R147). -/
def Block.showRows (b : Block) (f n bank : Nat) : Block :=
  b.setTest f { b.test f with rowsLeft := b.rowsLeft f n bank, err := false, done := true }

/-- KIND 0 reads the spare rows of the bank that the word names. -/
theorem repairQueryEff_of (hw : Writes b fn (0x1020018 + 0x80000 * f) = true) (hbring : b.boot.bringup = true) (hgo : bitAt value 31 = true)
    (hkind : bitAt value 24 = false) : repairQueryEff fn f value b =
      (b.writeWord (0x1020018 + 0x80000 * f) (BitVec.ofNat 32 value)).showRows f (bitsOf value 0 5) (bitsOf value 5 4) := by
  rw [repairQueryEff, repairWrite_of hw hbring hgo]
  exact if_neg (ne_true_of_eq_false hkind)

/-- A spare row of a bank is used. -/
def Block.useSpareRow (b : Block) (f n bank : Nat) : Block :=
  { b with dram := { b.dram with rowsUsed := supd (fun _ => 0) b.dram.rowsUsed (bankKey f n bank) (· + 1) } }

/-- What KIND 1 makes of a bank with a spare row left: a row is mapped onto it and stands in the field's list (R147). -/
def Block.repairRow (b : Block) (f n bank row : Nat) : Block :=
  ((b.useSpareRow f n bank).addSoft f ⟨0, n, bank, row, false⟩).setTest f
    { (b.useSpareRow f n bank).test f with rowsLeft := b.rowsLeft f n bank - 1, err := false, done := true }

/-- KIND 1 maps the row that the word names, where its bank has a spare row left. -/
theorem softRowRepairEff_of (hw : Writes b fn (0x1020018 + 0x80000 * f) = true) (hbring : b.boot.bringup = true) (hgo : bitAt value 31 = true)
    (hkind : bitAt value 24 = true)
    (hleft : (b.writeWord (0x1020018 + 0x80000 * f) (BitVec.ofNat 32 value)).rowsLeft f (bitsOf value 0 5) (bitsOf value 5 4) ≠ 0) :
    softRowRepairEff fn f value b =
      (b.writeWord (0x1020018 + 0x80000 * f) (BitVec.ofNat 32 value)).repairRow f (bitsOf value 0 5) (bitsOf value 5 4) (bitsOf value 9 15) := by
  rw [softRowRepairEff, repairWrite_of hw hbring hgo]
  exact (if_neg (ne_false_of_eq_true hkind)).trans (if_neg hleft)

/-- Settles O10: a refresh due passes its guard, each write of the test port its right, its bring-up mode and its kind; the thermal commands
always run, for their guards stand in what they run. -/
theorem dramCompletes : Obligations.DramCompletes := by
  refine ⟨fun b q f n hchan hstack hen => ?_, fun _ _ _ _ _ => exec_stackThermalSample .., fun _ _ _ => exec_graceEnd ..,
    fun _ _ _ _ => exec_stackFault .., fun b q fn f v hw hbring hstart => ?_, fun b q f errors h => ?_,
    fun b q fn f v hw hbring hgo => ⟨fun hkind => ?_, fun hkind hleft => ?_⟩⟩
  · intro b1 b2 b3
    rw [exec_refreshDue, refreshDueEff_of hchan hstack hen]
    rfl
  · rw [exec_marginScan, marginScanEff_of hw hbring hstart]
  · rw [exec_marginScanDone, marginScanDoneEff_of h]
  · rw [exec_repairQuery, repairQueryEff_of hw hbring hgo hkind, Block.showRows]
  · intro b2
    rw [exec_softRowRepair, softRowRepairEff_of hw hbring hgo hkind hleft]
    rfl

end Sys2Proof.Machine
end

section
/-! PROOFS. Codes and scrubbing (R155 to R157, R165): the guards of a zero fill, of a Weeder's read and slow lap, and of an armed flip mask. -/
namespace Sys2Proof.Machine

variable {b : Block} {f tier n mem pattern check fn value : Nat}

/-- A frame in its zero fill becomes free, and its poison list forgets it (R155). -/
theorem zeroFillDoneEff_of (h : (b.frame f tier n).use = 4) : zeroFillDoneEff f tier n b =
    let b1 := (b.zeroFrame f tier n).setFrame f tier n ⟨0, (b.frame f tier n).owner, 0, true⟩
    (b1.setInteg f { b1.integField f with poisonList := (b1.integField f).poisonList.filter (· != n) }).bump (F.framesZeroed f) :=
  if_pos h

/-- A Weeder's read of codeword `i`: its address moves on, its slot is taken, the word is struck and decoded (R156). -/
def Block.weedAt (b : Block) (f mem i pattern check : Nat) : Block :=
  ((b.setWeeder f mem { b.weeder f mem with addr := i + 1 }).weedTake f mem i).weedWord f mem i pattern check

/-- A lap is done once no codeword from `i` on takes part in it (R157). -/
def Block.lapFrom (b : Block) (f mem i : Nat) : Block := if lapWords mem ≤ b.lapNext f mem 300 i then b.lapDone f mem else b

/-- A running Weeder reads the next codeword of its lap where the word's memory is idle. -/
theorem weederReadEff_of (hon : b.weederOn f mem = true) (hlap : b.lapNext f mem 300 (b.weeder f mem).addr < lapWords mem)
    (hidle : b.weedIdle f mem (b.lapNext f mem 300 (b.weeder f mem).addr) = true) : weederReadEff f mem pattern check b =
      (b.weedAt f mem (b.lapNext f mem 300 (b.weeder f mem).addr) pattern check).lapFrom f mem
        (b.lapNext f mem 300 (b.weeder f mem).addr + 1) :=
  (if_pos hon).trans ((if_neg hlap.not_ge).trans (if_neg (ne_false_of_eq_true hidle)))

/-- The milliseconds since a Weeder's lap began. -/
def Block.lapAge (b : Block) (f mem : Nat) : Nat := (b.fab.time - b.lapStart (b.weeder f mem)) / 1000000

/-- A lap past its limit that has not been alarmed yet raises its event (R157). -/
theorem weederLapSlowEff_of (hen : b.boot.en.integ = true) (halarm : (b.weeder f mem).alarmed = false)
    (hslow : max 1 (b.fget F.weederCtrlLapAlarmMs) < b.lapAge f mem) : weederLapSlowEff f mem b =
      (b.setWeeder f mem { b.weeder f mem with alarmed := true }).raise 0x0105 f 0xFF (integPayload mem 0 0 0 (b.lapAge f mem) 0) :=
  if_pos ⟨hen, halarm, hslow⟩

/-- ARM without a clear of APPLIED arms the mask where its target has no error (R165). -/
theorem flipArmEff_of (hw : Writes b fn 0x700024 = true) (harm : bitAt value 0 = true) (hkeep : bitAt value 1 = false) (herr : b.armError = 0) :
    flipArmEff fn value b = ({ b with integ := { b.integ with flipErr := 0 } } : Block).fset F.flipCtrlArm 1 := by
  rw [flipArmEff, barWrite_of hw]
  simp only [harm, hkeep, herr, Bool.true_eq_false, Bool.false_eq_true, if_false, if_true]

/-- Settles O11: the frame is in its zero fill, the Weeder runs within its lap over an idle word, the lap is past its limit, and the write of
FLIP_CTRL has its right and a target without an error. -/
theorem integrityCompletes : Obligations.IntegrityCompletes := by
  refine ⟨fun b q f tier n h => ?_, fun b q f mem pattern check hon => ?_, fun b q f mem hen halarm => ?_, fun b q fn v hw harm hkeep herr => ?_⟩
  · rw [exec_zeroFillDone, zeroFillDoneEff_of h]
  · intro i hlap hidle
    rw [exec_weederRead, weederReadEff_of hon hlap hidle]
    rfl
  · intro ms hslow
    rw [exec_weederLapSlow, weederLapSlowEff_of hen halarm hslow]
    rfl
  · rw [exec_flipArm, flipArmEff_of hw harm hkeep herr]

end Sys2Proof.Machine
end

section
/-! PROOFS. The canonical form of the memories (log entry 5) over a zero fill, a JOB's launch and a page walk (R155, R198, R266). What each does
besides its writes to memory, rations asked for, arrays taken, tokens spent, leaves the memories as they are. -/
namespace Sys2Proof.Machine

variable {b : Block} {f n tier camp seq slot pair first last core off : Nat} {j : Job}

/-! ### What leaves the memories -/

/-- Deliveries at a desk leave the memories (R65). -/
theorem sameMem_delivered (b : Block) (f : Nat) (rs : List Req) : Same Block.mem b (b.delivered f rs) := by
  obtain ⟨_, _, _, h⟩ := delivered_frame f rs b
  rw [h]
  rfl

/-- A request for rations leaves the memories, refused, queued or delivered at once (R70, R73). -/
theorem sameMem_request (b : Block) (f : Nat) (who : Asker) (cls camp amount : Nat) (standing : Bool) :
    Same Block.mem b (b.request f who cls camp amount standing) := by
  unfold Block.request
  exact .ite rfl (.ite rfl (sameMem_delivered ..))

theorem sameMem_askWakes (b : Block) (j : Job) : Same Block.mem b (b.askWakes j) :=
  .foldl (fun b _ => .ite (.refl b) (sameMem_request ..)) ..

theorem sameMem_takeArrays (b : Block) (j : Job) : Same Block.mem b (b.takeArrays j) :=
  .foldl (fun _ _ => setArray_mem ..) ..

theorem sameMem_spend (b : Block) (f p c bytes : Nat) : Same Block.mem b (b.spend f p c bytes) := rfl

/-- What a camp's work is charged for leaves the memories (R128). -/
theorem sameMem_charge (b : Block) (camp f n bursts narrow : Nat) : Same Block.mem b (b.charge camp f n bursts narrow) := by
  unfold Block.charge
  exact .ite (.refl b) (.trans (sameMem_spend ..) (served_mem ..))

theorem sameMem_chargeWalk (b : Block) (camp f slot : Nat) (blocks holed : List Nat) :
    Same Block.mem b (b.chargeWalk camp f slot blocks holed) :=
  (sameMem_charge ..).trans ((Same.foldl (fun _ _ => sameMem_charge ..) ..).trans (.foldl (fun _ _ => sameMem_charge ..) ..))

/-- The form stays where the memories do. -/
theorem Same.mem_wf {b b' : Block} (h : Same Block.mem b b') (hb : b.mem.wf = true) : b'.mem.wf = true := (congrArg MemPart.wf h).trans hb

/-! ### The commands -/

/-- A zero fill writes the frame, and only when the frame is in it (R155). -/
theorem zeroFillDoneEff_wf (h : b.mem.wf = true) : (zeroFillDoneEff f tier n b).mem.wf = true := by
  by_cases huse : (b.frame f tier n).use = 4
  · rw [zeroFillDoneEff_of huse]
    exact zeroFrame_wf h f tier n
  · rwa [zeroFillDoneEff, if_neg huse]

/-- The local memories of a JOB's cores, cleared one after the other (R197). -/
theorem clearCores_wf (h : b.mem.wf = true) (j : Job) :
    (j.fieldList.foldl (fun b f => j.coreList.foldl (fun b c => b.clearCore f c) b) b).mem.wf = true :=
  foldl_wf (fun _ f hb => foldl_wf (fun _ c hb => clearCore_wf hb f c) _ hb) _ h

theorem jobLaunchEff_wf (h : b.mem.wf = true) : (jobLaunchEff camp seq b).mem.wf = true := by
  unfold jobLaunchEff
  split
  · exact h
  · next j _ =>
    have hwakes : (b.askWakes j).mem.wf = true := (sameMem_askWakes b j).mem_wf h
    dsimp only
    split
    · exact h
    · split
      · exact (sameMem_takeArrays _ j).mem_wf (clearCores_wf hwakes j)
      · exact hwakes

/-- A walk stores one record of 8 bytes after the other (R266). -/
theorem pageWalkEff_wf (h : b.mem.wf = true) : (pageWalkEff f slot pair first last core off b).mem.wf = true := by
  unfold pageWalkEff
  split
  · refine (sameMem_chargeWalk ..).mem_wf ?_
    refine List.foldlRecOn (motive := fun x : Block × Nat => x.1.mem.wf = true) _ _ h fun x hx i _ => ?_
    dsimp only
    exact storeBytes_wf 8 hx
  · exact h

/-- Settles O50: each command writes memory through operations that keep the form. -/
theorem memoryFormKept : Obligations.MemoryFormKept := by
  intro b b' q c f n tier camp seq slot pair first last core off hc hb hexec
  rcases hc with rfl | rfl | rfl
  · rw [exec_zeroFillDone] at hexec
    cases hexec
    exact zeroFillDoneEff_wf hb
  · rw [exec_jobLaunch] at hexec
    cases hexec
    exact jobLaunchEff_wf hb
  · rw [exec_pageWalk] at hexec
    cases hexec
    exact pageWalkEff_wf hb

end Sys2Proof.Machine
end

section
/-! PROOFS. INSTALL (R176, R177, R427): the checks that a CREATE, a WRITE, a SEAL and an ERASE pass on a mounted cellar. -/
namespace Sys2Proof.Machine

variable {b : Block} {camp seq op e : Nat} {d : Desc} {x : Image}

/-- A mounted cellar runs the operation of an INSTALL that waits (R187). -/
theorem withInstall_of (hw : Waits b camp seq 0x03 d) (hm : b.cellar.mounted = true) (hop : d.bits 16 0 2 = op) (g : Desc → Block → Block) :
    b.withInstall camp seq op g = g d b :=
  (withDesc_of hw _).trans (if_pos ⟨hop, hm⟩)

/-! ### CREATE (R173, R176) -/

/-- The extents that a CREATE needs. -/
def Desc.createExtents (d : Desc) : Nat := cdiv (96 * d.field 20 4) 131072

/-- The extents of a camp's images. -/
def Block.takenExtents (b : Block) (camp : Nat) : Nat := sumOf ((b.cellar.images.filter fun x => x.camp == camp).map Image.extents)

/-- Does a CREATE fit: it names a new image with units, and the catalogue and the camp's quota have room for it? -/
def Block.createFits (b : Block) (camp : Nat) (d : Desc) : Prop :=
  d.field 18 2 ≠ 0 ∧ (b.image? (d.field 18 2)).isSome = false ∧ d.field 20 4 ≠ 0 ∧ b.cellar.images.length < 1024 ∧
    b.takenExtents camp + d.createExtents ≤ campExtents b.camp.live camp

/-- The image that a CREATE makes at extent `e`: INSTALLING, with nothing programmed. -/
def Desc.newImage (d : Desc) (camp e : Nat) : Image := ⟨d.field 18 2, camp, 1, d.field 20 4, 131072 * e, d.field 24 4, 0, 0, [], 0, []⟩

/-- The catalogue with one image more. -/
def Block.addImage (b : Block) (x : Image) : Block := { b with cellar := { b.cellar with images := b.cellar.images ++ [x] } }

/-- A CREATE that fits takes the lowest free run of extents. -/
theorem installCreateEff_of (hw : Waits b camp seq 0x03 d) (hm : b.cellar.mounted = true) (hop : d.bits 16 0 2 = 0) (h : b.createFits camp d)
    (hrun : b.freeRun d.createExtents = some e) :
    installCreateEff camp seq b = (b.addImage (d.newImage camp e)).complete d 0 (131072 * e) := by
  obtain ⟨hid, hnew, hunits, hcatalogue, hquota⟩ := h
  rw [Desc.createExtents] at hrun
  rw [installCreateEff, withInstall_of hw hm hop]
  simp only [hrun]
  exact (if_neg (not_or_intro hid (ne_true_of_eq_false hnew))).trans <| (if_neg hunits).trans <|
    (if_neg hcatalogue.not_ge).trans (if_neg hquota.not_gt)

/-! ### WRITE, SEAL and ERASE of a camp's own image (R176, R177) -/

/-- A WRITE that suits its image starts the transfer of its units. -/
theorem installWriteEff_of (hw : Waits b camp seq 0x03 d) (hm : b.cellar.mounted = true) (hop : d.bits 16 0 2 = 1)
    (hx : b.image? (d.field 18 2) = some x) (hc : x.camp = camp) (hbad : writeBad d x = none) :
    installWriteEff camp seq b = (b.startDma camp seq (d.field 20 4)).start d := by
  rw [installWriteEff, withInstall_of hw hm hop]
  simp only [hx, hc, hbad, ne_eq, not_true_eq_false, if_false]

/-- A SEAL under way more. -/
def Block.addSeal (b : Block) (s : Seal) : Block := { b with cellar := { b.cellar with seals := b.cellar.seals ++ [s] } }

/-- A SEAL of an image that is programmed whole, with no WRITE under way, reads its first unit. -/
theorem installSealEff_of (hw : Waits b camp seq 0x03 d) (hm : b.cellar.mounted = true) (hop : d.bits 16 0 2 = 2)
    (hx : b.image? (d.field 18 2) = some x) (hc : x.camp = camp) (hstate : x.state ≠ 4) (hwhole : x.units ≤ x.mark)
    (hstaged : (b.cellar.staged.any fun s => s.image == x.id) = false) :
    installSealEff camp seq b = ((b.addSeal ⟨camp, seq, x.id, []⟩).start d).queueRead x.base (.seal camp seq) true 0 0 camp 2 := by
  rw [installSealEff, withInstall_of hw hm hop]
  simp only [hx, hc, hstaged, ne_eq, not_true_eq_false, if_false, Bool.false_eq_true]
  exact if_neg (not_or_intro hstate hwhole.not_gt)

/-- The blocks of an image, on every channel. -/
def Image.blocks (x : Image) : List Nat :=
  (List.range x.extents).flatMap fun e => (List.range 128).map fun chan => mapKey chan (x.firstExtent + e)

/-- An ERASE of an image that no directory entry names ends its SEALs and WRITEs, and its blocks wait for their erase. -/
theorem installEraseEff_of (hw : Waits b camp seq 0x03 d) (hm : b.cellar.mounted = true) (hop : d.bits 16 0 2 = 3)
    (hx : b.image? (d.field 18 2) = some x) (hc : x.camp = camp) (hnamed : b.imageNamed x = false) :
    installEraseEff camp seq b =
      (((b.stopSeals x.id).stopWrites x.id).setImage x.id fun y => { y with state := 4, toErase := x.blocks }).complete d 0 0 := by
  rw [installEraseEff, withInstall_of hw hm hop]
  simp only [hx, hc, hnamed, ne_eq, not_true_eq_false, if_false, Bool.false_eq_true]
  rfl

/-- Settles O12: the cellar is mounted, the image is the camp's own (or new, for CREATE), and each operation passes its checks. -/
theorem installsComplete : Obligations.InstallsComplete := by
  refine ⟨fun b q camp seq d e hw hm hop => ?_, fun b q camp seq d x hw hm hop hx hc hbad => ?_,
    fun b q camp seq d x hw hm hop hx hc hstate hwhole hstaged => ?_, fun b q camp seq d x hw hm hop hx hc hnamed => ?_⟩
  · intro id units need hid hnew hunits hcatalogue hquota hrun
    rw [exec_installCreate, installCreateEff_of hw hm hop ⟨hid, hnew, hunits, hcatalogue, hquota⟩ hrun]
    rfl
  · rw [exec_installWrite, installWriteEff_of hw hm hop hx hc hbad]
  · rw [exec_installSeal, installSealEff_of hw hm hop hx hc hstate hwhole hstaged]
    rfl
  · rw [exec_installErase, installEraseEff_of hw hm hop hx hc hnamed]
    rfl

end Sys2Proof.Machine
end

section
/-! PROOFS. The cellar's media (R177, R178, R181 to R184, R187, R189): which guard lets each command through, and what it makes of units, blocks
and controllers then. -/
namespace Sys2Proof.Machine

variable {b : Block} {u k chan l p t retries outcome bits pct temp chans ms : Nat} {s : Staged} {x : Image} {r : UnitRead} {m : Reloc}

/-- Can a channel program or erase: it is not paused, it is up, and it holds its grant (R184, R186, R189)? -/
def Block.canProgram (b : Block) (chan : Nat) : Prop :=
  (b.cc (chan / 16)).paused = false ∧ b.unitDark chan = false ∧ b.progGrant chan = true

/-! ### Programs (R177) -/

/-- A staged unit is programmed: it holds its data, and no read of it fails any more. -/
def Block.programUnit (b : Block) (u data : Nat) : Block :=
  { b with cellar := { b.cellar with
    units := sset (fun _ => 0) b.cellar.units u data
    lost := sset (fun _ => false) b.cellar.lost u false
    staged := dropFirst (fun t => t.unit == u && !t.done) b.cellar.staged } }

/-- Does a unit's program take: its channel is up with a block in its pool, its controller is not paused, the channel holds its grant, and the
block of the unit has not failed (R183, R184, R186, R189)? -/
def Block.takesProgram (b : Block) (u : Nat) : Prop :=
  b.unitDark u = false ∧ b.poolSize (unitChan u) ≠ 0 ∧ (b.cc (unitCc u)).paused = false ∧ b.progGrant (unitChan u) = true ∧
    (b.pblock (blockKey (unitChan u) (b.mapped (unitChan u) (unitBlock u)))).use ≠ 3

/-- A program that takes, of the unit at its image's WRITE_MARK, moves the mark on. -/
theorem unitProgramDoneEff_of (hs : b.cellar.staged.find? (fun s => s.unit == u && !s.done) = some s) (hx : b.image? s.image = some x)
    (hmark : x.base + x.mark = u) (h : b.takesProgram u) : unitProgramDoneEff u true b =
      ((((((b.programUnit u s.data).setImage x.id fun y => { y with mark := y.mark + 1 }).restage u).bump F.unitsProgrammed).bump
        (F.ccPrograms (unitCc u))).restChan (unitChan u)).settleWrite s.camp s.seq := by
  obtain ⟨hdark, hpool, hpause, hgrant, huse⟩ := h
  simp only [unitProgramDoneEff, hs, hx]
  exact (if_neg (not_not_intro hmark)).trans <| (if_neg (ne_true_of_eq_false hdark)).trans <| (if_neg hpool).trans <|
    (if_neg (ne_true_of_eq_false hpause)).trans <| (if_neg (ne_false_of_eq_true hgrant)).trans (if_pos ⟨trivial, huse⟩)

/-! ### Unit reads (R178, R181, R188) -/

/-- Does a channel's next read reach the flash: the cellar is mounted, the channel is up, its controller holds the grant, and the unit is not
lost already? -/
def Block.readsNext (b : Block) (chan : Nat) (r : UnitRead) : Prop :=
  b.nextRead chan = some r ∧ b.cellar.mounted = true ∧ b.unitDark r.unit = false ∧ b.readGrant (chan / 16) = true ∧
    sget (fun _ => false) b.cellar.lost r.unit = false

/-- A read that reached the flash leaves its queue and counts, with its retries. -/
def Block.takeRead (b : Block) (r : UnitRead) (retries : Nat) : Block :=
  ((b.leaveQueue r).countRead r.unit r.block).count F.readRetries (min 8 retries)

/-- A unit that decoded, with `bits` corrected, is counted at its controller. -/
def Block.countDecoded (b : Block) (k bits : Nat) : Block := ((b.bump F.unitsRead).bump (F.ccReads k)).count (F.ccBchBits k) bits

/-- A unit that decodes is delivered; one that took retries, or most of its code's strength, has its block queued for relocation. One that does
not decode is lost. -/
theorem cellarReadCompleteEff_of (h : b.readsNext chan r) : cellarReadCompleteEff chan retries outcome bits pct b =
    if outcome = 0 then
      ((if retries ≠ 0 ∨ min 100 (b.fget F.cellarConfigBchRelocPct) < pct then
          ((b.takeRead r retries).countDecoded (chan / 16) bits).queueReloc chan (unitBlock r.unit)
        else (b.takeRead r retries).countDecoded (chan / 16) bits).deliverUnit r).askRead (chan / 16)
    else (((if outcome = 2 then (b.takeRead r retries).bump F.crcFails else b.takeRead r retries).unitLost r.unit).failUnit r).askRead
      (chan / 16) := by
  obtain ⟨hr, hmount, hdark, hgrant, hlost⟩ := h
  simp only [cellarReadCompleteEff, hr]
  exact (if_neg (ne_false_of_eq_true hmount)).trans <| (if_neg (ne_true_of_eq_false hdark)).trans <|
    (if_neg (ne_false_of_eq_true hgrant)).trans (if_neg (ne_true_of_eq_false hlost))

/-! ### Relocations and erases (R181 to R183) -/

/-- May the relocation of a block start: it is queued and waits for no SEAL, no other runs on its channel, and the channel is idle, or the block
is past its hard limit? -/
def Block.relocatable (b : Block) (chan l : Nat) : Prop :=
  (b.cellar.relocs.any fun r => r.chan == chan && r.lblock == l) = true ∧
    (b.cellar.relocs.any fun r => r.chan == chan && decide (r.target ≠ 0)) = false ∧
    (b.cellar.relocs.any fun r => (r.chan == chan && r.lblock == l) && b.sealed r) = false ∧
    ((b.cellar.reads.any fun r => decide (unitChan r.unit = chan) && decide ((b.unitRank r).1 < 3)) = false ∨ b.pastHard chan l = true)

/-- A queued relocation gets its target. -/
def Block.aimReloc (b : Block) (chan l t : Nat) : Block :=
  { b with cellar := { b.cellar with relocs := markReloc chan l (t + 1) b.cellar.relocs } }

/-- A relocation that may start goes to the spare block, and queues the read of its first unit. -/
theorem relocationStartEff_of (h : b.relocatable chan l) (hcan : b.canProgram chan) (hspare : b.spare chan = some t) :
    relocationStartEff chan l b =
      (((b.aimReloc chan l t).setPBlock (blockKey chan t) { (b.aimReloc chan l t).pblock (blockKey chan t) with use := 1 }).noteSpares
        chan).queueRead (blockUnit chan l 0) .reloc true 0 0 0xFF 2 := by
  obtain ⟨hqueued, hrunning, hsealed, hidle⟩ := h
  obtain ⟨hpause, hdark, hgrant⟩ := hcan
  simp only [relocationStartEff, hspare]
  refine (if_neg ?_).trans (if_neg (ne_false_of_eq_true hgrant))
  rintro (h | h | h | h | h | ⟨hbusy, hsoft⟩)
  · exact ne_false_of_eq_true hqueued h
  · exact ne_true_of_eq_false hrunning h
  · exact ne_true_of_eq_false hpause h
  · exact ne_true_of_eq_false hdark h
  · exact ne_true_of_eq_false hsealed h
  · exact hidle.elim (ne_false_of_eq_true hbusy) (ne_true_of_eq_false hsoft)

/-- The switch of a relocation: the map names its target, which has no reads yet, and the old block waits for its erase (R181). -/
def Block.switchReloc (b : Block) (chan l : Nat) (m : Reloc) : Block :=
  let b1 : Block := { b with cellar := { b.cellar with
    relocs := dropFirst (· == m) b.cellar.relocs
    map := sset (fun k => k % 16384) b.cellar.map (mapKey chan l) (m.target - 1) } }
  let b2 := b1.setPBlock (blockKey chan (m.target - 1))
    { b1.pblock (blockKey chan (m.target - 1)) with use := 0, reads := 0, late := false, base := (b.cc (chan / 16)).penalty }
  b2.setPBlock (blockKey chan (b.mapped chan l)) { b2.pblock (blockKey chan (b.mapped chan l)) with use := 2 }

/-- A relocation is counted, with the 1,024 programs of its copy. -/
def Block.countReloc (b : Block) (k : Nat) : Block :=
  (((b.bump F.relocations).bump (F.ccRelocs k)).count F.unitsProgrammed 1024).count (F.ccPrograms k) 1024

/-- A relocation whose target failed waits again. -/
def Block.rearmReloc (b : Block) (m : Reloc) : Block :=
  { b with cellar := { b.cellar with relocs := b.cellar.relocs.map fun x => if x == m then { x with target := 0, copied := 0 } else x } }

section Switch

variable (hm : b.cellar.relocs.find? (fun r => r.chan == chan && r.lblock == l && decide (r.target ≠ 0)) = some m) (hcan : b.canProgram chan)
include hm hcan

/-- A complete copy switches the map, and its writes are committed. -/
theorem relocationSwitchEff_copied (hwhole : 1024 ≤ m.copied) : relocationSwitchEff chan l true b =
    (((b.switchReloc chan l m).countReloc (chan / 16)).commitWrites m.writes).restChan chan := by
  obtain ⟨hpause, hdark, hgrant⟩ := hcan
  simp only [relocationSwitchEff, hm]
  exact (if_neg (not_or_intro (ne_true_of_eq_false hpause) (not_or_intro (ne_true_of_eq_false hdark) fun hpart => hwhole.not_gt hpart.2))).trans <|
    if_neg (ne_false_of_eq_true hgrant)

/-- A target that failed is retired, and the relocation waits again (R183). -/
theorem relocationSwitchEff_failed : relocationSwitchEff chan l false b =
    (((b.rearmReloc m).dropRelocReads chan l).retireBlock chan (m.target - 1)).restChan chan := by
  obtain ⟨hpause, hdark, hgrant⟩ := hcan
  simp only [relocationSwitchEff, hm]
  exact (if_neg (not_or_intro (ne_true_of_eq_false hpause) (not_or_intro (ne_true_of_eq_false hdark) fun hok => Bool.false_ne_true hok.1))).trans <|
    if_neg (ne_false_of_eq_true hgrant)

end Switch

/-- What an erase leaves of a block: back in the pool with no reads, or retired where it failed (R181, R183). -/
def Block.erasedBlock (b : Block) (chan p : Nat) (ok : Bool) : PBlock :=
  { b.pblock (blockKey chan p) with
    use := if ok then 0 else 3, erases := (b.pblock (blockKey chan p)).erases + 1, reads := 0, late := false,
    base := (b.cc (chan / 16)).penalty }

/-- An old block is erased once no read of it is in flight. -/
theorem blockEraseEff_of {ok : Bool} (hcan : b.canProgram chan) (hflight : (b.pblock (blockKey chan p)).flight = 0)
    (hold : (b.pblock (blockKey chan p)).use = 2) : blockEraseEff chan p ok b =
      ((b.setPBlock (blockKey chan p) (b.erasedBlock chan p ok)).noteSpares chan).restChan chan := by
  obtain ⟨hpause, hdark, hgrant⟩ := hcan
  exact (if_neg (not_or_intro (ne_true_of_eq_false hpause) (not_or_intro (ne_true_of_eq_false hdark)
    (not_or_intro (not_not_intro hflight) fun hfree => hfree.1 hold)))).trans <| (if_neg (ne_false_of_eq_true hgrant)).trans (if_pos hold)

/-! ### Controllers (R187, R189) -/

/-- A controller that is mounting comes up with its channels while the firmware runs: its counts are restored, the blocks that they call worn are
queued, and the cellar accepts reads once no controller is mounting. -/
theorem cellarMountedEff_of (hstate : (b.cc k).state = 0) (hrun : b.boot.running = true) : cellarMountedEff k chans ms b =
    let b1 := b.restoreCounts k
    let b2 := (b1.setCc k { b1.cc k with state := 1, chans := chans }).queueWorn k
    let all := (List.range 8).all fun j => decide ((b2.cc j).state ≠ 0)
    ({ b2 with cellar := { b2.cellar with mounted := all }
               boot := { b2.boot with en := { b2.boot.en with cellar := all } } } : Block).cellarEvent 0x0410 k 0 0x7F ms 0 0xFF := by
  rw [cellarMountedEff, if_neg (not_or_intro (not_not_intro hstate) (ne_false_of_eq_true hrun))]

/-- A controller that is up saves the read counts of its blocks, and its penalty. -/
theorem readCountSaveEff_of (h : (b.cc k).state = 1) : readCountSaveEff k b =
    { b with cellar := { b.cellar with
      blocks := b.cellar.blocks.map fun kv => if kv.1 / 20480 / 16 = k then (kv.1, { kv.2 with saved := kv.2.reads, savedBase := kv.2.base }) else kv
      savedPenalty := sset (fun _ => 0) b.cellar.savedPenalty k (b.cc k).penalty } } :=
  if_pos h

/-- A channel that is up goes dark: the ballast catches its draw, and the rewrites that reach it end. -/
theorem cellarCcDarkEff_of (hstate : (b.cc k).state ≠ 2) (hchan : chan < 16) (hup : bitAt (b.cc k).chans chan = true) :
    cellarCcDarkEff k chan b =
      (((b.dropDraw (b.hostField k) (ccAsker k (1 + chan))).setCc k { b.cc k with chans := setBit (b.cc k).chans chan false }).endDarkWrites).cellarEvent
        0x0414 k 0 (16 * k + chan) 0 0 0xFF :=
  (if_neg hstate).trans ((if_pos hchan).trans (if_pos hup))

/-- Settles O13: a channel that can program ends its program, relocation or erase; a read that reaches the flash goes by its outcome; a
controller mounts, saves or loses a channel by its state. A thermal sample has no guard. -/
theorem cellarCompletes : Obligations.CellarCompletes := by
  refine ⟨fun b q u s x hs hx hmark hdark hpool hpause hgrant huse => ?_, fun b q chan retries bits pct r hr hmount hdark hgrant hlost => ?_,
    fun b q chan l t hqueued hrunning hpause hdark hsealed hidle hspare hgrant => ?_,
    fun b q chan l r hr hpause hdark hgrant => ⟨fun hwhole => ?_, ?_⟩, fun b q chan p ok hpause hdark hflight hgrant hold => ?_,
    fun _ _ _ _ => exec_cellarThermalSample .., fun b q k chans ms hstate hrun => ?_, fun b q k hstate => ?_,
    fun b q k chan hstate hchan hup => ?_⟩
  · intro b1
    rw [exec_unitProgramDone, unitProgramDoneEff_of hs hx hmark ⟨hdark, hpool, hpause, hgrant, huse⟩]
    rfl
  · have hreads : b.readsNext chan r := ⟨hr, hmount, hdark, hgrant, hlost⟩
    intro b1 b2
    simp only [exec_cellarReadComplete, cellarReadCompleteEff_of hreads]
    exact ⟨rfl, rfl, rfl⟩
  · intro b1
    rw [exec_relocationStart, relocationStartEff_of ⟨hqueued, hrunning, hsealed, hidle⟩ ⟨hpause, hdark, hgrant⟩ hspare]
    rfl
  · intro b1 b2 b3
    rw [exec_relocationSwitch, relocationSwitchEff_copied hr ⟨hpause, hdark, hgrant⟩ hwhole]
    rfl
  · intro b1
    rw [exec_relocationSwitch, relocationSwitchEff_failed hr ⟨hpause, hdark, hgrant⟩]
    rfl
  · rw [exec_blockErase, blockEraseEff_of ⟨hpause, hdark, hgrant⟩ hflight hold]
    rfl
  · intro b1 b2 all
    rw [exec_cellarMounted, cellarMountedEff_of hstate hrun]
  · rw [exec_readCountSave, readCountSaveEff_of hstate]
  · rw [exec_cellarCcDark, cellarCcDarkEff_of hstate hchan hup]

end Sys2Proof.Machine
end

section
/-! PROOFS. Words that compute (R200, R201, R204, R205, R207, R208, R210, R221): an issued word puts its result into its thread's registers. -/
namespace Sys2Proof.Machine

variable {b0 : Block} {t : Nat}

/-- An issued word with an immediate puts its operation's value into its destination (R207). -/
theorem immOp_of {major : Nat} (h : Issues b0 t (ofMajor major) = true) (op : W64 → Nat → W64) :
    b0.immOp t major op =
      let b := AtIssue b0 t
      let w := b.fetch t
      b.compute t w (b.thread t) ((b.thread t).wg (wRd w) (op ((b.thread t).rg (wRs1 w)) (wImm w))) :=
  runWord_of h _

/-- PLOG on two predicates: AND, OR, XOR, ANDN (R208). -/
theorem plogEff_two (h : Issues b0 t (ofMajor 0x0A) = true) (hf : wFunc ((AtIssue b0 t).fetch t) < 4) :
    plogEff t b0 =
      let b := AtIssue b0 t
      let w := b.fetch t
      let th := b.thread t
      b.compute t w th (th.wp (wRd w % 8) (plogOp (wFunc w) (th.rp (wRs1 w % 8)) (th.rp (wRs2 w % 8)))) := by
  rw [plogEff, runWord_of h]
  dsimp only
  split
  · omega
  · omega
  · omega
  · rfl

/-- Settles O15: each word computes on the block at its issue; PLOG goes by its FUNC. -/
theorem scalarWordsComplete : Obligations.ScalarWordsComplete := by
  intro b0 q t
  dsimp only
  refine ⟨fun h => ?_, fun h => ?_, fun h => ?_, fun h => ?_, fun h => ?_, fun h => ?_, fun h => ?_, fun h => ?_, fun h => ?_,
    fun h => ⟨fun hf => ?_, fun hf => ?_, fun hf => ?_, fun hf => ?_⟩⟩
  · rw [exec_alu, aluEff, runWord_of h]
  · rw [exec_addi, addiEff, immOp_of h]
  · rw [exec_andi, andiEff, immOp_of h]
  · rw [exec_ori, oriEff, immOp_of h]
  · rw [exec_xori, xoriEff, immOp_of h]
  · rw [exec_shi, shiEff, immOp_of h]
  · rw [exec_liq, liqEff, runWord_of h]
  · rw [exec_cmp, cmpEff, runWord_of h]
  · rw [exec_fpu, fpuEff, runWord_of h]
  · rw [exec_plog, plogEff_two h hf]
  · rw [exec_plog, plogEff, runWord_of h]
    simp only [hf]
  · rw [exec_plog, plogEff, runWord_of h]
    simp only [hf]
  · rw [exec_plog, plogEff, runWord_of h]
    simp only [hf]

/-- Settles O18: each word computes on the block at its issue, from the elements that its guard and VL pick. -/
theorem vectorWordsComplete : Obligations.VectorWordsComplete := by
  intro b0 q t
  dsimp only
  refine ⟨fun h => ?_, fun h => ?_, fun h => ?_, fun h => ?_, fun h => ?_⟩
  · rw [exec_vop, vopEff, runWord_of h]
  · rw [exec_vops, vopsEff, runWord_of h]
  · rw [exec_vred, vredEff, runWord_of h]
  · rw [exec_vcmp, vcmpEff, runWord_of h]
  · rw [exec_smup, smupEff, runWord_of h]

end Sys2Proof.Machine
end

section
/-! PROOFS. Words on memory (R203, R207, R212 to R214, R220): which checks of its operands an issued word passes, and what it issues. -/
namespace Sys2Proof.Machine

variable {b0 : Block} {t : Nat}

/-- An atomic that R134 allows, of unpoisoned operands and an aligned address outside the own window, is issued (R212). -/
theorem atomEff_of (h : Issues b0 t (ofMajor 0x18) = true) :
    let b := AtIssue b0 t
    let w := b.fetch t
    let th := b.thread t
    let op := bitsOf (wFunc w) 0 4
    let ty := bitsOf (wFunc w) 4 3
    let n := atomBytes ty
    th.gBad (wRs1 w) = false → th.gBad (wRs2 w) = false → (op = 0 → th.gBad (wRd w) = false) → atomOk op ty = true →
      0x40000 ≤ th.gn (wRs1 w) → th.gn (wRs1 w) % n = 0 →
    atomEff t b0 = (b.issue t (.atomic op ty (th.gn (wRd w) % 2 ^ (8 * n)) (th.gn (wRs2 w) % 2 ^ (8 * n))) [th.gn (wRs1 w)] n false
      (.g (wRd w) false n)).advance t := by
  intro b w th op ty n h1 h2 hd hok hlow halign
  have hbad : (th.gBad (wRs2 w) || (decide (op = 0) && th.gBad (wRd w))) = false := by
    by_cases h0 : op = 0
    · simp only [h2, hd h0, Bool.and_false, Bool.or_self]
    · simp only [h2, h0, decide_false, Bool.false_and, Bool.or_self]
  have hrefused : ¬ (atomOk op ty = false ∨ th.gn (wRs1 w) < 0x40000 ∨ th.gn (wRs1 w) % n ≠ 0) := by
    rintro (hx | hx | hx)
    · exact ne_false_of_eq_true hok hx
    · exact hlow.not_gt hx
    · exact hx halign
  rw [atomEff, runWord_of h]
  exact (if_neg (ne_true_of_eq_false h1)).trans <| (if_neg hrefused).trans <| by
    simp only [b, w, th, op] at hbad
    simp only [hbad, Bool.false_eq_true, if_false, b, w, th, op, ty, n]

/-- Settles O16: each word runs on the block at its issue, past the checks of poison and alignment that its conditions meet. -/
theorem memoryWordsComplete : Obligations.MemoryWordsComplete := by
  intro b0 q t
  dsimp only
  refine ⟨fun h hg ha => ?_, fun h hg ha => ?_, fun h hg ha => ?_, fun h hg ha => ?_, fun h hg1 hg2 ha => ?_, fun h hg1 hg2 ha => ?_,
    fun h hg1 hg2 hd hok hlow ha => ?_, fun h hg => ?_, fun h hg hv => ?_, fun h => ?_⟩
  · rw [exec_ld, ldEff, runWord_of h]
    simp only [hg, ha, ne_eq, not_true_eq_false, Bool.false_eq_true, if_false]
  · rw [exec_st, stEff, runWord_of h]
    simp only [hg, ha, ne_eq, not_true_eq_false, Bool.false_eq_true, if_false]
  · rw [exec_vld, vldEff, runWord_of h]
    simp only [hg, ha, Bool.false_eq_true, if_false]
  · rw [exec_vst, vstEff, runWord_of h]
    simp only [hg, ha, Bool.false_eq_true, if_false]
  · rw [exec_vlds, vldsEff, runWord_of h]
    simp only [hg1, hg2, ha, Bool.false_eq_true, or_self, if_false]
  · rw [exec_vsts, vstsEff, runWord_of h]
    simp only [hg1, hg2, ha, Bool.false_eq_true, or_self, if_false]
  · rw [exec_atom, atomEff_of h hg1 hg2 hd hok hlow ha]
  · rw [exec_madd, maddEff, runWord_of h]
    simp only [hg, Bool.false_eq_true, if_false]
  · have hodd : ¬ (wVfunc ((AtIssue b0 t).fetch t) = 1 ∧ ((AtIssue b0 t).thread t).vl % 2 = 1) := fun hx => by
      have := hv hx.1
      omega
    rw [exec_vaddm, vaddmEff, runWord_of h]
    simp only [hg, hodd, Bool.false_eq_true, if_false]
  · rw [exec_fence, fenceEff, runWord_of h]

end Sys2Proof.Machine
end

section
/-! PROOFS. The frame of a computing word (R195, R206, R221): registers that a thread's operations leave, the registers that each row writes, and
what a word changes of the block. -/
namespace Sys2Proof.Machine

/-! ### Masks of poison bits (R221) -/

/-- A number with bit `r` set, cut at that bit. -/
theorem exists_of_testBit {m r : Nat} (h : m.testBit r = true) : ∃ k l, l < 2 ^ r ∧ m = 2 ^ r * (2 * k + 1) + l := by
  obtain ⟨k, hk⟩ : Odd (m / 2 ^ r) := Nat.odd_iff.mpr (by simpa [Nat.testBit_eq_decide_div_mod_eq] using h)
  exact ⟨k, m % 2 ^ r, Nat.mod_lt _ (Nat.two_pow_pos r), hk ▸ (Nat.div_add_mod m (2 ^ r)).symm⟩

/-- Setting or clearing a bit leaves the others. -/
theorem bitAt_setBit_ne {m r s : Nat} (on : Bool) (h : s ≠ r) : bitAt (setBit m r on) s = bitAt m s := by
  unfold setBit bitAt
  rw [Nat.one_shiftLeft]
  split
  · rw [Nat.testBit_or, Nat.testBit_two_pow_of_ne h.symm, Bool.or_false]
  · split
    · next hr =>
      obtain ⟨k, l, hl, rfl⟩ := exists_of_testBit hr
      have hclear : 2 ^ r * (2 * k + 1) + l - 2 ^ r = 2 ^ r * (2 * k) + l := by rw [Nat.mul_succ]; omega
      rw [hclear, Nat.testBit_two_pow_mul_add _ hl, Nat.testBit_two_pow_mul_add _ hl]
      split
      · rfl
      · obtain ⟨i, rfl⟩ := Nat.exists_eq_add_of_lt (lt_of_le_of_ne (not_lt.mp ‹¬ s < r›) h.symm)
        rw [show r + i + 1 - r = i + 1 by omega, Nat.testBit_succ, Nat.testBit_succ, show (2 * k + 1) / 2 = 2 * k / 2 by omega]
    · rfl

theorem bitAt_setBits_ne {s : Nat} (m : Nat) {rs : List Nat} (on : Bool) (h : s ∉ rs) : bitAt (setBits m rs on) s = bitAt m s := by
  induction rs generalizing m with
  | nil => rfl
  | cons r rs ih =>
    obtain ⟨hr, hrs⟩ := not_or.mp (mt List.mem_cons.mpr h)
    exact (ih _ hrs).trans (bitAt_setBit_ne on hr)

/-! ### What a word may touch of its thread -/

/-- A thread without what a computing word may write: its registers and their poison, the PC, and, where `flags` says so, the sticky flags. -/
def ThreadSt.besides (flags : Bool) (th : ThreadSt) : ThreadSt :=
  { th with g := [], p := [], v := [], gp := 0, pp := 0, vp := 0, pc := 0, fpflags := if flags then 0 else th.fpflags }

/-- From `x` to `y` a thread changed in the registers named at most, their poison, the PC and, where `flags` says so, the sticky flags. -/
structure ThreadSt.Touches (g p v : List Nat) (flags : Bool) (x y : ThreadSt) : Prop where
  besides : y.besides flags = x.besides flags
  general : ∀ r, r ∉ g → y.rg r = x.rg r ∧ y.gBad r = x.gBad r
  predicate : ∀ r, r ∉ p → y.rp r = x.rp r ∧ y.pBad r = x.pBad r
  vector : ∀ r, r ∉ v → y.rv r = x.rv r ∧ y.vBad r = x.vBad r

section Touches
variable {g p v : List Nat} {flags : Bool} {x y z : ThreadSt} {r : Nat}

theorem ThreadSt.Touches.refl (x : ThreadSt) : x.Touches g p v flags x := ⟨rfl, fun _ _ => ⟨rfl, rfl⟩, fun _ _ => ⟨rfl, rfl⟩, fun _ _ => ⟨rfl, rfl⟩⟩

theorem ThreadSt.Touches.trans (h : x.Touches g p v flags y) (h' : y.Touches g p v flags z) : x.Touches g p v flags z where
  besides := h'.besides.trans h.besides
  general r hr := ⟨(h'.general r hr).1.trans (h.general r hr).1, (h'.general r hr).2.trans (h.general r hr).2⟩
  predicate r hr := ⟨(h'.predicate r hr).1.trans (h.predicate r hr).1, (h'.predicate r hr).2.trans (h.predicate r hr).2⟩
  vector r hr := ⟨(h'.vector r hr).1.trans (h.vector r hr).1, (h'.vector r hr).2.trans (h.vector r hr).2⟩

theorem touches_wg (x : ThreadSt) (a : W64) (h : r ∈ g) : x.Touches g p v flags (x.wg r a) := by
  unfold ThreadSt.wg
  split
  · exact .refl x
  · refine ⟨rfl, fun s hs => ⟨?_, rfl⟩, fun _ _ => ⟨rfl, rfl⟩, fun _ _ => ⟨rfl, rfl⟩⟩
    have hne : s ≠ r := fun e => hs (e ▸ h)
    simp only [ThreadSt.rg, sget_sset_ne hne]

theorem touches_wp (x : ThreadSt) (a : W64) (h : r ∈ p) : x.Touches g p v flags (x.wp r a) := by
  unfold ThreadSt.wp
  split
  · exact .refl x
  · refine ⟨rfl, fun _ _ => ⟨rfl, rfl⟩, fun s hs => ⟨?_, rfl⟩, fun _ _ => ⟨rfl, rfl⟩⟩
    have hne : s ≠ r := fun e => hs (e ▸ h)
    simp only [ThreadSt.rp, sget_sset_ne hne]

theorem touches_wv (x : ThreadSt) (a : BitVec 1024) (h : r ∈ v) : x.Touches g p v flags (x.wv r a) where
  besides := rfl
  general _ _ := ⟨rfl, rfl⟩
  predicate _ _ := ⟨rfl, rfl⟩
  vector _ hs := ⟨sget_sset_ne fun e => hs (e ▸ h), rfl⟩

theorem touches_fpflags (x : ThreadSt) (n : Nat) : x.Touches g p v true { x with fpflags := n } :=
  ⟨rfl, fun _ _ => ⟨rfl, rfl⟩, fun _ _ => ⟨rfl, rfl⟩, fun _ _ => ⟨rfl, rfl⟩⟩

theorem touches_pc (x : ThreadSt) (n : Nat) : x.Touches g p v flags { x with pc := n } :=
  ⟨rfl, fun _ _ => ⟨rfl, rfl⟩, fun _ _ => ⟨rfl, rfl⟩, fun _ _ => ⟨rfl, rfl⟩⟩

/-- The poison of a result goes to the registers that the word writes, and to no other (R221). -/
theorem touches_mark (x0 x : ThreadSt) {u : Use} (hg : u.gw ⊆ g) (hp : u.pw ⊆ p) (hv : u.vw ⊆ v) : x.Touches g p v flags (x0.mark x u) where
  besides := rfl
  general s hs := ⟨rfl, congrArg (decide (s ≠ 0) && ·) (bitAt_setBits_ne x.gp _ fun h => hs (hg (List.mem_of_mem_filter h)))⟩
  predicate s hs := ⟨rfl, congrArg (decide (s ≠ 0) && ·) (bitAt_setBits_ne x.pp _ fun h => hs (hp (List.mem_of_mem_filter h)))⟩
  vector _ hs := ⟨rfl, bitAt_setBits_ne x.vp _ fun h => hs (hv h)⟩

end Touches

/-! ### The registers that computing words write (R207, R208) -/

/-- A word writes at most the registers named. -/
def Use.Writes (u : Use) (g p v : List Nat) : Prop := u.gw ⊆ g ∧ u.pw ⊆ p ∧ u.vw ⊆ v

section Uses
variable {w m : Nat}

/-- The scalar words write g[RD]. -/
theorem uses_scalar (h : ofMajor m w = true) (hm : m ∈ [0x01, 0x02, 0x03, 0x04, 0x05, 0x06, 0x07, 0x09]) : (uses w).Writes [wRd w] [] [] := by
  have hw : wMajor w = m := by simpa [ofMajor] using h
  have huses : (uses w).gw = [wRd w] ∧ (uses w).pw = [] ∧ (uses w).vw = [] := by
    simp only [List.mem_cons, List.not_mem_nil, or_false] at hm
    rcases hm with rfl | rfl | rfl | rfl | rfl | rfl | rfl | rfl <;> simp only [uses, hw, Use.none, and_self]
    split
    · exact ⟨rfl, rfl, rfl⟩
    · split <;> exact ⟨rfl, rfl, rfl⟩
  obtain ⟨hg, hp, hv⟩ := huses
  exact ⟨hg ▸ List.Subset.refl _, hp ▸ List.Subset.refl _, hv ▸ List.Subset.refl _⟩

/-- CMP writes p[RD]. -/
theorem uses_cmp (h : ofMajor 0x08 w = true) : (uses w).Writes [] [wRd w % 8] [] := by
  have hw : wMajor w = 0x08 := by simpa [ofMajor] using h
  simp [Use.Writes, uses, hw, Use.none]

/-- PLOG writes g[RD] under FUNC 6, else p[RD]. -/
theorem uses_plog (h : ofMajor 0x0A w = true) (hf : wFunc w ≤ 6) :
    (uses w).Writes (if wFunc w = 6 then [wRd w] else []) (if wFunc w = 6 then [] else [wRd w % 8]) [] := by
  have hw : wMajor w = 0x0A := by simpa [ofMajor] using h
  have hcases : wFunc w ≤ 3 ∨ wFunc w = 4 ∨ wFunc w = 5 ∨ wFunc w = 6 := by omega
  rcases hcases with h3 | h4 | h5 | h6
  · have h6 : wFunc w ≠ 6 := by omega
    simp [Use.Writes, uses, hw, Use.none, h3, h6]
  · simp [Use.Writes, uses, hw, Use.none, h4]
  · simp [Use.Writes, uses, hw, Use.none, h5]
  · simp [Use.Writes, uses, hw, Use.none, h6]

/-- VOP and VOPS write v[VD]. -/
theorem uses_vop (h : ofMajor m w = true) (hm : m = 0x20 ∨ m = 0x21) : (uses w).Writes [] [] [wVd w] := by
  have hw : wMajor w = m := by simpa [ofMajor] using h
  rcases hm with rfl | rfl <;> simp [Use.Writes, uses, hw, Use.none]

/-- VRED writes g[RS]. -/
theorem uses_vred (h : ofMajor 0x22 w = true) : (uses w).Writes [wVrs w] [] [] := by
  have hw : wMajor w = 0x22 := by simpa [ofMajor] using h
  simp [Use.Writes, uses, hw, Use.none]

/-- VCMP writes p[VD]. -/
theorem uses_vcmp (h : ofMajor 0x23 w = true) : (uses w).Writes [] [wVd w % 8] [] := by
  have hw : wMajor w = 0x23 := by simpa [ofMajor] using h
  simp [Use.Writes, uses, hw, Use.none]

/-- SMUP writes v[VD], g[RS] and g[RS + 1]. -/
theorem uses_smup (h : ofMajor 0x24 w = true) : (uses w).Writes [wVrs w, wVrs w + 1] [] [wVd w] := by
  have hw : wMajor w = 0x24 := by simpa [ofMajor] using h
  simp [Use.Writes, uses, hw, Use.none]

/-- CSRR writes g[RD]. -/
theorem uses_csrr (h : ofSys 0x030 w = true) : (uses w).Writes [wRd w] [] [] := by
  have hw : wMajor w = 0x38 ∧ wSfunc w = 0x030 := by simpa [ofSys] using h
  simp [Use.Writes, uses, sysUses, hw, Use.none]

end Uses

/-! ### What a word may change of the block -/

section Frame
variable {b b' x x' : Block} {q : List Instr} {t w : Nat} {g p v : List Nat} {flags : Bool} {new : ThreadSt} {row : Nat → Bool}

/-- A block whose thread `t` alone was written, in the registers named at most. -/
theorem computesOnly_setThread (h : (b.thread t).Touches g p v flags new) : ComputesOnly b (b.setThread t new) t g p v flags := by
  obtain ⟨hbesides, hg, hp, hv⟩ := h
  refine ⟨rfl, fun _ hu => thread_setThread_ne _ _ hu, ?_⟩
  rw [thread_setThread_self]
  refine ⟨?_, hg, hp, hv⟩
  revert hbesides
  generalize b.thread t = x
  intro h
  cases x
  cases new
  cases flags <;> simp_all [ThreadSt.besides]

/-- A computing word changes what its new register values change, where it marks no other register. -/
theorem computesOnly_compute (hu : (uses w).Writes g p v) (h : (b.thread t).Touches g p v flags new) :
    ComputesOnly b (b.compute t w (b.thread t) new) t g p v flags := by
  obtain ⟨hg, hp, hv⟩ := hu
  exact computesOnly_setThread (h.trans ((touches_mark _ _ hg hp hv).trans (touches_pc _ _)))

theorem computesOnly_advance : ComputesOnly b (b.advance t) t g p v flags := computesOnly_setThread (touches_pc _ _)

theorem issues_row (h : Issues b t row = true) : row ((AtIssue b t).fetch t) = true := by
  simp only [Issues, Bool.and_eq_true] at h
  obtain ⟨⟨⟨⟨_, hrow⟩, _⟩, _⟩, _⟩ := h
  exact hrow

theorem issues_legal (h : Issues b t row = true) : legal ((AtIssue b t).fetch t) = true := by
  simp only [Issues, Bool.and_eq_true] at h
  obtain ⟨⟨⟨_, hlegal⟩, _⟩, _⟩ := h
  exact hlegal

/-- What an answer changes is what the command changes. -/
theorem computesOnly_of {c : Instr} (hc : exec c ⟨b, q⟩ = .next ⟨x', q⟩) (e : exec c ⟨b, q⟩ = .next ⟨b', q⟩)
    (h : ComputesOnly x x' t g p v flags) : ComputesOnly x b' t g p v flags := by
  rw [hc] at e
  cases e
  exact h

end Frame

/-- PLOG has a FUNC of 0 to 6 (R208). -/
theorem plog_func {b : Block} {t : Nat} (h : Issues b t (ofMajor 0x0A) = true) : wFunc ((AtIssue b t).fetch t) ≤ 6 := by
  have hw : wMajor ((AtIssue b t).fetch t) = 0x0A := by simpa [ofMajor] using issues_row h
  have hlegal := issues_legal h
  simp only [legal, hw, Bool.and_eq_true, decide_eq_true_eq] at hlegal
  exact hlegal.2

/-- PLOG writes the register that its FUNC names. -/
theorem plog_computesOnly {b b' : Block} {q : List Instr} {t : Nat} (h : Issues b t (ofMajor 0x0A) = true)
    (e : exec (.plog t) ⟨b, q⟩ = .next ⟨b', q⟩) : let w := (AtIssue b t).fetch t
    ComputesOnly (AtIssue b t) b' t (if wFunc w = 6 then [wRd w] else []) (if wFunc w = 6 then [] else [wRd w % 8]) [] false := by
  obtain ⟨-, -, -, -, -, -, -, -, -, hplog⟩ := scalarWordsComplete b q t
  obtain ⟨htwo, hnot, hset, hget⟩ := hplog h
  intro w
  have hf : wFunc w ≤ 6 := plog_func h
  have huses := uses_plog (issues_row h) hf
  have hcases : wFunc w < 4 ∨ wFunc w = 4 ∨ wFunc w = 5 ∨ wFunc w = 6 := by omega
  rcases hcases with hf | hf | hf | hf
  · exact computesOnly_of (htwo hf) e (computesOnly_compute huses (touches_wp _ _ (by rw [if_neg (hf.trans (by decide)).ne]; exact .head _)))
  · exact computesOnly_of (hnot hf) e (computesOnly_compute huses (touches_wp _ _ (by rw [if_neg (by omega)]; exact .head _)))
  · exact computesOnly_of (hset hf) e (computesOnly_compute huses (touches_wp _ _ (by rw [if_neg (by omega)]; exact .head _)))
  · exact computesOnly_of (hget hf) e (computesOnly_compute huses (touches_wg _ _ (by rw [if_pos hf]; exact .head _)))

/-- A scalar word writes g[RD]. -/
theorem computesOnly_scalar {b : Block} {t m : Nat} (h : Issues b t (ofMajor m) = true)
    (hm : m ∈ [0x01, 0x02, 0x03, 0x04, 0x05, 0x06, 0x07, 0x09]) (a : W64) : let w := (AtIssue b t).fetch t
    let th := (AtIssue b t).thread t
    ComputesOnly (AtIssue b t) ((AtIssue b t).compute t w th (th.wg (wRd w) a)) t [wRd w] [] [] false :=
  computesOnly_compute (uses_scalar (issues_row h) hm) (touches_wg _ _ (.head _))

/-- Settles O46: what an issued word writes are the registers that its row names; a branch, CSRW and YIELD write none. -/
theorem computeFrame : Obligations.ComputeFrame := by
  intro b b' q t
  obtain ⟨halu, haddi, handi, hori, hxori, hshi, hliq, hcmp, hfpu, -⟩ := scalarWordsComplete b q t
  obtain ⟨hvop, hvops, hvred, hvcmp, hsmup⟩ := vectorWordsComplete b q t
  obtain ⟨hbr, -, -, -, -, -, -, hcsrr, hcsrw, -, hyield, -⟩ := controlWordsComplete b q t
  refine ⟨fun h e => computesOnly_of (halu h) e (computesOnly_scalar h (by decide) _),
    fun h e => computesOnly_of (haddi h) e (computesOnly_scalar h (by decide) _),
    fun h e => computesOnly_of (handi h) e (computesOnly_scalar h (by decide) _),
    fun h e => computesOnly_of (hori h) e (computesOnly_scalar h (by decide) _),
    fun h e => computesOnly_of (hxori h) e (computesOnly_scalar h (by decide) _),
    fun h e => computesOnly_of (hshi h) e (computesOnly_scalar h (by decide) _),
    fun h e => computesOnly_of (hliq h) e (computesOnly_scalar h (by decide) _),
    fun h e => computesOnly_of (hcmp h) e (computesOnly_compute (uses_cmp (issues_row h)) ?_),
    fun h e => computesOnly_of (hfpu h) e (computesOnly_compute (uses_scalar (issues_row h) (by decide)) ?_), plog_computesOnly,
    fun h hc hp e => computesOnly_of (hbr h hc hp) e ?_,
    fun h e => computesOnly_of (hvop h) e (computesOnly_compute (uses_vop (issues_row h) (.inl rfl)) ?_),
    fun h e => computesOnly_of (hvops h) e (computesOnly_compute (uses_vop (issues_row h) (.inr rfl)) ?_),
    fun h e => computesOnly_of (hvred h) e (computesOnly_compute (uses_vred (issues_row h)) ?_),
    fun h e => computesOnly_of (hvcmp h) e (computesOnly_compute (uses_vcmp (issues_row h)) ?_),
    fun h e => computesOnly_of (hsmup h) e (computesOnly_compute (uses_smup (issues_row h)) ?_),
    fun h e => computesOnly_of (hcsrr h) e (computesOnly_compute (uses_csrr (issues_row h)) (touches_wg _ _ (.head _))),
    fun h hg e => computesOnly_of (hcsrw h hg) e ?_, fun h e => computesOnly_of (hyield h) e computesOnly_advance⟩
  · exact (touches_wp _ _ (.head _)).trans (touches_fpflags _ _)
  · exact (touches_wg _ _ (.head _)).trans (touches_fpflags _ _)
  · split
    · exact computesOnly_setThread (touches_pc _ _)
    · exact computesOnly_advance
  · exact (touches_wv _ _ (.head _)).trans (touches_fpflags _ _)
  · exact (touches_wv _ _ (.head _)).trans (touches_fpflags _ _)
  · exact (touches_wg _ _ (.head _)).trans (touches_fpflags _ _)
  · exact (touches_wp _ _ (.head _)).trans (touches_fpflags _ _)
  · exact (touches_wv _ _ (.head _)).trans <| (touches_wg _ _ (.head _)).trans <|
      (touches_wg _ _ (.tail _ (.head _))).trans (touches_fpflags _ _)
  · split
    · exact computesOnly_setThread ((touches_pc _ _).trans (touches_fpflags _ _))
    · exact computesOnly_advance

end Sys2Proof.Machine
end

section
/-! PROOFS. The fault of a thread (R150, R154, R224, R225): what its JOB is then, what becomes of a resident kernel's requests, and what it leaves. -/
namespace Sys2Proof.Machine

variable {b b' : Block} {t code pc addr id : Nat} {j : Job}

/-- A job found by its number has that number. -/
theorem job?_id (h : b.job? id = some j) : j.id = id := by
  have hid := List.find?_some h
  exact eq_of_beq hid

/-- A change of a JOB that keeps its number is what is then found (R225). -/
theorem job?_setJob (h : b.job? id = some j) {g : Job → Job} (hg : ∀ x, (g x).id = x.id) : (b.setJob id g).job? id = some (g j) := by
  unfold Block.job? Block.setJob
  have hkey : ((fun x : Job => x.id == id) ∘ fun x => if x.id = id then g x else x) = fun x => x.id == id := by
    funext x
    simp only [Function.comp_apply]
    split
    · rw [hg]
    · rfl
  rw [List.find?_map, hkey, show b.tc.jobs.find? (fun x => x.id == id) = some j from h, Option.map_some, if_pos (job?_id h)]

/-- What an end of rows and an event leave: the threads, their operations and JOBs, the memories. -/
def Block.running (b : Block) : ThreadPart × MemPart := (b.tc, b.mem)

theorem sameRunning_endRows (b : Block) (j : Job) (status body : Nat) : Same Block.running b (b.endRows j status body) := by
  unfold Block.endRows
  exact .foldl (fun b n => show Same Block.running b (b.setSlot n _) from rfl) ..

/-- The rows that a kernel's end ends depend on the serving part alone (R154). -/
theorem endRows_serve (h : b'.serve = b.serve) (j : Job) (status body : Nat) : (b'.endRows j status body).serve = (b.endRows j status body).serve := by
  unfold Block.endRows
  rw [show b'.liveRows j = b.liveRows j by simp only [Block.liveRows, h]]
  generalize b.liveRows j = ns
  induction ns generalizing b b' with
  | nil => exact h
  | cons n ns ih =>
    refine ih ?_
    simp only [Block.setSlot, h]

/-- Has a JOB neither faulted nor ended? -/
def Job.unended (j : Job) : Prop := j.fault = none ∧ j.ended = 0

/-- A JOB at its first fault (R225). -/
def Job.faulted (j : Job) (t code pc addr : Nat) : Job :=
  { j with phase := 3, fault := some (code, keyThr t, keyCore t, keyField t, pc, addr) }

/-- How a first fault stops its thread's JOB or kernel (R225). -/
def Block.stopBy (b : Block) (j : Job) (t code pc addr : Nat) : Block :=
  let b1 := (b.bump (F.threadFaults (keyField t))).setJob j.id fun j => j.faulted t code pc addr
  if j.kernel then b1.kernelFault j code
  else ((b1.bump F.jobsFaulted).logFault code t pc addr j.camp j.seq).raise 0x0920 (keyField t) j.camp (jobPayload code t pc addr)

/-- The first fault of a thread by parity stops its JOB or kernel (R224). -/
theorem faultBy_parity {unit kind : Nat} (h : b.job? (b.thread t).job = some j) (hu : j.unended) :
    b.faultBy unit kind t 6 pc addr = b.stopBy j t 6 pc addr := by
  obtain ⟨hfault, hended⟩ := hu
  have hj : (b.bump (F.threadFaults (keyField t))).job? ((b.bump (F.threadFaults (keyField t))).thread t).job = some j := h
  simp only [Block.faultBy, hj, hfault, hended, Option.isSome_none, Bool.false_eq_true, ne_eq, not_true_eq_false, or_self, if_false]
  rfl

/-- A parity error ends the rows of a resident kernel DATA_LOST (R150). -/
theorem kernelFault_parity (b : Block) (j : Job) : b.kernelFault j 6 = b.endRows j 0x30 0 := rfl

/-- The log takes the first fault, and leaves all but registers (R230). -/
theorem logFault_frame (b : Block) (code t pc addr camp seq : Nat) : ∃ r, b.logFault code t pc addr camp seq = { b with regs := r } := by
  unfold Block.logFault
  split
  · exact ⟨_, rfl⟩
  · exact ⟨_, rfl⟩

theorem sameRunning_logFault (b : Block) (code t pc addr camp seq : Nat) : Same Block.running b (b.logFault code t pc addr camp seq) := by
  obtain ⟨r, h⟩ := logFault_frame b code t pc addr camp seq
  rw [h]
  rfl

theorem logFault_serve (b : Block) (code t pc addr camp seq : Nat) : (b.logFault code t pc addr camp seq).serve = b.serve := by
  obtain ⟨r, h⟩ := logFault_frame b code t pc addr camp seq
  rw [h]

/-- A stop by parity leaves what runs, but for the JOB. -/
theorem stopBy_parity_running (b : Block) (j : Job) (t pc addr : Nat) :
    Same Block.running (b.setJob j.id fun j => j.faulted t 6 pc addr) (b.stopBy j t 6 pc addr) := by
  unfold Block.stopBy
  dsimp only
  split
  · rw [kernelFault_parity]
    exact sameRunning_endRows ..
  · exact sameRunning_logFault ..

/-- A stop by parity ends the rows of a resident kernel, and no other. -/
theorem stopBy_parity_serve (b : Block) (j : Job) (t pc addr : Nat) :
    (b.stopBy j t 6 pc addr).serve = if j.kernel then (b.endRows j 0x30 0).serve else b.serve := by
  unfold Block.stopBy
  dsimp only
  split
  · rw [kernelFault_parity]
    refine endRows_serve (b := b) ?_ ..
    rfl
  · rw [raise_serve, logFault_serve]
    rfl

/-- Settles O48: the parity error's count and event leave what the fault reads; the fault stops the JOB, and ends a resident kernel's rows. -/
theorem parityEndsJob : Obligations.ParityEndsJob := by
  intro b q t j hlive hj hfault hended pc b'
  let b1 := (b.bump (F.parityErrors (keyField t))).raise 0x0170 (keyField t) j.camp (jobPayload 6 t pc 0)
  have hid : j.id = (b.thread t).job := job?_id hj
  have hserve : b1.serve = b.serve := raise_serve ..
  have hj1 : b1.job? (b1.thread t).job = some j := hj
  have hstop : b' = b1.stopBy j t 6 pc 0 := faultBy_parity hj1 ⟨hfault, hended⟩
  have hrunning : Same Block.running (b1.setJob j.id fun j => j.faulted t 6 pc 0) b' := hstop ▸ stopBy_parity_running ..
  have htc : b'.tc = (b1.setJob j.id fun j => j.faulted t 6 pc 0).tc := congrArg Prod.fst hrunning
  refine ⟨?_, ?_, rfl, ?_, congrArg Prod.snd hrunning, ?_, ?_⟩
  · rw [exec_regfileParity, regfileParityEff_of hlive hj]
  · rw [Block.job?, htc]
    exact job?_setJob (b := b1) (hid ▸ hj) fun _ => rfl
  · rw [hstop, stopBy_parity_serve, endRows_serve hserve, hserve]
  · rw [htc]
    rfl
  · rw [htc]
    rfl

end Sys2Proof.Machine
end

section
/-! PROOFS. What a word of a thread leaves as it issues (R214): the memories, the fabric, the host's links and the engines, whatever the word is and
however it ends; of the operations in flight, all but its own stay. -/
namespace Sys2Proof.Machine

variable {b b' c : Block} {t f n : Nat}

/-! ### Parts that an issue leaves -/

/-- A block with the parts of `c` that a word may change. -/
def Block.apart (c b : Block) : Block :=
  { b with tc := c.tc, arr := c.arr, rat := c.rat, dram := c.dram, regs := c.regs, ring := c.ring, boot := c.boot, serve := c.serve, tier := c.tier, free := c.free }

/-- What is apart from those parts, the tiers, and the operations in flight. -/
def Block.steady (c b : Block) : Block × TierPart × List MemOp := (c.apart b, b.tier, b.tc.ops)

theorem Same.steady_apart (h : Same (Block.steady c) b b') : Same (Block.apart c) b b' := congrArg Prod.fst h
theorem Same.steady_tier (h : Same (Block.steady c) b b') : b'.tier = b.tier := congrArg (·.2.1) h
theorem Same.steady_ops (h : Same (Block.steady c) b b') : b'.tc.ops = b.tc.ops := congrArg (·.2.2) h

theorem steady_setThread (b : Block) (t : Nat) (x : ThreadSt) : Same (Block.steady c) b (b.setThread t x) := rfl
theorem steady_setCore (b : Block) (f core : Nat) (x : CoreSt) : Same (Block.steady c) b (b.setCore f core x) := rfl
theorem steady_setDesk (b : Block) (f : Nat) (d : Desk) : Same (Block.steady c) b (b.setDesk f d) := rfl
theorem steady_setArray (b : Block) (f n : Nat) (x : ArrSt) : Same (Block.steady c) b (b.setArray f n x) := rfl
theorem steady_setCtl (b : Block) (f p : Nat) (x : CtlSt) : Same (Block.steady c) b (b.setCtl f p x) := rfl
theorem steady_count (b : Block) (x : Fld) (n : Nat) : Same (Block.steady c) b (b.count x n) := rfl
theorem steady_raise (b : Block) (code source camp payload : Nat) : Same (Block.steady c) b (b.raise code source camp payload) := rfl

/-! ### Desks (R65 to R74) -/

theorem steady_delivered (b : Block) (f : Nat) (rs : List Req) : Same (Block.steady c) b (b.delivered f rs) := by
  obtain ⟨_, _, _, h⟩ := delivered_frame f rs b
  rw [h]
  rfl

theorem steady_giveBack (b : Block) (f n : Nat) : Same (Block.steady c) b (b.giveBack f n) := by
  obtain ⟨_, _, _, _, h⟩ := giveBack_frame f n b
  rw [h]
  rfl

theorem steady_removeReqs (b : Block) (f : Nat) (out : Req → Bool) : Same (Block.steady c) b (b.removeReqs f out) :=
  .ite (.refl b) (.trans (steady_setDesk ..) (steady_giveBack ..))

theorem steady_release (b : Block) (f : Nat) (who : Asker) : Same (Block.steady c) b (b.release f who) := by
  unfold Block.release
  split
  · exact (steady_removeReqs b f _).trans (.trans (steady_setDesk ..) (steady_giveBack ..))
  · exact .refl b

theorem steady_granted (b : Block) (f : Nat) (r : Req) (now : Nat) : Same (Block.steady c) b { b with tc := b.tc.granted f r now } := by
  obtain ⟨_, _, h⟩ := granted_frame b.tc f r now
  rw [h]
  rfl

theorem steady_request (b : Block) (f : Nat) (who : Asker) (cls camp amount : Nat) (standing : Bool) :
    Same (Block.steady c) b (b.request f who cls camp amount standing) := by
  unfold Block.request
  dsimp only
  split
  · split
    · exact .trans (.trans (steady_count ..) (steady_raise ..)) (steady_granted ..)
    · exact .trans (steady_count ..) (steady_raise ..)
  · split
    · exact steady_setDesk ..
    · exact .trans (.trans (steady_setDesk ..) (steady_setDesk ..)) (steady_delivered ..)

theorem steady_chargeWide (b : Block) (f core thr n : Nat) (g : Grant) : Same (Block.steady c) b (b.chargeWide f core thr n g) := by
  unfold Block.chargeWide
  dsimp only
  have hmoved : ∀ d, Same (Block.steady c) b ((b.removeReqs f fun q => q.clock && q.who == wideAsker core).setDesk f d) := fun _ =>
    (steady_removeReqs b f _).trans (steady_setDesk ..)
  split
  · exact (hmoved _).trans ((steady_granted ..).trans (steady_removeReqs ..))
  · exact hmoved _

/-! ### Faults (R222, R225, R230) -/

theorem steady_endRows (b : Block) (j : Job) (status body : Nat) : Same (Block.steady c) b (b.endRows j status body) := by
  unfold Block.endRows
  exact .foldl (fun b n => show Same (Block.steady c) b (b.setSlot n _) from rfl) ..

theorem steady_kernelFault (b : Block) (j : Job) (code : Nat) : Same (Block.steady c) b (b.kernelFault j code) :=
  .ite (steady_endRows ..) (.trans (b' := b.tick) rfl (steady_endRows ..))

theorem steady_logFault (b : Block) (code t pc addr camp seq : Nat) : Same (Block.steady c) b (b.logFault code t pc addr camp seq) := by
  obtain ⟨r, h⟩ := logFault_frame b code t pc addr camp seq
  rw [h]
  rfl

theorem steady_consumedIn (b : Block) (f camp w : Nat) : Same (Block.steady c) b (b.consumedIn f camp w) :=
  .trans (.trans (steady_count ..) (steady_count ..)) (steady_raise ..)
theorem steady_protDenied (b : Block) (camp unit kind seq addr : Nat) : Same (Block.steady c) b (b.protDenied camp unit kind seq addr) :=
  .trans (steady_count ..) (steady_raise ..)

theorem steady_stopBy (b : Block) (j : Job) (t code pc addr : Nat) : Same (Block.steady c) b (b.stopBy j t code pc addr) := by
  have hjob : Same (Block.steady c) b ((b.bump (F.threadFaults (keyField t))).setJob j.id fun j => j.faulted t code pc addr) := rfl
  unfold Block.stopBy
  dsimp only
  split
  · exact hjob.trans (steady_kernelFault ..)
  · exact hjob.trans (.trans (.trans (steady_count ..) (steady_logFault ..)) (steady_raise ..))

theorem steady_faultBy (b : Block) (unit kind t code pc addr : Nat) : Same (Block.steady c) b (b.faultBy unit kind t code pc addr) := by
  unfold Block.faultBy
  dsimp only
  split
  · exact steady_count ..
  · next j _ =>
    have hstop : Same (Block.steady c) b (b.stopBy j t code pc addr) := steady_stopBy ..
    refine .ite (steady_count ..) (.ite ?poison (.ite ?denied hstop))
    case poison => exact hstop.trans (.foldl (fun b _ => steady_consumedIn b ..) ..)
    case denied => exact hstop.trans (steady_protDenied ..)

theorem steady_fault (b : Block) (t code addr : Nat) : Same (Block.steady c) b (b.fault t code addr) := steady_faultBy ..

/-! ### Threads and barriers (R209, R214) -/

theorem steady_compute (b : Block) (t w : Nat) (th new : ThreadSt) : Same (Block.steady c) b (b.compute t w th new) := steady_setThread ..

theorem steady_advance (b : Block) (t : Nat) : Same (Block.steady c) b (b.advance t) := steady_setThread ..

theorem steady_wakeFence (b : Block) (t : Nat) : Same (Block.steady c) b (b.wakeFence t) := by
  unfold Block.wakeFence
  split
  · exact .ite (steady_setThread ..) (.refl b)
  · exact .refl b

theorem steady_setVl (b : Block) (t rd vl ew : Nat) : Same (Block.steady c) b (b.setVl t rd vl ew) := by
  unfold Block.setVl
  dsimp only
  split
  · exact .trans (steady_setThread ..) (steady_setCore ..)
  · exact steady_setThread ..

theorem steady_openBarrier (b : Block) (f core : Nat) : Same (Block.steady c) b (b.openBarrier f core) := by
  unfold Block.openBarrier
  dsimp only
  split
  · exact .foldl (fun b t => steady_setThread b t _) ..
  · exact .refl b

/-! ### An operation joins those in flight (R123, R214) -/

theorem steady_askBurst (b : Block) (f n cls camp : Nat) : Same (Block.steady c) b (b.askBurst f n cls camp) := by
  unfold Block.askBurst
  dsimp only
  exact .ite (.refl b) (.ite (steady_setCtl ..) (.trans (steady_setCtl ..) (steady_request ..)))

theorem steady_noteOp (b : Block) (o : MemOp) : Same (Block.steady c) b (b.noteOp o) := by
  refine .foldl (fun b a => ?_) ..
  unfold Block.noteQueue
  split
  · exact .refl b
  · exact .ite (.refl b) (steady_askBurst ..)

/-- From `b` to `b'` at most one operation joins those in flight, one of thread `t` at its PC in `b` that has not been performed, and the rest is
steady. -/
structure Issuing (c : Block) (t : Nat) (b b' : Block) : Prop where
  apart : Same (Block.apart c) b b'
  tier : b'.tier = b.tier
  ops : b'.tc.ops = b.tc.ops ∨ ∃ o, b'.tc.ops = b.tc.ops ++ [o] ∧ o.thread = some t ∧ o.performed = false ∧ o.pc = (b.thread t).pc

theorem Same.issuing (h : Same (Block.steady c) b b') : Issuing c t b b' :=
  ⟨h.steady_apart, h.steady_tier, .inl h.steady_ops⟩

theorem Issuing.steady {b'' : Block} (h : Issuing c t b b') (h' : Same (Block.steady c) b' b'') : Issuing c t b b'' :=
  ⟨h.apart.trans h'.steady_apart, h'.steady_tier.trans h.tier, h'.steady_ops ▸ h.ops⟩

theorem issuing_issue (b : Block) (t : Nat) (kind : MemKind) (addrs : List Nat) (width : Nat) (poison : Bool) (dst : LoadDst) :
    Issuing c t b (b.issue t kind addrs width poison dst) := by
  unfold Block.issue
  dsimp only
  refine .steady ?_ (steady_noteOp ..)
  exact ⟨rfl, rfl, .inr ⟨_, rfl, rfl, rfl, rfl⟩⟩

theorem issuing_loadFrom (b : Block) (t : Nat) (addrs : List Nat) (width : Nat) (dst : LoadDst) : Issuing c t b (b.loadFrom t addrs width dst) :=
  (issuing_issue ..).steady (steady_advance ..)

theorem Issuing.ite {x y : Block} {p : Prop} [Decidable p] (hx : Issuing c t b x) (hy : Issuing c t b y) : Issuing c t b (if p then x else y) := by
  split
  · exact hx
  · exact hy

theorem issuing_fault (b : Block) (t code addr : Nat) : Issuing c t b (b.fault t code addr) := (steady_fault ..).issuing

theorem issuing_storeTo (b : Block) (t : Nat) (addrs : List Nat) (width val : Nat) (poison : Bool) :
    Issuing c t b (b.storeTo t addrs width val poison) := by
  unfold Block.storeTo
  split
  · exact issuing_fault ..
  · exact .ite ((issuing_issue ..).steady (steady_fault ..)) ((issuing_issue ..).steady (steady_advance ..))

theorem issuing_vLoad (b : Block) (t r : Nat) (addrs : List Nat) (width : Nat) : Issuing c t b (b.vLoad t r addrs width) :=
  .ite (Same.issuing (.trans (steady_setThread ..) (steady_advance ..))) (issuing_loadFrom ..)

theorem issuing_vStore (b : Block) (t r : Nat) (addrs : List Nat) (width : Nat) : Issuing c t b (b.vStore t r addrs width) :=
  .ite (steady_advance ..).issuing (issuing_storeTo ..)

theorem issuing_addTo (b : Block) (t a width n ty val : Nat) (poison : Bool) : Issuing c t b (b.addTo t a width n ty val poison) :=
  .ite (issuing_fault ..) (.ite ((issuing_issue ..).steady (steady_fault ..)) ((issuing_issue ..).steady (steady_advance ..)))

/-! ### A word, past its fetch (R151, R195) -/

section Word
variable {row : Nat → Bool} {k : Nat → ThreadSt → Block → Block} (hi : AtIssue b t = b.issued t)
include hi

theorem atIssue_steady : Same (Block.steady c) b (AtIssue b t) := by
  rw [hi]
  exact steady_setCore ..

theorem atIssue_thread : (AtIssue b t).thread t = b.thread t := by
  rw [hi]
  rfl

/-- What holds of a block that a fault or nothing has changed, and of the block as the word runs, holds once the word has its slot. -/
theorem runWord_induction {P : Block → Prop} (hsteady : ∀ x, Same (Block.steady b) b x → P x)
    (hk : P (k ((AtIssue b t).fetch t) ((AtIssue b t).thread t) (AtIssue b t))) : P (b.runWord t row k) := by
  rcases runWord_cases b t row k with ⟨-, h⟩ | h | h | h
  · rw [h]
    exact hk
  · rw [h]
    exact hsteady _ (.refl b)
  · rw [h]
    exact hsteady _ ((atIssue_steady hi).trans (.trans (steady_setThread ..) (steady_fault ..)))
  · rw [h]
    exact hsteady _ ((atIssue_steady hi).trans (steady_fault ..))

/-- What a word issues as it runs, it issues from the block before its slot. -/
theorem Issuing.atIssue (h : Issuing c t (AtIssue b t) b') : Issuing c t b b' := by
  have hsteady : Same (Block.steady c) b (AtIssue b t) := atIssue_steady hi
  have hops := h.ops
  rw [hsteady.steady_ops, atIssue_thread hi] at hops
  exact ⟨hsteady.steady_apart.trans h.apart, h.tier.trans hsteady.steady_tier, hops⟩

theorem issuing_runWord (hk : ∀ w th x, Issuing b t x (k w th x)) : Issuing b t b (b.runWord t row k) :=
  runWord_induction hi (fun _ => Same.issuing) (.atIssue hi (hk ..))

theorem issuing_runWord_steady (hk : ∀ w th x, Same (Block.steady b) x (k w th x)) : Issuing b t b (b.runWord t row k) :=
  issuing_runWord hi fun w th x => (hk w th x).issuing

end Word

end Sys2Proof.Machine
end

section
/-! PROOFS. The words of a thread, each as it issues: what it leaves (R214). -/
namespace Sys2Proof.Machine

variable {b b' c : Block} {t f n : Nat}

section Words
variable (hi : AtIssue b t = b.issued t)
include hi

/-! ### Words on memory (R203, R212, R213) -/

theorem issuing_ldEff : Issuing b t b (ldEff t b) :=
  issuing_runWord hi fun _ _ _ => .ite (issuing_fault ..) (.ite (issuing_fault ..) (issuing_loadFrom ..))

theorem issuing_stEff : Issuing b t b (stEff t b) :=
  issuing_runWord hi fun _ _ _ => .ite (issuing_fault ..) (.ite (issuing_fault ..) (issuing_storeTo ..))

theorem issuing_vldEff : Issuing b t b (vldEff t b) := by
  refine issuing_runWord hi fun _ _ _ => .ite (issuing_fault ..) ?_
  split
  · exact issuing_fault ..
  · exact issuing_vLoad ..

theorem issuing_vstEff : Issuing b t b (vstEff t b) := by
  refine issuing_runWord hi fun _ _ _ => .ite (issuing_fault ..) ?_
  split
  · exact issuing_fault ..
  · exact issuing_vStore ..

theorem issuing_vldsEff : Issuing b t b (vldsEff t b) := by
  refine issuing_runWord hi fun _ _ _ => .ite (issuing_fault ..) ?_
  split
  · exact issuing_fault ..
  · exact issuing_vLoad ..

theorem issuing_vstsEff : Issuing b t b (vstsEff t b) := by
  refine issuing_runWord hi fun _ _ _ => .ite (issuing_fault ..) ?_
  split
  · exact issuing_fault ..
  · exact issuing_vStore ..

theorem issuing_atomEff : Issuing b t b (atomEff t b) :=
  issuing_runWord hi fun _ _ _ => .ite (issuing_fault ..) <| .ite (Same.issuing (.trans (steady_count ..) (steady_fault ..))) <|
    .ite ((issuing_issue ..).steady (steady_fault ..)) ((issuing_issue ..).steady (steady_advance ..))

theorem issuing_maddEff : Issuing b t b (maddEff t b) :=
  issuing_runWord hi fun _ _ _ => .ite (issuing_fault ..) (issuing_addTo ..)

theorem issuing_vaddmEff : Issuing b t b (vaddmEff t b) :=
  issuing_runWord hi fun _ _ _ => .ite (issuing_fault ..) (.ite (issuing_fault ..) (issuing_addTo ..))

/-! ### Words with an immediate (R207) -/

theorem issuing_immOp (major : Nat) (op : W64 → Nat → W64) : Issuing b t b (b.immOp t major op) :=
  issuing_runWord_steady (k := fun w th b => b.compute t w th (th.wg (wRd w) (op (th.rg (wRs1 w)) (wImm w)))) hi fun _ _ _ => steady_compute ..

/-! ### Words of control (R207, R209, R214, R215, R223) -/

theorem issuing_brEff : Issuing b t b (brEff t b) :=
  issuing_runWord_steady hi fun _ _ _ => .ite (steady_fault ..) <| .ite (steady_fault ..) <| .ite (steady_setThread ..) (steady_advance ..)

theorem issuing_callEff : Issuing b t b (callEff t b) :=
  issuing_runWord_steady hi fun _ _ _ => .ite (steady_fault ..) (steady_setThread ..)

theorem issuing_jrEff : Issuing b t b (jrEff t b) :=
  issuing_runWord_steady hi fun _ _ _ => .ite (steady_fault ..) (.ite (steady_fault ..) (steady_setThread ..))

theorem issuing_setvlEff : Issuing b t b (setvlEff t b) := by
  refine issuing_runWord_steady hi fun _ _ x => .ite (steady_fault ..) <| .ite ?narrow <| .ite ?charged <| .ite ?powered <| .ite ?waits ?asks
  case narrow => exact .trans (steady_advance ..) (steady_setVl ..)
  case charged => exact .trans (.trans (.trans (steady_setCore ..) (steady_setThread ..)) (steady_advance ..)) (steady_setVl ..)
  case powered => exact .trans (steady_advance ..) (steady_setVl ..)
  case waits => exact steady_setThread ..
  case asks => exact .trans (.trans (steady_setThread ..) (steady_count ..)) (steady_request ..)

theorem issuing_rationReqEff : Issuing b t b (rationReqEff t b) :=
  issuing_runWord_steady hi fun _ _ _ => .ite (steady_fault ..) (.trans (steady_setThread ..) (steady_request ..))

theorem issuing_rationRelEff : Issuing b t b (rationRelEff t b) := by
  refine issuing_runWord_steady hi fun _ th x => ?_
  dsimp only
  split
  · exact .trans (.trans (.ite (.refl x) (steady_chargeWide ..)) (.trans (steady_setCore ..) (steady_release ..))) (steady_setThread ..)
  · exact steady_setThread ..

theorem issuing_fenceEff : Issuing b t b (fenceEff t b) :=
  issuing_runWord_steady hi fun _ _ _ => .trans (steady_setThread ..) (steady_wakeFence ..)

theorem issuing_csrwEff : Issuing b t b (csrwEff t b) :=
  issuing_runWord_steady hi fun _ _ _ => .ite (steady_fault ..) (.ite (steady_setThread ..) (steady_advance ..))

theorem issuing_tbarEff : Issuing b t b (tbarEff t b) :=
  issuing_runWord_steady hi fun _ _ _ => .trans (steady_setThread ..) (steady_openBarrier ..)

theorem issuing_yieldEff : Issuing b t b (yieldEff t b) :=
  issuing_runWord_steady hi fun _ _ _ => .trans (steady_setCore ..) (steady_advance ..)

theorem issuing_pchkEff : Issuing b t b (pchkEff t b) :=
  issuing_runWord_steady hi fun _ _ _ => .trans (steady_setThread ..) (steady_count ..)

theorem issuing_endCmdEff : Issuing b t b (endCmdEff t b) :=
  issuing_runWord_steady hi fun _ _ _ => .ite (steady_fault ..) <|
    .trans (.ite (.trans (steady_setThread ..) (steady_setCore ..)) (steady_setThread ..)) (steady_openBarrier ..)

/-! ### Words to an array (R211, R239, R240) -/

/-- What holds of a block that a fault or a status has changed, and of the block as an array takes the word, holds once the word has its slot. -/
theorem arrCommand_induction {P : Block → Prop} {sfunc : Nat} {second : Bool} {k : Nat → Nat → Nat → ThreadSt → Block → Block}
    (hsteady : ∀ x, Same (Block.steady b) b x → P x) (hk : ∀ w m sel th, P (k w m sel th (AtIssue b t))) : P (b.arrCommand t sfunc second k) := by
  refine runWord_induction hi hsteady ?_
  dsimp only
  split
  · exact hsteady _ ((atIssue_steady hi).trans (steady_fault ..))
  · split
    · exact hsteady _ ((atIssue_steady hi).trans (steady_setThread ..))
    · split
      · exact hsteady _ ((atIssue_steady hi).trans (steady_setThread ..))
      · split
        · exact hsteady _ ((atIssue_steady hi).trans (steady_setThread ..))
        · exact hk ..

theorem issuing_arrCommand {sfunc : Nat} {second : Bool} {k : Nat → Nat → Nat → ThreadSt → Block → Block}
    (hk : ∀ w m sel th x, Same (Block.steady b) x (k w m sel th x)) : Issuing b t b (b.arrCommand t sfunc second k) :=
  arrCommand_induction hi (fun _ => Same.issuing) fun w m sel th => .atIssue hi (hk w m sel th _).issuing

theorem issuing_arrPutEff : Issuing b t b (arrPutEff t b) :=
  issuing_arrCommand hi fun _ _ _ _ _ => .ite (.trans (steady_setThread ..) (steady_count ..)) (.trans (steady_setArray ..) (steady_setThread ..))

theorem issuing_arrRunEff : Issuing b t b (arrRunEff t b) :=
  issuing_arrCommand hi fun _ _ _ _ _ => .ite (.trans (steady_setArray ..) (.trans (steady_setThread ..) (steady_setThread ..))) <|
    .ite (.trans (steady_setThread ..) (steady_count ..)) (.trans (steady_setArray ..) (.trans (steady_setThread ..) (steady_setThread ..)))

theorem issuing_arrStatEff : Issuing b t b (arrStatEff t b) := issuing_arrCommand hi fun _ _ _ _ _ => steady_setThread ..

theorem issuing_arrWaitEff : Issuing b t b (arrWaitEff t b) :=
  issuing_arrCommand hi fun _ _ _ _ _ => .ite (steady_setThread ..) (steady_setThread ..)

end Words

/-! ### An abort (R240) -/

/-- Operations leave with their hold on the frames that they read. -/
theorem apart_removeOps (b : Block) (out : MemOp → Bool) : Same (Block.apart c) b (b.removeOps out) := by
  have hframe : ∀ (x : Block) (k : Nat), Same (Block.apart c) x
      { x with tier := { x.tier with frames := supd (fun _ => FrameUse.init) x.tier.frames k fun u => { u with reads := u.reads - 1 } } } :=
    fun _ _ => rfl
  have hread : ∀ (x : Block) (o : MemOp), Same (Block.apart c) x (x.readReturned o) := fun _ _ => .foldl hframe ..
  have hreads : Same (Block.apart c) b ((b.tc.ops.filter out).foldl Block.readReturned b) := .foldl hread ..
  exact hreads.trans rfl

theorem apart_absorb (b : Block) (f n : Nat) : Same (Block.apart c) b (b.absorb f n) := by
  unfold Block.absorb
  dsimp only
  split
  · exact .refl b
  · exact (apart_removeOps ..).trans (steady_setArray ..).steady_apart

theorem apart_abortArray (b : Block) (f n : Nat) : Same (Block.apart c) b (b.abortArray f n) := by
  unfold Block.abortArray
  dsimp only
  split
  · exact .refl b
  · exact (apart_absorb b f n).trans <| ((steady_removeReqs ..).trans (steady_removeReqs ..)).steady_apart.trans <|
      (apart_removeOps ..).trans ((steady_setArray ..).trans ((steady_count ..).trans (steady_count ..))).steady_apart

/-- An abort takes operations of its array away, and leaves the rest of the block. -/
theorem apart_arrAbortEff (hi : AtIssue b t = b.issued t) : Same (Block.apart b) b (arrAbortEff t b) := by
  refine arrCommand_induction hi (fun _ => Same.steady_apart) fun w m _ _ => (atIssue_steady hi).steady_apart.trans ?_
  dsimp only
  split
  · exact ((steady_setArray ..).trans (steady_setThread ..)).steady_apart
  · exact (apart_abortArray ..).trans (steady_setThread ..).steady_apart

/-! ### Any word (R201, R214) -/

/-- A word's answer is its effect. -/
theorem issuing_of {g : Nat → Block → Block} {i : Instr} {u : Nat} {q : List Instr} (hw : some u = some t)
    (hx : exec i ⟨b, q⟩ = .next ⟨g u b, q⟩) (e : exec i ⟨b, q⟩ = .next ⟨b', q⟩) (h : Issuing b t b (g t b)) : Issuing b t b b' := by
  cases hw
  rw [hx] at e
  cases e
  exact h

/-- A word but an abort issues at most its own operation. -/
theorem issuing_word {i : Instr} {q : List Instr} (hw : i.word? = some t) (hi : AtIssue b t = b.issued t) (hne : i ≠ .arrAbort t)
    (e : exec i ⟨b, q⟩ = .next ⟨b', q⟩) : Issuing b t b b' := by
  cases i with
  | alu => exact issuing_of hw (exec_alu b q _) e (issuing_runWord_steady hi fun _ _ _ => steady_compute ..)
  | addi => exact issuing_of hw (exec_addi b q _) e (issuing_immOp hi ..)
  | andi => exact issuing_of hw (exec_andi b q _) e (issuing_immOp hi ..)
  | ori => exact issuing_of hw (exec_ori b q _) e (issuing_immOp hi ..)
  | xori => exact issuing_of hw (exec_xori b q _) e (issuing_immOp hi ..)
  | shi => exact issuing_of hw (exec_shi b q _) e (issuing_immOp hi ..)
  | liq => exact issuing_of hw (exec_liq b q _) e (issuing_runWord_steady hi fun _ _ _ => steady_compute ..)
  | cmp => exact issuing_of hw (exec_cmp b q _) e (issuing_runWord_steady hi fun _ _ _ => steady_compute ..)
  | fpu => exact issuing_of hw (exec_fpu b q _) e (issuing_runWord_steady hi fun _ _ _ => steady_compute ..)
  | plog => exact issuing_of hw (exec_plog b q _) e (issuing_runWord_steady hi fun _ _ _ => steady_compute ..)
  | ld => exact issuing_of hw (exec_ld b q _) e (issuing_ldEff hi)
  | st => exact issuing_of hw (exec_st b q _) e (issuing_stEff hi)
  | vld => exact issuing_of hw (exec_vld b q _) e (issuing_vldEff hi)
  | vst => exact issuing_of hw (exec_vst b q _) e (issuing_vstEff hi)
  | vlds => exact issuing_of hw (exec_vlds b q _) e (issuing_vldsEff hi)
  | vsts => exact issuing_of hw (exec_vsts b q _) e (issuing_vstsEff hi)
  | atom => exact issuing_of hw (exec_atom b q _) e (issuing_atomEff hi)
  | madd => exact issuing_of hw (exec_madd b q _) e (issuing_maddEff hi)
  | br => exact issuing_of hw (exec_br b q _) e (issuing_brEff hi)
  | call => exact issuing_of hw (exec_call b q _) e (issuing_callEff hi)
  | jr => exact issuing_of hw (exec_jr b q _) e (issuing_jrEff hi)
  | vop => exact issuing_of hw (exec_vop b q _) e (issuing_runWord_steady hi fun _ _ _ => steady_compute ..)
  | vops => exact issuing_of hw (exec_vops b q _) e (issuing_runWord_steady hi fun _ _ _ => steady_compute ..)
  | vred => exact issuing_of hw (exec_vred b q _) e (issuing_runWord_steady hi fun _ _ _ => steady_compute ..)
  | vcmp => exact issuing_of hw (exec_vcmp b q _) e (issuing_runWord_steady hi fun _ _ _ => steady_compute ..)
  | smup => exact issuing_of hw (exec_smup b q _) e (issuing_runWord_steady hi fun _ _ _ => steady_compute ..)
  | vaddm => exact issuing_of hw (exec_vaddm b q _) e (issuing_vaddmEff hi)
  | setvl => exact issuing_of hw (exec_setvl b q _) e (issuing_setvlEff hi)
  | rationReq => exact issuing_of hw (exec_rationReq b q _) e (issuing_rationReqEff hi)
  | rationRel => exact issuing_of hw (exec_rationRel b q _) e (issuing_rationRelEff hi)
  | fence => exact issuing_of hw (exec_fence b q _) e (issuing_fenceEff hi)
  | arrPut => exact issuing_of hw (exec_arrPut b q _) e (issuing_arrPutEff hi)
  | arrRun => exact issuing_of hw (exec_arrRun b q _) e (issuing_arrRunEff hi)
  | arrAbort => exact absurd (congrArg Instr.arrAbort (Option.some.inj hw)) hne
  | arrStat => exact issuing_of hw (exec_arrStat b q _) e (issuing_arrStatEff hi)
  | arrWait => exact issuing_of hw (exec_arrWait b q _) e (issuing_arrWaitEff hi)
  | csrr => exact issuing_of hw (exec_csrr b q _) e (issuing_runWord_steady hi fun _ _ _ => steady_compute ..)
  | csrw => exact issuing_of hw (exec_csrw b q _) e (issuing_csrwEff hi)
  | tbar => exact issuing_of hw (exec_tbar b q _) e (issuing_tbarEff hi)
  | yield => exact issuing_of hw (exec_yield b q _) e (issuing_yieldEff hi)
  | pchk => exact issuing_of hw (exec_pchk b q _) e (issuing_pchkEff hi)
  | endCmd => exact issuing_of hw (exec_endCmd b q _) e (issuing_endCmdEff hi)
  | _ => cases hw

/-- Any word leaves what is apart from the cores and from what its fault or its array may change. -/
theorem apart_word {i : Instr} {q : List Instr} (hw : i.word? = some t) (hi : AtIssue b t = b.issued t)
    (e : exec i ⟨b, q⟩ = .next ⟨b', q⟩) : Same (Block.apart b) b b' := by
  by_cases hne : i = .arrAbort t
  · subst hne
    rw [exec_arrAbort] at e
    cases e
    exact apart_arrAbortEff hi
  · exact (issuing_word hw hi hne e).apart

/-- Settles O47: any word leaves the memories with all that is apart; any but an abort leaves the tiers, and adds at most its operation. -/
theorem wordsLeaveMemory : Obligations.WordsLeaveMemory := by
  intro b b' q i t hw hi e
  have hapart : b.apart b' = b.apart b := apart_word hw hi e
  have hmem : b'.mem = b.mem := by
    show (b.apart b').mem = (b.apart b).mem
    rw [hapart]
  refine ⟨hapart, fun a => ⟨by rw [hmem], by rw [hmem]⟩, fun hne => ?_⟩
  obtain ⟨-, htier, hops⟩ := issuing_word hw hi hne e
  exact ⟨htier, hops⟩

end Sys2Proof.Machine
end

section
/-! PROOFS. Words to a matrix array (R239, R240, R248): which array takes an issued word, and what each word then does. -/
namespace Sys2Proof.Machine

variable {b0 : Block} {t : Nat}

/-- The array that SEL names for the word of a thread: one of the three of the thread's pod (R239). -/
abbrev Block.selected (b : Block) (t : Nat) : Nat := 3 * (keyCore t / 72) + (b.thread t).gn (wRs1 (b.fetch t)) % 4

/-- Does an array take a thread's word: operands without poison, an array that SEL names, that the thread may command, and that is ready? -/
structure Block.Takes (b : Block) (t : Nat) : Prop where
  sel : (b.thread t).gBad (wRs1 (b.fetch t)) = false
  operand : (b.thread t).gBad (wRs2 (b.fetch t)) = false
  named : (b.thread t).gn (wRs1 (b.fetch t)) % 4 ≠ 3
  held : b.mayCommand (b.thread t) (keyField t) (b.selected t) = true
  ready : bitAt ((b.fieldSt (keyField t)).shown (b.fieldSt (keyField t)).arrays) (b.selected t) = true

/-- An issued word that an array takes passes every check of an ARR word. -/
theorem arrCommand_of {sfunc : Nat} (h : Issues b0 t (ofSys sfunc) = true) (ht : (AtIssue b0 t).Takes t) (second : Bool)
    (k : Nat → Nat → Nat → ThreadSt → Block → Block) :
    b0.arrCommand t sfunc second k =
      let b := AtIssue b0 t
      let w := b.fetch t
      k w (b.selected t) ((b.thread t).gn (wRs1 w)) (b.thread t) b := by
  obtain ⟨hsel, hoperand, hnamed, hheld, hready⟩ := ht
  rw [Block.arrCommand, runWord_of h]
  simp only [hsel, hoperand, hnamed, hheld, hready, Bool.false_eq_true, Bool.true_eq_false, and_false, or_self, if_false]

/-- Settles O19: the array takes the word, and its state picks the branch. A bank takes a PUT unless it is the one that runs; a RUN starts an
idle array, or queues its bank behind the other one. -/
theorem arrayWordsComplete : Obligations.ArrayWordsComplete := by
  intro b0 q t
  dsimp only
  intro hsel hoperand hnamed hheld hready
  have ht : (AtIssue b0 t).Takes t := ⟨hsel, hoperand, hnamed, hheld, hready⟩
  refine ⟨fun h hfree => ?put, fun h hidle => ?run, fun h hidle hbank hnext => ?queue, fun h hab => ?abort, fun h hab => ?again, fun h => ?stat,
    fun h hidle => ?answered, fun h hidle => ?waits⟩
  case put =>
    rw [exec_arrPut, arrPutEff, arrCommand_of h ht]
    rcases hfree with hidle | hbank
    · simp only [hidle, Bool.true_eq_false, false_and, if_false]
    · simp only [hbank, and_false, if_false]
  case run =>
    rw [exec_arrRun, arrRunEff, arrCommand_of h ht]
    simp only [hidle, if_true]
  case queue =>
    rw [exec_arrRun, arrRunEff, arrCommand_of h ht]
    simp only [hidle, hbank, hnext, Option.isSome_none, Bool.false_eq_true, or_self, if_false]
  case abort =>
    rw [exec_arrAbort, arrAbortEff, arrCommand_of h ht]
    simp only [hab, Bool.false_eq_true, if_false]
  case again =>
    rw [exec_arrAbort, arrAbortEff, arrCommand_of h ht]
    simp only [hab, if_true]
  case stat =>
    rw [exec_arrStat, arrStatEff, arrCommand_of h ht]
  case answered =>
    rw [exec_arrWait, arrWaitEff, arrCommand_of h ht]
    simp only [hidle, if_true]
  case waits =>
    rw [exec_arrWait, arrWaitEff, arrCommand_of h ht]
    simp only [hidle, Bool.false_eq_true, if_false]

end Sys2Proof.Machine
end

section
/-! PROOFS. The words of an array program at their head (R237, R238), and what completes them (R240, R242, R249). -/
namespace Sys2Proof.Machine

/-- Settles O20: a running program's well-formed head is acted on, and each word passes its waits and its errors in their order; a completion
finds its unit's accesses performed. -/
theorem arrayProgramsComplete : Obligations.ArrayProgramsComplete := by
  intro b q f n
  dsimp only
  refine ⟨?loadTile, ?swap, ?stream, ?drain, ?chain, ?endQueued, ?endLast, ?nop, ?shifted, ?aborted, ?stalled, ?streamed, ?drained⟩
  case loadTile =>
    rintro ⟨hrun, hok, hop⟩ hshift hshadow hroom hgrant hbar
    rw [exec_loadTile, loadTileEff, headWord_of hrun hok hop]
    simp only [hshift, hshadow, hroom, hgrant, hbar, Option.isSome_none, not_true_eq_false, Bool.false_eq_true, Bool.true_eq_false,
      or_self, if_false]
  case swap =>
    rintro ⟨hrun, hok, hop⟩ hshift hentering hshadow
    rw [exec_swap, swapEff, headWord_of hrun hok hop]
    simp only [hshift, hentering, hshadow, Option.isSome_none, Bool.false_eq_true, or_self, if_false, if_true]
  case stream =>
    rintro ⟨hrun, hok, hop⟩ hentering hroom hgrant hactive hbound hvalid hbar
    -- Only a STREAM that accumulates asks for valid rows (R238).
    have hrows := not_and.2 fun hacc => ne_true_of_eq_false (hvalid hacc)
    rw [exec_stream, streamEff, headWord_of hrun hok hop]
    simp only [hentering, hroom, hgrant, hactive, hbound.not_gt, hrows, hbar, not_true_eq_false, Bool.false_eq_true,
      Bool.true_eq_false, or_self, if_false]
  case drain =>
    rintro ⟨hrun, hok, hop⟩ hdrain hflight hroom hbound hvalid
    rw [exec_drain, drainEff, headWord_of hrun hok hop]
    simp only [hdrain, hflight, hroom, hbound.not_gt, hvalid, Option.isSome_none, Bool.false_eq_true, Bool.true_eq_false, or_self, if_false]
  case chain =>
    rintro ⟨hrun, hok, hop⟩ hnext hshift
    rw [exec_chain, chainEff, headWord_of hrun hok hop]
    simp only [Option.isNone_eq_false_iff.2 hnext, hshift, Option.isSome_none, Bool.false_eq_true, if_false]
  case endQueued =>
    rintro ⟨hrun, hok, hop⟩ hnext hshift
    rw [exec_arrayEnd, arrayEndEff, headWord_of hrun hok hop]
    simp only [hnext, hshift, Option.isSome_none, Bool.false_eq_true, if_false, if_true]
  case endLast =>
    rintro ⟨hrun, hok, hop⟩ hnext hindex
    rw [exec_arrayEnd, arrayEndEff, headWord_of hrun hok hop]
    simp only [hnext, hindex.not_ge, Option.isSome_none, Bool.false_eq_true, if_false]
  case nop =>
    rintro ⟨hrun, hok, hop⟩
    rw [exec_arrayNop, arrayNopEff, headWord_of hrun hok hop]
  case shifted =>
    intro fa hshift hperformed hpoison
    simp only [exec_shiftComplete, shiftCompleteEff, hshift, hperformed, hpoison, Bool.false_eq_true, if_false]
  case aborted =>
    intro haborting hops
    simp only [exec_abortComplete, abortCompleteEff, haborting, hops, Bool.false_eq_true, Bool.true_eq_false, or_self, if_false]
  case stalled =>
    intro hstate hstall hraised hlong
    rw [exec_arrayStall, arrayStallEff, if_pos ⟨hstate, hstall, hraised, hlong⟩]
  case streamed =>
    intro hflight hlast
    have hempty := List.isEmpty_eq_false_iff.2 hflight
    -- Rows still being read belong to the youngest STREAM, so they hold up the oldest only when it is alone (log entry 107).
    have hleft := not_and.2 fun hone => ne_true_of_eq_false (hlast hone)
    rw [exec_streamDone, streamDoneEff]
    simp only [hempty, hleft, Bool.false_eq_true, or_self, if_false]
  case drained =>
    intro hdrain hops
    simp only [exec_drainDone, drainDoneEff, Option.isNone_eq_false_iff.2 hdrain, hops, Bool.false_eq_true, or_self, if_false]

end Sys2Proof.Machine
end

section
/-! PROOFS. The engines' work (R266, R286, R287, R291, R302, R306 to R308, R560): the guards of a DMA element in its slot, and of what page walks,
attention and sampling units take. -/
namespace Sys2Proof.Machine

variable {b : Block} {f slot cls camp seq entry granule i n c pos s pair : Nat} {w : SlotWork} {m : Model} {r : Request}
  {u : SampUse}

/-! ### Slots (R560) -/

/-- The block once work has left its engine's queue for a slot. -/
def Block.takeSlot (b : Block) (f slot : Nat) (u : SlotUse) : Block :=
  ({ b with host := { b.host with slotQueue := b.host.slotQueue.filter fun x => !(x.1 == f && x.2.work == u.work) } } : Block).setSlotUse f slot
    (some u)

@[simp] theorem takeSlot_holds (b : Block) (f slot : Nat) (u : SlotUse) (who : Asker) : (b.takeSlot f slot u).holds f who = b.holds f who := rfl

@[simp] theorem takeSlot_waits (b : Block) (f slot : Nat) (u : SlotUse) (who : Asker) : (b.takeSlot f slot u).waits f who = b.waits f who := rfl

/-- A requester without a grant has none that covers an operation. -/
theorem covers_of_not_holds {who : Asker} (h : b.holds f who = false) (n : Nat) : b.covers f who n = false := by
  rw [Block.holds, Option.isSome_eq_false_iff, Option.isNone_iff_eq_none] at h
  rw [Block.covers, h]

/-- A slot with neither a grant nor a request asks for its 8 rations. -/
theorem underGrant_asks (hholds : b.holds f (dmaSlot slot) = false) (hwaits : b.waits f (dmaSlot slot) = false) (u : SlotUse) (k : Block → Block) :
    b.underGrant f slot u k = b.request f (dmaSlot slot) u.cls u.camp 8 false := by
  simp only [Block.underGrant, covers_of_not_holds hholds, hholds, hwaits, Bool.false_eq_true, or_self, if_false]

/-- Work whose turn has come takes a free slot that fits it. -/
theorem inSlot_takes (hlong : 4096 ≤ n) (huse : b.slotUse f slot = none) (honce : b.slotted f w = false) (hturn : b.slotTurn f w = true)
    (hfits : b.slotFits f slot cls = true) (camp : Nat) (k : Block → Block) :
    b.inSlot f slot cls camp n w k = (b.takeSlot f slot ⟨w, cls, camp⟩).underGrant f slot ⟨w, cls, camp⟩ k := by
  simp only [Block.inSlot, hlong.not_gt, huse, honce, hturn, hfits, Bool.false_eq_true, Bool.true_eq_false, if_false]
  rfl

/-! ### Elements (R263, R360, R560) -/

/-- An element of a descriptor, not yet done, runs in the field that it belongs to. -/
theorem dmaElementDoneEff_job {d : Desc} {j : DmaJob} {x : ElemAt} (hon : b.unpowered f = false) (hd : b.desc? camp seq = some d)
    (hj : b.dmaOf camp seq = some j) (hi : i < j.total) (hdone : sget (fun _ => false) j.done i = false) (hx : b.elemAt d i = some x)
    (hf : x.field = f) (hruns : Runs b f slot x.bytes (.elem (.job camp seq i)) = true) :
    dmaElementDoneEff f slot (.job camp seq i) b = b.runElem d i f x := by
  simp only [dmaElementDoneEff, hon, hd, hj, hi.not_ge, hdone, hx, hf, inSlot_of hruns, ne_eq, not_true_eq_false, Bool.false_eq_true, or_self,
    if_false]

/-- A half of a tray is transplanted for a slot of a model. -/
theorem dmaElementDoneEff_transplant {values : Bool} {x : Slot} (hon : b.unpowered f = false) (hx : b.slot? s = some x)
    (hm : b.slotModel s = some m) (hruns : Runs b f slot (2 * m.dim * m.depth) (.elem (.transplant s pair values)) = true) :
    dmaElementDoneEff f slot (.transplant s pair values) b = b.transplant s pair values f := by
  simp only [dmaElementDoneEff, hon, hx, hm, inSlot_of hruns, Bool.false_eq_true, if_false]

/-- A granule of a parked object, not yet done, is copied out of the field where it lives. -/
theorem dmaElementDoneEff_park {k : Park} {at_ ch : Nat} (hon : b.unpowered f = false)
    (hk : b.serve.parks.find? (fun k => k.camp == camp && k.entry == entry && !k.landed) = some k) (hplace : place k.addr = .unified f at_ ch)
    (hg : granule < k.granules) (hdone : k.done.contains granule = false)
    (hruns : Runs b f slot 0x8000 (.elem (.park camp entry granule)) = true) :
    dmaElementDoneEff f slot (.park camp entry granule) b =
      ((b.parkElement camp entry granule).countHost ((b.dmaFn camp granule).getD 0) f 0x8000 true).elemEnds f (.park camp entry granule) 0x8000 := by
  simp only [dmaElementDoneEff, hon, hk, hplace, hg.not_ge, hdone, inSlot_of hruns, ne_eq, not_true_eq_false, Bool.false_eq_true, or_self,
    if_false]

/-- An element of page services that still stands ends and leaves; a prompt's page write is acknowledged (R52, R265). -/
theorem dmaElementDoneEff_page {e : PageElem} (hon : b.unpowered e.field = false) (he : b.page.elems.contains e = true)
    (hruns : Runs b e.field slot e.bytes (.elem (.page e)) = true) :
    dmaElementDoneEff e.field slot (.page e) b =
      let b1 := ({ b with page := { b.page with elems := b.page.elems.filter (· != e) } } : Block).elemEnds e.field (.page e) e.bytes
      if e.kind = 2 then b1.ackDrop e.camp e.field 1 else b1 := by
  simp only [dmaElementDoneEff, hon, he, inSlot_of hruns, ne_eq, not_true_eq_false, Bool.false_eq_true, Bool.true_eq_false, or_self, if_false]

/-- Other work only leaves its slot free again. -/
theorem dmaElementDoneEff_other (hon : b.unpowered f = false) (hruns : Runs b f slot 0x8000 (.elem .other) = true) :
    dmaElementDoneEff f slot .other b = b.clearSlot f slot := by
  simp only [dmaElementDoneEff, hon, inSlot_of hruns, Bool.false_eq_true, if_false]

/-! ### Sampling (R302, R306 to R308) -/

/-- The first shard of a row that fits opens the row, joins its field's wave and is read once its unit may (R302, R306). -/
theorem sampleRowEff_opens {logits : List Nat} (huse : b.rowUse slot pos = some (m, r, u))
    (hbatch : (b.batchRows c).findIdx? (fun x => x == (slot, pos)) = some i) (hlen : logits.length = (m.shardOf f).2) (hstep : b.inStep c = true)
    (hres : (b.result? c slot pos).isSome = false) (hnew : b.row? c slot pos = none) (hfits : b.rowBytes f + 4 * logits.length ≤ b.rowBuffer) :
    sampleRowEff c f slot pos logits false b =
      (({ b with samp := { b.samp with rows := b.samp.rows ++ [⟨c, slot, pos, i, 1, [(f, logits)], [f], [], [], [], none, none, none, none⟩] } } :
        Block).countWave c f (4 * logits.length)).runUnit f c := by
  simp only [sampleRowEff, huse, hbatch, hlen, hstep, hres, hnew, hlen ▸ hfits.not_gt, Option.getD_none, Option.isSome_none, List.any_nil,
    List.nil_append, ne_eq, not_true_eq_false, Bool.false_eq_true, Bool.true_eq_false, or_self, if_false]

section Row
variable {x : SampRow} {lvl idx : Nat} {t : Slot} (hx : b.row? c slot pos = some x) (huse : b.rowUse slot pos = some (m, r, u))
  (ht : b.slot? slot = some t)
include hx huse ht

/-- A record of pass 1 joins the tree of the row's first pass. -/
theorem mergeRecordEff_pass1 (hpass : x.pass = 1) :
    mergeRecordEff c slot pos 1 lvl idx b = b.pushPass1 m u { x with nodes1 := treeArrive x.nodes1 1 lvl idx } := by
  simp only [mergeRecordEff, hx, huse, ht, hpass, and_self, if_true]

/-- A record of pass 2 or 3, whichever the row is in, joins the tree of that pass. -/
theorem mergeRecordEff_pass2 (hpass : 2 ≤ x.pass) :
    mergeRecordEff c slot pos x.pass lvl idx b = b.pushPass2 m r t u { x with nodes2 := treeArrive x.nodes2 x.pass lvl idx } := by
  have hlate : x.pass ≠ 1 := by omega
  simp only [mergeRecordEff, hx, huse, ht, hlate, hpass, and_self, if_false, if_true]

/-- A unit that holds its grant runs the row's second or third pass over its shard, once (R307). -/
theorem pass2StartEff_of {m1 : Pass1} {sh : Nat × List Nat} (hm1 : x.m1 = some m1) (hsh : x.shards.find? (fun s => s.1 == f) = some sh)
    (hpass : 2 ≤ x.pass) (hran : x.ran.contains f = false) (hgrant : b.covers f samplingUnit 6 = true) :
    pass2StartEff c slot pos f b =
      let lseY := match x.m2 with | some v => logSum m1.yMax v.sY | none => 0
      let v := pass2Over u pos m1 lseY (decide (x.pass = 3)) pass2Start (m.shardOf f).1 sh.2
      let rank := m.treeRank x.index f
      b.pushPass2 m r t u { x with ran := x.ran ++ [f], nodes2 := x.nodes2 ++ [⟨x.pass, 0, rank, decide (rank % 2 = 0), v⟩] } := by
  have hfree : ¬(x.pass < 2 ∨ x.ran.contains f = true ∨ b.covers f samplingUnit 6 = false) :=
    not_or.2 ⟨hpass.not_gt, not_or.2 ⟨ne_true_of_eq_false hran, ne_false_of_eq_true hgrant⟩⟩
  simp only [pass2StartEff, hx, huse, ht, hm1, hsh]
  exact if_neg hfree

end Row

/-- Settles O21: an element runs in its slot, work that may take a free slot asks for its grant, and each unit finds what it works on and
passes its guards. -/
theorem engineWorkCompletes : Obligations.EngineWorkCompletes := by
  refine ⟨?job, ?transplant, ?park, ?page, ?other, ?slotAsks, ?walk, ?partialJoins, ?ringFolds, ?rowTaken, ?recordMerges, ?secondPass⟩
  case job =>
    intro b q f slot camp seq i d j x hon hd hj hi hdone hx hf hruns
    rw [exec_dmaElementDone, dmaElementDoneEff_job hon hd hj hi hdone hx hf hruns]
  case transplant =>
    intro b q f slot s pair values x m hon hx hm hruns
    rw [exec_dmaElementDone, dmaElementDoneEff_transplant hon hx hm hruns]
  case park =>
    intro b q f slot camp entry granule k at_ ch hon hk hplace hg hdone hruns
    rw [exec_dmaElementDone, dmaElementDoneEff_park hon hk hplace hg hdone hruns]
  case page =>
    intro b q slot e hon he hruns
    rw [exec_dmaElementDone, dmaElementDoneEff_page hon he hruns]
  case other =>
    intro b q f slot hon hruns
    rw [exec_dmaElementDone, dmaElementDoneEff_other hon hruns]
  case slotAsks =>
    intro b f slot cls camp n w hlong huse honce hturn hfits hholds hwaits k
    rw [inSlot_takes hlong huse honce hturn hfits, underGrant_asks ((takeSlot_holds ..).trans hholds) ((takeSlot_waits ..).trans hwaits)]
    rfl
  case walk =>
    intro b q f slot pair first last core off m hm
    simp only [exec_pageWalk, pageWalkEff, hm]
  case partialJoins =>
    intro b q c slot pair pos src lvl idx x m hx hm
    simp only [exec_partialArrive, partialArriveEff, hx, hm]
  case ringFolds =>
    intro b q c f slot layer row src pages m hm hcamp hlayout hslices hother hsrc
    simp only [exec_ringPiece, ringPieceEff, hm, hcamp, hlayout, hslices.not_ge, hother, hsrc.not_ge, ne_eq, not_true_eq_false, or_self, if_false]
  case rowTaken =>
    intro b q c f slot pos logits m r u i huse hbatch hlen hstep hres hnew hfits
    rw [exec_sampleRow, sampleRowEff_opens huse hbatch hlen hstep hres hnew hfits]
  case recordMerges =>
    intro b q c slot pos lvl idx x m r u s hx huse hs
    refine ⟨fun hpass => ?_, fun hpass => ?_⟩
    · rw [exec_mergeRecord, mergeRecordEff_pass1 hx huse hs hpass]
    · rw [exec_mergeRecord, mergeRecordEff_pass2 hx huse hs hpass]
  case secondPass =>
    intro b q c slot pos f x m r u s m1 sh hx huse hs hm1 hsh hpass hran hgrant lseY v rank
    rw [exec_pass2Start]
    exact congrArg (fun b' => Host.Outcome.next (State.mk b' q)) (pass2StartEff_of hx huse hs hm1 hsh hpass hran hgrant)

end Sys2Proof.Machine
end

section
/-! PROOFS. The sampling unit's order (R303): an fp32 pattern has a rational value, comparison is comparison of values, and `ranks` is the
lexicographic order of greater values first and then of lower indices. -/
namespace Sys2Proof.Machine

/-! ### Comparison of numbers `n 2^e` (R132) -/

/-- The rational that a pair stands for: `n 2^e`. -/
def dyRat (x : Int × Int) : ℚ := x.1 * 2 ^ x.2

/-- Alignment to an exponent that is not greater keeps the value. -/
theorem dyRat_align {e : Int} (x : Int × Int) (h : e ≤ x.2) : dyRat (x.1 * 2 ^ (x.2 - e).toNat, e) = dyRat x := by
  have hexp : ((x.2 - e).toNat : Int) + e = x.2 := by omega
  simp only [dyRat, Int.cast_mul, Int.cast_pow, Int.cast_ofNat]
  rw [mul_assoc, ← zpow_natCast, ← zpow_add₀ two_ne_zero, hexp]

theorem dyRat_dyAdd (x y : Int × Int) : dyRat (dyAdd x y) = dyRat x + dyRat y := by
  rw [← dyRat_align x (min_le_left x.2 y.2), ← dyRat_align y (min_le_right x.2 y.2)]
  simp only [dyAdd, dyRat, Int.cast_add, add_mul]

theorem dyRat_neg (n e : Int) : dyRat (-n, e) = -dyRat (n, e) := by
  simp only [dyRat, Int.cast_neg, neg_mul]

theorem dyRat_lt_zero (x : Int × Int) : dyRat x < 0 ↔ x.1 < 0 := by
  have hpow : (0 : ℚ) < 2 ^ x.2 := zpow_pos two_pos _
  rw [dyRat, ← zero_mul (2 ^ x.2 : ℚ), mul_lt_mul_iff_left₀ hpow, Int.cast_lt_zero]

theorem dyLt_iff (x y : Int × Int) : dyLt x y = true ↔ dyRat x < dyRat y := by
  rw [dyLt, decide_eq_true_iff, ← dyRat_lt_zero, dyRat_dyAdd, dyRat_neg, ← sub_eq_add_neg, sub_neg]

/-! ### Comparison of fp32 values (R132, R303) -/

/-- The pair `n 2^e` that `f32Cmp` takes for a pattern: an infinity stands past every finite one. -/
def f32Num (x : Nat) : Int × Int := if f32IsInf x then (if f32Neg x then (-1, 200) else (1, 200)) else f32Val x

/-- The value that `f32Cmp` compares, for a pattern that is no NaN. -/
def f32Rat (x : Nat) : ℚ := dyRat (f32Num x)

theorem f32Cmp_of_notNan {x y : Nat} (hx : f32IsNan x = false) (hy : f32IsNan y = false) :
    f32Cmp x y = some (compare (f32Rat x) (f32Rat y)) := by
  have hcmp : f32Cmp x y = if dyLt (f32Num x) (f32Num y) then some .lt else if dyLt (f32Num y) (f32Num x) then some .gt else some .eq :=
    if_neg (by rw [hx, hy]; exact Bool.false_ne_true)
  simp only [hcmp, dyLt_iff]
  rcases lt_trichotomy (f32Rat x) (f32Rat y) with h | h | h
  · rw [compare_lt_iff_lt.2 h]
    exact if_pos h
  · rw [compare_eq_iff_eq.2 h]
    exact (if_neg h.not_lt).trans (if_neg h.not_gt)
  · rw [compare_gt_iff_gt.2 h]
    exact (if_neg h.not_gt).trans (if_pos h)

theorem f32Lt_iff {x y : Nat} (hx : f32IsNan x = false) (hy : f32IsNan y = false) : f32Lt x y = true ↔ f32Rat x < f32Rat y := by
  rw [f32Lt, f32Cmp_of_notNan hx hy, beq_iff_eq, Option.some_inj, compare_lt_iff_lt]

theorem f32EqB_iff {x y : Nat} (hx : f32IsNan x = false) (hy : f32IsNan y = false) : f32EqB x y = true ↔ f32Rat x = f32Rat y := by
  rw [f32EqB, f32Cmp_of_notNan hx hy, beq_iff_eq, Option.some_inj, compare_eq_iff_eq]

/-! ### The order on (value, index) pairs (R303) -/

/-- The value of a pattern in the order of R303: every NaN stands at one place below all numbers. -/
def f32Level (x : Nat) : WithBot ℚ := if f32IsNan x then ⊥ else f32Rat x

@[simp] theorem f32Level_nan {x : Nat} (h : f32IsNan x = true) : f32Level x = ⊥ := if_pos h

@[simp] theorem f32Level_notNan {x : Nat} (h : f32IsNan x = false) : f32Level x = f32Rat x := if_neg (ne_true_of_eq_false h)

/-- What R303 compares, first in front: the value with the greater one first, then the index. -/
def rankKey (x : Nat × Nat) : (WithBot ℚ)ᵒᵈ ×ₗ Nat := toLex (OrderDual.toDual (f32Level x.1), x.2)

theorem rankKey_lt_iff (x y : Nat × Nat) :
    rankKey x < rankKey y ↔ f32Level y.1 < f32Level x.1 ∨ f32Level x.1 = f32Level y.1 ∧ x.2 < y.2 := by
  rw [rankKey, rankKey, Prod.Lex.toLex_lt_toLex, OrderDual.toDual_lt_toDual, OrderDual.toDual_inj]

/-- `ranks` is a linear order's `<`, read through the key. -/
theorem ranks_iff (x y : Nat × Nat) : ranks x y = true ↔ rankKey x < rankKey y := by
  rw [rankKey_lt_iff]
  cases hx : f32IsNan x.1 <;> cases hy : f32IsNan y.1
  case false.false => simp [ranks, hx, hy, f32Lt_iff, f32EqB_iff]
  case false.true | true.false | true.true => simp [ranks, hx, hy]

theorem ranks_of_level_lt {x y : Nat × Nat} (h : f32Level y.1 < f32Level x.1) : ranks x y = true :=
  (ranks_iff x y).2 ((rankKey_lt_iff x y).2 (.inl h))

theorem ranks_of_level_eq {x y : Nat × Nat} (h : f32Level x.1 = f32Level y.1) : ranks x y = decide (x.2 < y.2) := by
  rw [Bool.eq_iff_iff, ranks_iff, rankKey_lt_iff, decide_eq_true_iff, h]
  simp

theorem ranks_asymm {x y : Nat × Nat} (h : ranks x y = true) : ranks y x = false :=
  eq_false_of_ne_true fun h' => lt_asymm ((ranks_iff x y).1 h) ((ranks_iff y x).1 h')

theorem ranks_total {x y : Nat × Nat} (h : x.2 ≠ y.2) : ranks x y = true ∨ ranks y x = true := by
  have hkey : rankKey x ≠ rankKey y := fun he => h (congrArg (fun k => (ofLex k).2) he)
  exact (lt_or_gt_of_ne hkey).imp (ranks_iff x y).2 (ranks_iff y x).2

theorem f32Level_zeros : f32Level 0x80000000 = f32Level 0 := by
  have heq : f32Rat 0x80000000 = f32Rat 0 := (f32EqB_iff (by decide) (by decide)).1 (by decide)
  rw [f32Level_notNan (by decide), f32Level_notNan (by decide), heq]

/-- Settles O51: the order is that of the keys, which is linear; a greater value, a NaN and equal values are read off the key. -/
theorem rankTotalOrder : Obligations.RankTotalOrder := by
  refine ⟨?irrefl, ?total, ?trans, ?nanLast, ?greaterFirst, ?zeros, ?nans⟩
  case irrefl =>
    intro x
    exact eq_false_of_ne_true fun h => lt_irrefl _ ((ranks_iff x x).1 h)
  case total =>
    intro x y _ _ hne
    rcases ranks_total hne with h | h
    · rw [h, ranks_asymm h, Bool.not_false]
    · rw [h, ranks_asymm h, Bool.not_true]
  case trans =>
    intro x y z _ _ _ hxy hyz
    exact (ranks_iff x z).2 (((ranks_iff x y).1 hxy).trans ((ranks_iff y z).1 hyz))
  case nanLast =>
    intro x y hx hy
    refine ranks_of_level_lt ?_
    rw [f32Level_nan hy, f32Level_notNan hx]
    exact WithBot.bot_lt_coe _
  case greaterFirst =>
    intro x y hx hy hlt
    have hrank : ranks x y = true := ranks_of_level_lt <| by
      rw [f32Level_notNan hx, f32Level_notNan hy]
      exact WithBot.coe_lt_coe.2 ((f32Lt_iff hy hx).1 hlt)
    exact ⟨hrank, ranks_asymm hrank⟩
  case zeros =>
    exact fun i k => ⟨ranks_of_level_eq f32Level_zeros, ranks_of_level_eq f32Level_zeros.symm⟩
  case nans =>
    intro x y i k hx hy
    exact ranks_of_level_eq ((f32Level_nan hx).trans (f32Level_nan hy).symm)

end Sys2Proof.Machine
end

section
/-! PROOFS. Writes of BAR0 that are refused (R380, R491, R542): each is one guarded write of a word that the function may not write. -/
namespace Sys2Proof.Machine

variable {b b' : Block} {fn off off' : Nat} {q : List Instr}

/-! ### What a refusal leaves -/

/-- The block but for its registers and what goes outward, and every register word but the counters of refused, partial and unsupported writes. -/
def Block.pastRefusal (fn : Nat) (b : Block) : Block × (Nat → W32) :=
  ({ b with regs := [], out := [] }, fun o =>
    if o = F.deniedWrites.off ∨ o = F.partialWrites.off ∨ o = (F.uncorrErrors (fn / 16)).off then 0 else regWord b.regs o)

theorem Same.pastRefusal_block (h : Same (Block.pastRefusal fn) b b') : { b' with regs := b.regs, out := b.out } = b :=
  congrArg (fun x => { x.1 with regs := b.regs, out := b.out }) h

theorem Same.pastRefusal_word (h : Same (Block.pastRefusal fn) b b') {o : Nat} (hd : o ≠ F.deniedWrites.off) (hp : o ≠ F.partialWrites.off)
    (hu : o ≠ (F.uncorrErrors (fn / 16)).off) : regWord b'.regs o = regWord b.regs o := by
  simpa [Block.pastRefusal, hd, hp, hu] using congrFun (congrArg Prod.snd h) o

/-- Who may write what is said by the camp table, which a refusal leaves. -/
theorem Same.pastRefusal_mayWrite (h : Same (Block.pastRefusal fn) b b') (fn' off : Nat) : b'.mayWrite fn' off = b.mayWrite fn' off :=
  congrArg (fun x => x.1.mayWrite fn' off) h

/-- A choice between two steps keeps what each keeps under its own condition. -/
theorem Same.dite {α : Type} {p : Block → α} {b x y : Block} {c : Prop} [Decidable c] (hx : c → Same p b x) (hy : ¬ c → Same p b y) :
    Same p b (if c then x else y) := by
  split
  · exact hx ‹_›
  · exact hy ‹_›

theorem pastRefusal_bump {f : Fld} (h : f.off = F.deniedWrites.off ∨ f.off = F.partialWrites.off ∨ f.off = (F.uncorrErrors (fn / 16)).off) :
    Same (Block.pastRefusal fn) b (b.bump f) := by
  refine Prod.ext rfl (funext fun o => ?_)
  by_cases ho : o = f.off
  · simp only [Block.pastRefusal, ho, h, if_true]
  · simp only [Block.pastRefusal, Block.bump, regWord_count_ne b f 1 o ho]

/-- A TLP that leaves what a refusal leaves where it reaches its BAR does so where it does not (R385, R392). -/
theorem pastRefusal_tlp {g : Block → Block} (h : Same (Block.pastRefusal fn) b (g b)) : Same (Block.pastRefusal fn) b (b.tlp fn g) := by
  rcases tlp_cases b fn g with ⟨-, he⟩ | ⟨-, he⟩ | ⟨-, -, he⟩
  · exact he ▸ h
  · rw [he]
    exact .refl b
  · rw [he]
    exact (pastRefusal_bump (.inr (.inr rfl)) : Same _ b (b.bump (F.uncorrErrors (fn / 16))))

/-- A guarded write of a word that the function may not write is counted (R380). -/
theorem pastRefusal_barWrite (h : b.mayWrite fn off = false) (g : Block → Block) : Same (Block.pastRefusal fn) b (b.barWrite fn off g) :=
  pastRefusal_tlp (by simpa only [h, Bool.false_eq_true, if_false] using pastRefusal_bump (.inl rfl))

/-! ### The rights to the words of BAR0 (R380, R491, R542) -/

theorem mayWrite_of_refused (hl : isLocal off = false)
    (h : isIdentity off = true ∨ (off < 0x300000 ∧ fn ≠ 0) ∨ (0x300000 ≤ off ∧ (fn % 16 ≠ 0 ∨ b.fnServes fn 0 = false))) :
    b.mayWrite fn off = false := by
  rcases h with h | ⟨hlo, hfn⟩ | ⟨hhi, hfn⟩
  · simp [Block.mayWrite, h]
  · simp [Block.mayWrite, hl, hlo, hfn]
  · have hserves : (decide (fn % 16 = 0) && b.fnServes fn 0) = false := by simpa using or_iff_not_imp_left.mp hfn
    simp [Block.mayWrite, hl, not_lt.mpr hhi, hserves]

/-- The rights change at multiples of 8 only: the two words of an aligned 8 bytes go by the same right. -/
theorem mayWrite_eight (h : off / 8 = off' / 8) : b.mayWrite fn off = b.mayWrite fn off' := by
  have hid : isIdentity off = isIdentity off' := decide_eq_decide.mpr (by omega)
  have hlo : isLocal off = isLocal off' := by
    rw [isLocal, isLocal, ← Bool.decide_and, ← Bool.decide_and]
    exact decide_eq_decide.mpr (by omega)
  have hreset : off < 0x300000 ↔ off' < 0x300000 := by omega
  simp only [Block.mayWrite, hid, hlo, hreset]

/-- The stage's window in BAR0 goes by FN 0's right to the consent block, as CONSENT_CTRL does (R491). -/
theorem mayWrite_stage (hlo : 0x200000 ≤ off) (hhi : off < 0x300000) : b.mayWrite fn 0x200000 = b.mayWrite fn off := by
  have hid : isIdentity off = false := decide_eq_false (by omega)
  have hloc : isLocal off = false := by simp only [isLocal, Bool.and_eq_false_iff, decide_eq_false_iff_not]; omega
  have hid' : isIdentity 0x200000 = false := by decide
  have hloc' : isLocal 0x200000 = false := by decide
  simp [Block.mayWrite, hid, hloc, hhi, hid', hloc']

/-! ### Refused words -/

/-- The host's consent commands are writes of CONSENT_CTRL (R474). -/
theorem pastRefusal_byParty (h : b.mayWrite fn 0x200000 = false) (g : Block → Block) :
    Same (Block.pastRefusal fn) b (b.byParty false fn g) :=
  pastRefusal_barWrite h g

theorem pastRefusal_consentCtrl (op : Nat) (h : b.mayWrite fn 0x200000 = false) : Same (Block.pastRefusal fn) b (consentCtrl fn op b) := by
  unfold consentCtrl
  split
  case h_5 => exact pastRefusal_barWrite h _
  all_goals exact pastRefusal_byParty h _

/-- A word that the function may not write is refused, whatever its register does. -/
theorem pastRefusal_regWrite (h : b.mayWrite fn off = false) (v : W32) : Same (Block.pastRefusal fn) b (Block.regWrite fn off v b) := by
  have at_ {o : Nat} (ho : off = o) : b.mayWrite fn o = false := ho ▸ h
  unfold Block.regWrite
  dsimp only
  refine .dite (fun _ => pastRefusal_barWrite h _) fun _ => ?_
  refine .dite (fun ho => pastRefusal_barWrite (at_ ho) _) fun _ => .dite (fun _ => pastRefusal_barWrite h _) fun _ => ?_
  refine .dite (fun ho => pastRefusal_consentCtrl _ (at_ ho)) fun _ => .dite (fun ho => pastRefusal_barWrite (at_ ho) _) fun _ => ?_
  refine .dite (fun ho => ?stage) fun _ => .dite (fun ho => pastRefusal_barWrite (at_ ho) _) fun _ => .dite (fun ho => ?ring) fun _ => ?plain
  case plain =>
    refine .dite (fun ho => ?margin) fun _ => .dite (fun ho => ?repair) fun _ => .ite (pastRefusal_barWrite h _) ?wide
    case wide => exact .ite (pastRefusal_barWrite h _) (pastRefusal_barWrite h _)
    case margin =>
      exact pastRefusal_barWrite (at_ (o := 0x1020010 + 0x80000 * ((off - 0x1000000) / 0x80000)) (by omega)) _
    case repair =>
      have hcmd : b.mayWrite fn (0x1020018 + 0x80000 * ((off - 0x1000000) / 0x80000)) = false := at_ (by omega)
      exact .ite (pastRefusal_barWrite hcmd _) (pastRefusal_barWrite hcmd _)
  case stage =>
    have hwin : b.mayWrite fn 0x200000 = false := (mayWrite_stage (by omega) (by simp only [imageLen] at ho; omega)).trans h
    exact pastRefusal_byParty hwin _
  case ring =>
    have hctrl : b.mayWrite fn (F.ringCtrlEnable ((off - 0xD10000) / 0x40)).off = false := at_ (by simp only [F.ringCtrlEnable]; omega)
    exact .ite (pastRefusal_barWrite hctrl _) (pastRefusal_barWrite hctrl _)

/-- A write TLP reaches at most the two words of one aligned 8 bytes, which are refused together. -/
theorem pastRefusal_registerWriteEff (h : b.mayWrite fn off = false) (len be data : Nat) :
    Same (Block.pastRefusal fn) b (registerWriteEff fn off len be data b) := by
  refine pastRefusal_tlp (.ite (pastRefusal_bump (.inr (.inl rfl))) ?_)
  have hlow : b.mayWrite fn (off / 8 * 8) = false := (mayWrite_eight (by omega)).trans h
  have hhigh : b.mayWrite fn (off / 8 * 8 + 4) = false := (mayWrite_eight (by omega)).trans h
  have hfirst (x : W32) (c : Prop) [Decidable c] :
      Same (Block.pastRefusal fn) b (if c then Block.regWrite fn (off / 8 * 8) x b else b) :=
    .ite (pastRefusal_regWrite hlow x) (.refl b)
  exact .ite ((hfirst _ _).trans (pastRefusal_regWrite (((hfirst _ _).pastRefusal_mayWrite _ _).trans hhigh) _)) (hfirst _ _)

/-- Every command that writes BAR0 leaves what a refusal leaves, where the function may not write the word. -/
theorem pastRefusal_command {c : Instr} (hc : c.barWrites = some (fn, off)) (h : b.mayWrite fn off = false) :
    ∃ b', exec c ⟨b, q⟩ = .next ⟨b', q⟩ ∧ Same (Block.pastRefusal fn) b b' := by
  cases c with
  | registerWrite => cases hc; exact ⟨_, rfl, pastRefusal_registerWriteEff h ..⟩
  | lowWordWrite _ o _ | highWordWrite _ o _ =>
    obtain ⟨hb, hc⟩ : o < bar4 ∧ some (_, o) = some (fn, off) := by simpa [Instr.barWrites] using hc
    cases hc
    exact ⟨_, rfl, .ite (.refl b) (.dite (fun _ => pastRefusal_barWrite h _) fun hn => absurd hb hn)⟩
  | generatorTest => cases hc; exact ⟨_, rfl, .ite (.refl b) (pastRefusal_barWrite h _)⟩
  | routeQuery | dirQuery | flipArm | candQuery | imageQuery | pageQuery | slotQuery | ringEnable | ringDisable | marginScan | repairQuery
  | softRowRepair | resetCtrl | bootContinue | campResetCmd => cases hc; exact ⟨_, rfl, pastRefusal_barWrite h _⟩
  | consentCopy mc | writeStage mc | propose mc | countersign mc | consentAbort mc =>
    cases mc <;> cases hc
    exact ⟨_, rfl, pastRefusal_byParty h _⟩
  | _ => cases hc

/-- Settles O39: the sender has no right to the word, and every command that writes BAR0 asks for it first. -/
theorem refusedWritesChangeNothing : Obligations.RefusedWritesChangeNothing := by
  intro b b' q c fn off hc hl hr he
  obtain ⟨x, hx, h⟩ := pastRefusal_command (q := q) hc (mayWrite_of_refused hl hr)
  obtain rfl : x = b' := by simpa using hx.symm.trans he
  exact ⟨h.pastRefusal_block, fun o hd hp hu => h.pastRefusal_word hd hp hu⟩

end Sys2Proof.Machine
end

section
/-! PROOFS. Rings and vectors (R388 to R390, R402 to R409): what each of their commands does, and the records that are discarded. -/
namespace Sys2Proof.Machine

variable {b : Block} {fn off idx i k v value raw : Nat} {r : Rec}

/-! ### Doorbells (R403 to R405) -/

/-- Counting a doorbell leaves the ring's size: the counter is a word of its own. -/
theorem ringSize_bump_doorbells (b : Block) (k : Nat) : ringSize (b.bump (F.doorbells k)).regs k = ringSize b.regs k := by
  have hword : (F.ringCfgLog2Size k).off ≠ (F.doorbells k).off := by simp only [F.ringCfgLog2Size, F.doorbells]; omega
  exact congrArg (2 ^ ·) (fget_count_ne (F.doorbells k) (F.ringCfgLog2Size k) (by simp [F.ringCfgLog2Size]) (.inl hword))

section Doorbell
variable (hr : Reaches b fn = true) (hm : b.fnMapped fn = true) (ho : off < 0x200) (hs : b.boot.stage = 10)
include hr hm ho hs

/-- A doorbell of a mapped function on a wafer that has started up is refused or goes by its ring's kind. -/
theorem doorbellEff_of (covers : Bool) : doorbellEff fn off idx covers b =
    let k := ringKey fn (off / 8)
    let b1 := b.bump (F.doorbells k)
    if covers = false then b
    else if overrunCause b k idx ≠ 0 then b1.overrun k idx (overrunCause b k idx)
    else if ringKind b.regs k < 2 then b1.setRing k { b1.ringSt k with tail := idx }
    else (b1.setRing k { b1.ringSt k with
      head := idx, full := (b1.ringSt k).full && decide (((b1.ringSt k).tail + 1) % ringSize b.regs k = idx) }).reportLost k := by
  have hopen : ¬ (b.fnMapped fn = false ∨ 0x200 ≤ off ∨ b.boot.stage ≠ 10) := by simp [hm, hs, ho]
  simp only [doorbellEff, tlp_of hr, if_neg hopen]

theorem doorbellEff_overrun (hc : overrunCause b (ringKey fn (off / 8)) idx ≠ 0) : doorbellEff fn off idx true b =
    (b.bump (F.doorbells (ringKey fn (off / 8)))).overrun (ringKey fn (off / 8)) idx (overrunCause b (ringKey fn (off / 8)) idx) := by
  simp only [doorbellEff_of hr hm ho hs, hc, ne_eq, not_false_eq_true, Bool.true_eq_false, if_true, if_false]

/-- A doorbell that is no overrun moves a submission ring's tail, or a device-written ring's head. -/
theorem doorbellEff_moves (hc : overrunCause b (ringKey fn (off / 8)) idx = 0) : doorbellEff fn off idx true b =
    let k := ringKey fn (off / 8)
    let b1 := b.bump (F.doorbells k)
    if ringKind b.regs k < 2 then b1.setRing k { b.ringSt k with tail := idx }
    else (b1.setRing k { b.ringSt k with
      head := idx, full := (b.ringSt k).full && decide (((b.ringSt k).tail + 1) % ringSize b1.regs k = idx) }).reportLost k := by
  simp only [doorbellEff_of hr hm ho hs, hc, ne_eq, not_true_eq_false, Bool.true_eq_false, if_false, ringSize_bump_doorbells]
  rfl

end Doorbell

/-! ### A ring enabled and disabled (R402) -/

theorem ringEnableEff_of (hw : Writes b fn (F.ringCtrlEnable k).off = true) : ringEnableEff fn k value b =
    let b1 := b.writeWord (F.ringCtrlEnable k).off (BitVec.ofNat 32 value)
    if (b.ringSt k).enabled then b1
    else if ringCfgErr b1 k = 0 then
      ((b1.setRing k { RingSt.init with enabled := true, phase := true, stopped := (b1.ringSt k).stopped }).fset (F.ringCtrlEnable k) 1).shadow k 0 0
    else (b1.setRing k { b1.ringSt k with cfgErr := ringCfgErr b1 k }).fset (F.ringCtrlEnable k) 0 := by
  rw [ringEnableEff, barWrite_of hw]

theorem ringDisableEff_of (hw : Writes b fn (F.ringCtrlEnable k).off = true) : ringDisableEff fn k value b =
    let b1 := b.writeWord (F.ringCtrlEnable k).off (BitVec.ofNat 32 value)
    if (b.ringSt k).enabled = false then b1
    else if b.isBound k then (b1.setRing k { b1.ringSt k with cfgErr := 4 }).fset (F.ringCtrlEnable k) 1
    else (b1.setRing k { b1.ringSt k with enabled := false }).fset (F.ringCtrlEnable k) 0 := by
  rw [ringDisableEff, barWrite_of hw]

/-! ### Records (R390, R408, R409) -/

/-- A record leaves its function's outbox. -/
def Block.popRec (b : Block) (r : Rec) : Block := { b with ring := { b.ring with outbox := dropFirst (· == r) b.ring.outbox } }

theorem recordWriteEff_discards (hn : b.nextRec fn i = some r) (hrecv : b.fnReceives fn = false) :
    recordWriteEff fn i b = ((b.popRec r).bump F.recordsDiscarded).bump (F.fnDiscards fn) := by
  simp only [recordWriteEff, hn, hrecv, if_true, Block.popRec]

/-- A record enters its ring: its bits with the phase go outward, the producer index and the shadow follow (R407, R408). -/
def Block.putRec (b : Block) (fn i : Nat) (r : Rec) : Block :=
  let k := ringKey fn i
  let s := b.ringSt k
  let tail := (s.tail + 1) % ringSize b.regs k
  let b1 := (b.popRec r).setRing k { s with
    tail := tail, phase := if tail = 0 then !s.phase else s.phase, count := (s.count + 1) % 2 ^ 32
    full := decide ((tail + 1) % ringSize b.regs k = s.head) }
  ((b1.bump (F.entries k)).send (.hostWrite fn (ringAddr b.regs k s.tail) (entryBytes r.kind)
    (r.bits ||| (if s.phase then 1 <<< phaseBit r.kind else 0)) false)).shadow k tail ((s.count + 1) % 2 ^ 32)

/-- The ring that a record fills raises RING_FULL, `b` being the block before (R409). -/
def Block.noteFull (b' b : Block) (fn i : Nat) : Block :=
  let k := ringKey fn i
  let s := b.ringSt k
  if ((s.tail + 1) % ringSize b.regs k + 1) % ringSize b.regs k = s.head ∧ s.full = false then
    (b'.bump F.fullEventsTotal).raise 0x0811 0xFF (b.fnCamp fn)
      (ringPayload b.regs k 0 0 s.head (b'.ring.outbox.filter fun x => x.fn == fn && x.ring == i).length)
  else b'

/-- A record that its ring has room for is put there, and may be a cause of the ring's vector (R408 to R410). -/
theorem recordWriteEff_writes (hn : b.nextRec fn i = some r) (hrecv : b.fnReceives fn = true) (he : (b.ringSt (ringKey fn i)).enabled = true)
    (hroom : ((b.ringSt (ringKey fn i)).tail + 1) % ringSize b.regs (ringKey fn i) ≠ (b.ringSt (ringKey fn i)).head) :
    recordWriteEff fn i b =
      let b3 := (b.putRec fn i r).noteFull b fn i
      if isCause (b.fget (F.ringCtrlIrqMode (ringKey fn i))) r.kind r.irq then b3.vecCause fn (b.fget (F.ringCtrlVector (ringKey fn i))) else b3 := by
  simp only [recordWriteEff, hn, hrecv, he, hroom, Bool.true_eq_false, or_self, if_false, Block.putRec, Block.noteFull, Block.popRec, decide_eq_true_eq]

/-- A function that has lost its Bus Master Enable, its power, its link or itself receives nothing (R390). -/
theorem fnReceives_false (h : (b.fnSt fn).bme = false ∨ (b.fnSt fn).d3 = true ∨ (b.portSt (fn / 16)).up = false ∨ b.fnExists fn = false) :
    b.fnReceives fn = false := by
  rcases h with h | h | h | h <;> simp [Block.fnReceives, h]

/-- Settles O53: such a function receives nothing, and the record that is next leaves the outbox alone. -/
theorem recordDiscard : Obligations.RecordDiscard := by
  intro b q fn i r hn h
  refine ⟨?_, rfl, rfl, rfl⟩
  rw [exec_recordWrite, recordWriteEff_discards hn (fnReceives_false h)]
  rfl

/-! ### Vectors (R389) -/

theorem msixHoldoffEff_of (hc : 0 < (b.vec fn v).causes) (ht : (b.vec fn v).oldest + (b.vec fn v).holdoff * 1000 ≤ b.fab.time) :
    msixHoldoffEff fn v b = b.vecFire fn v :=
  if_pos ⟨hc, ht⟩

/-- Settles O25: each command passes its own conditions; the doorbell goes by the ring's kind, a record by its function. -/
theorem ringsComplete : Obligations.RingsComplete := by
  refine ⟨?doorbell, ?uncovered, ?enable, ?enabled, ?disable, ?fetch, ?record, ?holdoff, fun _ _ _ _ => rfl⟩
  case doorbell =>
    intro b q fn off idx hr hm ho hs k s hc
    rw [exec_doorbell, doorbellEff_moves hr hm ho hs hc]
  case uncovered =>
    intro b q fn off idx hr hm ho hs
    rw [exec_doorbell, doorbellEff_of hr hm ho hs]
    rfl
  case enable =>
    intro b q fn k value hw hdis b1
    rw [exec_ringEnable, ringEnableEff_of hw, hdis]
    rfl
  case enabled =>
    intro b q fn k value hw hen
    rw [exec_ringEnable, ringEnableEff_of hw, hen]
    rfl
  case disable =>
    intro b q fn k value hw b1
    rw [exec_ringDisable, ringDisableEff_of hw]
  case fetch =>
    intro b q fn i raw hm k s len x head d b1
    rw [exec_descriptorFetch]
    exact congrArg (fun x => Host.Outcome.next (State.mk x q)) (if_pos hm)
  case record =>
    intro b q fn i r hn k s size popped
    refine ⟨fun hrecv => ?_, fun hrecv he hroom => ?_⟩
    · rw [exec_recordWrite, recordWriteEff_discards hn hrecv]
      rfl
    · intro tail full bits phase b1 b2 waiting b3
      rw [exec_recordWrite, recordWriteEff_writes hn hrecv he hroom]
      simp only [b3, full, decide_eq_true_eq]
      rfl
  case holdoff =>
    intro b q fn v hc ht s
    rw [exec_msixHoldoff, msixHoldoffEff_of hc ht]
    rfl

end Sys2Proof.Machine
end

section
/-! PROOFS. What the commands of rings and vectors leave (R389, R402 to R409): an event changes of a ring no more than what it has lost. -/
namespace Sys2Proof.Machine

variable {b b' c x : Block} {fn off idx i k k' v value raw : Nat} {r : Rec} {q : List Instr}

/-! ### What an event changes of a ring (R409) -/

/-- A ring's state but for the count of the events that it has lost. -/
def RingSt.kept (s : RingSt) : RingSt := { s with lost := 0 }

theorem RingSt.of_kept {s s' : RingSt} (h : s'.kept = s.kept) : { s' with lost := s.lost } = s :=
  congrArg (fun x => { x with lost := s.lost }) h

/-- An event waits for a ring, or is counted as lost there. -/
theorem pushEvent_kept (regs : Sparse W32) (e : Event) (p : RingPart) (j k : Nat) :
    (sget (fun _ => RingSt.init) (pushEvent regs e p j).rings k).kept = (sget (fun _ => RingSt.init) p.rings k).kept := by
  unfold pushEvent
  split
  · by_cases hk : k = j <;> simp [sget_supd, hk, RingSt.kept]
  · rfl

theorem raise_kept (b : Block) (code source camp payload k : Nat) : ((b.raise code source camp payload).ringSt k).kept = (b.ringSt k).kept :=
  List.foldlRecOn (motive := fun p : RingPart => (sget (fun _ => RingSt.init) p.rings k).kept = (b.ringSt k).kept) _ _ rfl
    fun _ hp _ _ => (pushEvent_kept _ _ _ _ _).trans hp

/-! ### The rest of the block, and the other rings -/

/-- A block with the parts of `c` that a ring's command may change. -/
def Block.besideRings (c b : Block) : Block :=
  { b with regs := c.regs, force := c.force, ring := c.ring, boot := c.boot, host := { b.host with vecs := c.host.vecs }, out := c.out }

/-- What is apart from those parts, and every ring but `k`. -/
def Block.offRing (c : Block) (k : Nat) (b : Block) : Block × (Nat → RingSt) :=
  (c.besideRings b, fun j => if j = k then RingSt.init else (b.ringSt j).kept)

theorem writeWord_ring (b : Block) (off : Nat) (v : W32) : (b.writeWord off v).ring = b.ring := congrArg (·.ring) (writeWord_frame b off v)

section Kept
variable (h : Same (Block.offRing c k) b x)
include h

theorem offRing_bump (f : Fld) : Same (Block.offRing c k) b (x.bump f) := h
theorem offRing_fset (f : Fld) (n : Nat) : Same (Block.offRing c k) b (x.fset f n) := h
theorem offRing_send (o : Out) : Same (Block.offRing c k) b (x.send o) := h
theorem offRing_shadow (j index count : Nat) : Same (Block.offRing c k) b (x.shadow j index count) := h
theorem offRing_record (r : Rec) : Same (Block.offRing c k) b (x.record r) := h
theorem offRing_popRec (r : Rec) : Same (Block.offRing c k) b (x.popRec r) := h
theorem offRing_setVec (fn v : Nat) (s : VecSt) : Same (Block.offRing c k) b (x.setVec fn v s) := h
theorem offRing_descs (ds : List Desc) : Same (Block.offRing c k) b { x with ring := { x.ring with descs := ds } } := h

theorem offRing_raise (code source camp payload : Nat) : Same (Block.offRing c k) b (x.raise code source camp payload) :=
  h.trans (Prod.ext rfl (funext fun j => by simp only [Block.offRing, raise_kept]))

theorem offRing_setRing (s : RingSt) : Same (Block.offRing c k) b (x.setRing k s) := by
  refine h.trans (Prod.ext rfl (funext fun j => ?_))
  by_cases hj : j = k
  · simp only [Block.offRing, hj, if_true]
  · simp only [Block.offRing, hj, if_false, ringSt_setRing_ne x s hj]

theorem offRing_writeWord (off : Nat) (v : W32) : Same (Block.offRing c k) b (x.writeWord off v) := by
  have hbeside : c.besideRings { x.writeWord off v with regs := x.regs, force := x.force } = c.besideRings x :=
    congrArg c.besideRings (writeWord_frame x off v)
  refine h.trans (Prod.ext hbeside (funext fun j => ?_))
  simp only [Block.offRing, Block.ringSt, writeWord_ring]

/-- A TLP that does not reach its BAR is dropped, or counted and answered. -/
theorem offRing_tlp {g : Block → Block} (hg : Same (Block.offRing c k) b (g x)) : Same (Block.offRing c k) b (x.tlp fn g) := by
  rcases tlp_cases x fn g with ⟨-, he⟩ | ⟨-, he⟩ | ⟨-, -, he⟩ <;> rw [he]
  · exact hg
  · exact h
  · exact offRing_send (offRing_bump h _) _

theorem offRing_barWrite {g : Block → Block} (hg : Same (Block.offRing c k) b (g x)) : Same (Block.offRing c k) b (x.barWrite fn off g) :=
  offRing_tlp h (.ite hg (offRing_bump h _))

theorem offRing_reportLost : Same (Block.offRing c k) b (x.reportLost k) := .ite (offRing_record (offRing_setRing h _) _) h

theorem offRing_overrun (idx cause : Nat) : Same (Block.offRing c k) b (x.overrun k idx cause) := by
  have hraised := offRing_raise (offRing_bump (offRing_bump h (F.overruns k)) F.overrunsTotal) 0x0810 0xFF (x.fnCamp (k / 64))
    (ringPayload x.regs k cause idx (x.ringSt k).head (x.ringSt k).tail)
  exact .ite (offRing_record hraised _) hraised

theorem offRing_report (d : Desc) (status generated deferred preempted body : Nat) :
    Same (Block.offRing c k) b (x.report d status generated deferred preempted body) := by
  have hrec (r : Rec) : Same (Block.offRing c k) b (x.recordFor d.camp r) := .ite (offRing_record h r) (offRing_bump (offRing_bump h _) _)
  exact .ite (offRing_raise (offRing_bump (hrec _) _) ..) (hrec _)

theorem offRing_vecFire (fn v : Nat) : Same (Block.offRing c k) b (x.vecFire fn v) :=
  .ite (offRing_setVec h ..) (offRing_send (offRing_setVec h ..) _)

theorem offRing_vecCause (fn v : Nat) : Same (Block.offRing c k) b (x.vecCause fn v) :=
  .ite (.ite (offRing_vecFire (offRing_setVec h ..) ..) (offRing_setVec h ..)) h

theorem offRing_noteFull (c' : Block) (fn i : Nat) : Same (Block.offRing c k) b (x.noteFull c' fn i) :=
  .ite (offRing_raise (offRing_bump h _) ..) h

theorem offRing_putRec (hk : k = ringKey fn i) (r : Rec) : Same (Block.offRing c k) b (x.putRec fn i r) := by
  subst hk
  exact offRing_shadow (offRing_send (offRing_bump (offRing_setRing (offRing_popRec h r) _) _) _) ..

end Kept

/-! ### The commands of a ring -/

theorem offRing_doorbell (covers : Bool) (hk : k = ringKey fn (off / 8)) : Same (Block.offRing c k) b (doorbellEff fn off idx covers b) := by
  subst hk
  have hb : Same (Block.offRing c (ringKey fn (off / 8))) b b := .refl b
  exact offRing_tlp hb (.ite (offRing_bump hb _) (.ite hb (.ite (offRing_overrun (offRing_bump hb _) ..)
    (.ite (offRing_setRing (offRing_bump hb _) _) (offRing_reportLost (offRing_setRing (offRing_bump hb _) _))))))

theorem offRing_ringEnable : Same (Block.offRing c k) b (ringEnableEff fn k value b) := by
  have hb : Same (Block.offRing c k) b b := .refl b
  have hword (v : W32) := offRing_writeWord hb (F.ringCtrlEnable k).off v
  exact offRing_barWrite hb (.ite (hword _) (.ite (offRing_shadow (offRing_fset (offRing_setRing (hword _) _) ..) ..)
    (offRing_fset (offRing_setRing (hword _) _) ..)))

theorem offRing_ringDisable : Same (Block.offRing c k) b (ringDisableEff fn k value b) := by
  have hb : Same (Block.offRing c k) b b := .refl b
  have hword (v : W32) := offRing_writeWord hb (F.ringCtrlEnable k).off v
  exact offRing_barWrite hb (.ite (hword _) (.ite (offRing_fset (offRing_setRing (hword _) _) ..)
    (offRing_fset (offRing_setRing (hword _) _) ..)))

theorem offRing_descriptorFetch (hk : k = ringKey fn i) : Same (Block.offRing c k) b (descriptorFetchEff fn i raw b) := by
  subst hk
  have hb : Same (Block.offRing c (ringKey fn i)) b b := .refl b
  have hmoved (s : RingSt) := offRing_bump (offRing_bump (offRing_setRing hb s) F.descriptorsTotal) (F.entries (ringKey fn i))
  refine .ite (offRing_shadow ?_ ..) hb
  split
  · exact offRing_report (offRing_bump (hmoved _) _) ..
  · exact offRing_descs (hmoved _) _

theorem recordWriteEff_waits (hn : b.nextRec fn i = some r) (hrecv : b.fnReceives fn = true) (hshut : (b.ringSt (ringKey fn i)).enabled = false ∨
    ((b.ringSt (ringKey fn i)).tail + 1) % ringSize b.regs (ringKey fn i) = (b.ringSt (ringKey fn i)).head) : recordWriteEff fn i b = b := by
  simp only [recordWriteEff, hn, hrecv, hshut, Bool.true_eq_false, if_true, if_false]

theorem offRing_recordWrite (hk : k = ringKey fn i) : Same (Block.offRing c k) b (recordWriteEff fn i b) := by
  have hb : Same (Block.offRing c k) b b := .refl b
  cases hn : b.nextRec fn i with
  | none => simpa only [recordWriteEff, hn] using hb
  | some r =>
    cases hrecv : b.fnReceives fn with
    | false => exact recordWriteEff_discards hn hrecv ▸ offRing_bump (offRing_bump (offRing_popRec hb r) _) _
    | true =>
      by_cases hshut : (b.ringSt (ringKey fn i)).enabled = false ∨
          ((b.ringSt (ringKey fn i)).tail + 1) % ringSize b.regs (ringKey fn i) = (b.ringSt (ringKey fn i)).head
      · exact (recordWriteEff_waits hn hrecv hshut).symm ▸ hb
      · obtain ⟨he, hroom⟩ := not_or.mp hshut
        rw [recordWriteEff_writes hn hrecv (by simpa using he) hroom]
        have hfull := offRing_noteFull (offRing_putRec hb hk r) b fn i
        exact .ite (offRing_vecCause hfull ..) hfull

/-! ### What a ring has after its own commands -/

theorem reportLost_kept (b : Block) (j k : Nat) : ((b.reportLost j).ringSt k).kept = (b.ringSt k).kept := by
  unfold Block.reportLost
  dsimp only
  split
  · change ((b.setRing j { b.ringSt j with lost := 0 }).ringSt k).kept = (b.ringSt k).kept
    by_cases hk : k = j
    · simp only [hk, ringSt_setRing_self, RingSt.kept]
    · rw [ringSt_setRing_ne b _ hk]
  · rfl

theorem overrun_kept (b : Block) (j idx cause k : Nat) : ((b.overrun j idx cause).ringSt k).kept = (b.ringSt k).kept := by
  unfold Block.overrun
  dsimp only
  split <;> exact raise_kept ((b.bump (F.overruns j)).bump F.overrunsTotal) _ _ _ _ k

theorem writeWord_ringSt (b : Block) (off : Nat) (v : W32) (k : Nat) : (b.writeWord off v).ringSt k = b.ringSt k :=
  congrArg (fun p : RingPart => sget (fun _ => RingSt.init) p.rings k) (writeWord_ring b off v)

/-- A completion leaves the rings, unless it is refused as another camp's, which raises PROT_DENIED. -/
theorem report_ringSt (d : Desc) {status : Nat} (h : status ≠ 0x25) (generated deferred preempted body : Nat) :
    (b.report d status generated deferred preempted body).ringSt k = b.ringSt k := by
  simp only [Block.report, h, false_and, if_false, Block.recordFor]
  split <;> rfl

theorem noteFull_kept (b c : Block) (fn i k : Nat) : ((b.noteFull c fn i).ringSt k).kept = (b.ringSt k).kept := by
  unfold Block.noteFull
  dsimp only
  split
  · exact raise_kept (b.bump F.fullEventsTotal) _ _ _ _ k
  · rfl

theorem vecFire_ring (b : Block) (fn v : Nat) : (b.vecFire fn v).ring = b.ring := by
  unfold Block.vecFire
  dsimp only
  split <;> rfl

theorem vecCause_ring (b : Block) (fn v : Nat) : (b.vecCause fn v).ring = b.ring := by
  unfold Block.vecCause
  dsimp only
  split
  · split
    · exact vecFire_ring ..
    · rfl
  · rfl

/-- Of the vectors, `v` of a function has a state, and the others stay. -/
def Block.onlyVec (b b' : Block) (fn v : Nat) (s : VecSt) : Prop :=
  ∀ key, sget (fun _ => VecSt.init) b'.host.vecs key = if key = vecKey fn v then s else sget (fun _ => VecSt.init) b.host.vecs key

theorem onlyVec_vec {s : VecSt} (h : b.onlyVec b' fn v s) :
    b'.vec fn v = s ∧ ∀ j, vecKey fn j ≠ vecKey fn v → b'.vec fn j = b.vec fn j :=
  ⟨(h _).trans (if_pos rfl), fun _ hj => (h _).trans (if_neg hj)⟩

theorem onlyVec_setVec (b : Block) (fn v : Nat) (s : VecSt) : b.onlyVec (b.setVec fn v s) fn v s := fun _ => sget_sset

/-- A vector that sends its message or sets its PBA bit has announced its causes. -/
theorem onlyVec_vecFire (b : Block) (fn v : Nat) : ∃ pba, b.onlyVec (b.vecFire fn v) fn v { b.vec fn v with pba := pba, causes := 0 } := by
  unfold Block.vecFire
  dsimp only
  split
  · exact ⟨true, onlyVec_setVec b fn v _⟩
  · exact ⟨_, onlyVec_setVec b fn v _⟩

theorem onlyVec_msixUnmask (b : Block) (fn v : Nat) :
    ∃ pba, b.onlyVec (msixUnmaskEff fn v b) fn v { b.vec fn v with masked := false, pba := pba } := by
  unfold msixUnmaskEff
  dsimp only
  split
  · exact ⟨_, onlyVec_setVec b fn v _⟩
  · split
    · refine ⟨(b.vec fn v).pba, fun key => ?_⟩
      rw [onlyVec_setVec, onlyVec_setVec]
      split <;> rfl
    · exact ⟨_, onlyVec_setVec b fn v _⟩

/-- Settles O54: the frame goes by the command, its own ring's state by what RingsComplete says of it. -/
theorem ringFrame : Obligations.RingFrame := by
  refine ⟨?frame, ?doorbell, ?enable, ?disable, ?fetch, ?record, ?holdoff, ?unmask⟩
  case frame =>
    intro b b' q c fn i k off idx value raw covers hc he
    have hsame : Same (Block.offRing b k) b b' := by
      rcases hc with ⟨rfl, hk⟩ | rfl | rfl | ⟨rfl, hk⟩ | ⟨rfl, hk⟩ <;> cases he
      · exact offRing_doorbell covers hk
      · exact offRing_ringEnable
      · exact offRing_ringDisable
      · exact offRing_descriptorFetch hk
      · exact offRing_recordWrite hk
    refine ⟨congrArg Prod.fst hsame, fun k' hk' => RingSt.of_kept ?_⟩
    simpa only [Block.offRing, hk', if_false] using congrFun (congrArg Prod.snd hsame) k'
  case doorbell =>
    intro b q fn off idx hr hm ho hs k hc
    refine ⟨_, exec_doorbell .., ?_⟩
    rw [doorbellEff_moves hr hm ho hs hc]
    dsimp only
    split
    · rw [ringSt_setRing_self]
      exact ⟨rfl, rfl⟩
    · have hkept := reportLost_kept ((b.bump (F.doorbells k)).setRing k { b.ringSt k with
        head := idx, full := (b.ringSt k).full && decide (((b.ringSt k).tail + 1) % ringSize (b.bump (F.doorbells k)).regs k = idx) }) k k
      rw [ringSt_setRing_self] at hkept
      have hhead := congrArg RingSt.head hkept
      have htail := congrArg RingSt.tail hkept
      exact ⟨hhead, htail⟩
  case enable =>
    intro b q fn k value hw hdis herr
    refine ⟨_, exec_ringEnable .., ?_⟩
    rw [ringEnableEff_of hw]
    simp only [hdis, herr, Bool.false_eq_true, if_false, if_true, writeWord_ringSt]
    exact ringSt_setRing_self ..
  case disable =>
    intro b q fn k value hw hen hbound
    refine ⟨_, exec_ringDisable .., ?_⟩
    rw [ringDisableEff_of hw]
    simp only [hen, hbound, Bool.false_eq_true, Bool.true_eq_false, if_false, writeWord_ringSt]
    exact ringSt_setRing_self ..
  case fetch =>
    intro b q fn i raw hm k s len
    refine ⟨_, exec_descriptorFetch .., ?_⟩
    rw [descriptorFetchEff, if_pos hm]
    dsimp only
    split
    · exact (report_ringSt _ (by decide) ..).trans (ringSt_setRing_self ..)
    · exact ringSt_setRing_self ..
  case record =>
    intro b q fn i r hn hrecv k s he hroom
    refine ⟨_, exec_recordWrite .., ?_⟩
    rw [recordWriteEff_writes hn hrecv he hroom]
    have hput := noteFull_kept (b.putRec fn i r) b fn i k
    have hown : (b.putRec fn i r).ringSt k = _ := ringSt_setRing_self ..
    rw [hown] at hput
    have htail := congrArg RingSt.tail hput
    have hhead := congrArg RingSt.head hput
    have hcount := congrArg RingSt.count hput
    have hcause (v : Nat) : (((b.putRec fn i r).noteFull b fn i).vecCause fn v).ringSt k = ((b.putRec fn i r).noteFull b fn i).ringSt k := by
      rw [Block.ringSt, vecCause_ring]
      rfl
    dsimp only
    split
    · rw [hcause]
      exact ⟨htail, hhead, hcount⟩
    · exact ⟨htail, hhead, hcount⟩
  case holdoff =>
    intro b q fn v hc ht
    refine ⟨_, exec_msixHoldoff .., ?_⟩
    rw [msixHoldoffEff_of hc ht]
    obtain ⟨pba, hvecs⟩ := onlyVec_vecFire b fn v
    obtain ⟨hown, hrest⟩ := onlyVec_vec hvecs
    exact ⟨hown ▸ rfl, hown ▸ rfl, hrest⟩
  case unmask =>
    intro b q fn v
    obtain ⟨pba, hvecs⟩ := onlyVec_msixUnmask b fn v
    obtain ⟨hown, hrest⟩ := onlyVec_vec hvecs
    exact ⟨_, exec_msixUnmask .., hown ▸ rfl, hown ▸ rfl, hrest⟩

/-! ### Overruns (R405) -/

theorem overrunCause_ne_zero_iff (b : Block) (k idx : Nat) : overrunCause b k idx ≠ 0 ↔
    (b.ringSt k).enabled = false ∨ ringSize b.regs k ≤ idx ∨
    (ringKind b.regs k < 2 ∧ (idx + ringSize b.regs k - (b.ringSt k).head) % ringSize b.regs k <
      ((b.ringSt k).tail + ringSize b.regs k - (b.ringSt k).head) % ringSize b.regs k) ∨
    (2 ≤ ringKind b.regs k ∧ ((b.ringSt k).tail + ringSize b.regs k - (b.ringSt k).head) % ringSize b.regs k <
      (idx + ringSize b.regs k - (b.ringSt k).head) % ringSize b.regs k) := by
  unfold overrunCause
  dsimp only
  by_cases he : (b.ringSt k).enabled = false
  · simp [he]
  · by_cases hsize : ringSize b.regs k ≤ idx
    · simp [he, hsize]
    · by_cases hkind : ringKind b.regs k < 2
      · simp [he, hsize, hkind, Nat.not_le.mpr hkind]
      · simp [he, hsize, hkind, Nat.le_of_not_lt hkind]

/-- Settles O52: the ring's key names its function and its number, and only the lost events of a ring change under a raise. -/
theorem doorbellOverrun : Obligations.DoorbellOverrun := by
  intro b q fn off idx hr hm ho hs hfn k s size kind cause
  refine ⟨overrunCause_ne_zero_iff b k idx, ?_⟩
  intro hc b0 b1 r b'
  have hnum : off / 8 < 64 := by omega
  have hkfn : k / 64 = fn := by simp only [k, ringKey]; omega
  have hkring : k % 64 = off / 8 := by simp only [k, ringKey]; omega
  have hover : b0.overrun k idx cause = b' := by
    simp only [Block.overrun, hkfn, hkring]
    rfl
  have hkept := overrun_kept b0 k idx cause k
  rw [hover] at hkept
  have hhead := congrArg RingSt.head hkept
  have htail := congrArg RingSt.tail hkept
  refine ⟨?_, hhead, htail⟩
  rw [exec_doorbell, doorbellEff_overrun hr hm ho hs hc, ← hover]

end Sys2Proof.Machine
end

section
/-! PROOFS. The serving descriptors (R328, R342, R432) and the host links (R372 to R395): what each command does where its conditions hold. -/
namespace Sys2Proof.Machine

variable {b : Block} {p fn camp seq : Nat}

/-! ### Serving descriptors -/

/-- A descriptor that waits under a camp and a number bears them. -/
theorem waits_key {op : Nat} {d : Desc} (h : Waits b camp seq op d) : d.camp = camp ∧ d.seq = seq := by
  simpa using List.find?_some h.1

theorem cancelEff_of {d : Desc} (h : Waits b camp seq 0x09 d) : cancelEff camp seq b =
    (if b.stepComplete camp then ({ b with serve := { b.serve with lateCancels := b.serve.lateCancels ++ [(camp, seq, d.field 16 4)] } } : Block)
      else { b with serve := { b.serve with cancels := b.serve.cancels ++ [(camp, seq, d.field 16 4)] } }).start d :=
  withDesc_of h _

theorem setPolicyEff_of {d : Desc} (h : Waits b camp seq 0x0A d) : setPolicyEff camp seq b =
    ((policyFields d camp).foldl (fun b x => if bitAt (d.field 16 2) x.1 then
      b.setPolicyField x.2.1 (if x.1 = 4 then min x.2.2 (campSlots b.camp.live camp) else x.2.2) else b) b).complete d 0 0 :=
  withDesc_of h _

theorem fenceDescriptorEff_of {d : Desc} (h : Waits b camp seq 0x0B d)
    (hclear : ((b.ring.descs.takeWhile fun x => !(x.camp == camp && x.seq == seq)).any fun x => x.fn == d.fn && bitAt (d.field 16 8) x.ring) = false) :
    fenceDescriptorEff camp seq b = b.complete d 0 0 := by
  obtain ⟨hcamp, hseq⟩ := waits_key h
  simp only [fenceDescriptorEff, withDesc_of h, hcamp, hseq, hclear, Bool.false_eq_true, if_false]

theorem statsEff_of {d : Desc} (h : Waits b camp seq 0x0C d) (haddr : d.field 24 8 % 8 = 0) : statsEff camp seq b =
    if b.inStep camp then ({ b with serve := { b.serve with stats := b.serve.stats ++ [(camp, seq)] } } : Block).start d else b.takeStats camp seq := by
  simp only [statsEff, withDesc_of h, haddr, ne_eq, not_true_eq_false, if_false]

/-- Settles O22: a descriptor that waits is what its command works on. -/
theorem servingDescriptorsComplete : Obligations.ServingDescriptorsComplete := by
  refine ⟨fun _ _ _ _ _ _ => ⟨rfl, rfl, rfl⟩, ?cancel, ?policy, ?fence, ?stats⟩
  case cancel =>
    intro b q camp seq d h x
    rw [exec_cancel, cancelEff_of h]
  case policy =>
    intro b q camp seq d h
    rw [exec_setPolicy, setPolicyEff_of h]
  case fence =>
    intro b q camp seq d h hclear
    rw [exec_fenceDescriptor, fenceDescriptorEff_of h hclear]
  case stats =>
    intro b q camp seq d h haddr
    rw [exec_stats, statsEff_of h haddr]

/-! ### Host links -/

theorem hostLinkUpEff_of {speed width : Nat} (hpwr : b.modu.pwrGood = true) (hdown : (b.portSt p).up = false) (hperst : bitAt b.modu.perst p = false)
    (hslow : speed ≠ 0) (hfast : speed ≤ 6) (hwidth : width = 4 ∨ width = 8 ∨ width = 16) (flit : Bool) : hostLinkUpEff p speed width flit b =
    let b1 := b.setPort_ p
      { b.portSt p with up := true, flit := flit || decide (speed = 6), speed := speed, width := width, ltssm := 3, failRaised := false }
    let b2 := b1.hostEvent 0x0801 p 0x3F 0
    if width < 16 ∨ speed < 6 then b2.hostEvent 0x0803 p 0x3F 0 else b2 := by
  refine if_neg ?_
  rintro (h | h | h | h | h | ⟨h4, h8, h16⟩)
  · simp [hpwr] at h
  · simp [hdown] at h
  · simp [hperst] at h
  · exact hslow h
  · omega
  · omega

theorem hostLinkDownEff_of {ltssm : Nat} (hup : (b.portSt p).up = true) (h3 : ltssm ≠ 3) (h4 : ltssm ≠ 4) : hostLinkDownEff p ltssm b = b.leaveL0 p ltssm := by
  simp only [hostLinkDownEff, hup, h3, h4, or_self, if_true, if_false]

theorem functionLevelResetEff_of (hide : b.ideDrops fn = false) (hfn : b.fnExists fn = true) :
    functionLevelResetEff fn b = (if fn % 16 = 0 then b.clearVfs (fn / 16) else b).flr fn 1 := by
  simp only [functionLevelResetEff, hide, hfn, Bool.false_eq_true, Bool.true_eq_false, or_self, if_false]
  split <;> rfl

theorem ideCheckFailEff_of {stream : Nat} (hsecure : (b.ideSt p stream).state = 1) : ideCheckFailEff p stream b =
    let b1 : Block := { b with host := { b.host with ide := sset (fun _ => IdeSt.init) b.host.ide (ideKey p stream) { b.ideSt p stream with state := 2 } } }
    (b1.bump (F.ideFails p)).hostEvent 0x0806 p 0x3F 0 :=
  if_pos hsecure

/-! ### Host reads (R386, R392) -/

/-- A completion of an element's read leaves the data there and is counted for the reading function. -/
theorem hostReadCompletionEff_elem {i data : Nat} {d : Desc} {j : DmaJob} {x : ElemAt} (hread : b.readIssued (.elem camp seq i) = true)
    {b1 : Block} (hb1 : b1 = { b with host := { b.host with late := b.host.late.filter (· != .elem camp seq i) } })
    (hd : b1.desc? camp seq = some d) (hj : b1.dmaOf camp seq = some j) (hx : b1.elemAt d i = some x) (addr : Nat) :
    hostReadCompletionEff (.elem camp seq i) 0 addr data b =
      (b1.setDma { j with got := sset (fun _ => none) j.got i (some (data % 2 ^ (8 * x.bytes))) }).countHost
        (b.readOwner (.elem camp seq i)).2.2 x.field x.bytes false := by
  subst hb1
  simp only [hostReadCompletionEff, hread, hd, hj, hx, Bool.true_eq_false, ne_eq, not_true_eq_false, if_false]

theorem hostReadTimeoutEff_first {w : HostRead} (hread : b.readIssued w = true) (hlate : b.host.late.contains w = false) (addr : Nat) :
    hostReadTimeoutEff w addr b =
      let b1 := b.bump (F.cplTimeouts ((b.readOwner w).2.2 / 16))
      { b1 with host := { b1.host with late := b1.host.late ++ [w] } } := by
  simp only [hostReadTimeoutEff, hread, hlate, Bool.false_eq_true, Bool.true_eq_false, if_false]

/-- Settles O24: each command passes its own conditions. -/
theorem hostLinkCompletes : Obligations.HostLinkCompletes := by
  refine ⟨?up, ?down, ?hot, ?flr, ?vfs, ?read, ?late, ?poisoned, ?check, ?key, ?recovery, ?config⟩
  case up =>
    intro b q p speed width flit hpwr hdown hperst hslow hfast hwidth b1 b2
    rw [exec_hostLinkUp, hostLinkUpEff_of hpwr hdown hperst hslow hfast hwidth]
  case down =>
    intro b q p ltssm hup h3 h4
    rw [exec_hostLinkDown, hostLinkDownEff_of hup h3 h4]
  case hot =>
    intro b q p disable hup
    rw [exec_hotReset, hotResetEff, if_pos hup]
  case flr =>
    intro b q fn hide hfn
    rw [exec_functionLevelReset, functionLevelResetEff_of hide hfn]
  case vfs =>
    intro b q p hvf
    rw [exec_vfEnableClear, vfEnableClearEff, if_pos hvf]
  case read =>
    intro b q camp seq i addr data d j x w b1 hread hd hj hx
    rw [exec_hostReadCompletion, hostReadCompletionEff_elem hread rfl hd hj hx]
  case late =>
    intro b q w addr hread hlate b1
    rw [exec_hostReadTimeout, hostReadTimeoutEff_first hread hlate]
  case poisoned =>
    intro b q fn h
    rw [exec_barWritePoisoned, barWritePoisonedEff, tlp_of h]
  case check =>
    intro b q p stream hsecure b1
    rw [exec_ideCheckFail, ideCheckFailEff_of hsecure]
  case key =>
    intro b q p stream lo hi hsession
    rw [exec_ideKm, ideKmEff, if_pos hsession]
  case recovery =>
    intro b q p replays corr hup
    rw [exec_hostLinkRecovery, hostLinkRecoveryEff, if_pos hup]
  case config =>
    intro b q fn hide hfn
    simp only [exec_configurationRequest, configurationRequestEff, hide, hfn, Bool.false_eq_true, Bool.true_eq_false, if_false, implies_true, and_self]

end Sys2Proof.Machine
end

section
/-! PROOFS. The queue, reset (R473, R542, R85) and BAR4 where it is closed (R382, R546). -/
namespace Sys2Proof.Machine

variable {b : Block} {fn off : Nat}

/-! ### The queue -/

/-- Settles O1: a step is `exec` on the command that the queue's front holds. -/
theorem stepRunsFront : Obligations.StepRunsFront := ⟨fun c b q => step_cons b q c, step_nil⟩

/-- Settles O2: every arm of `exec` hands the queue on behind the block that its command leaves. -/
theorem everyCommandAnswers : Obligations.EveryCommandAnswers := by
  intro c b q
  cases c <;> exact ⟨_, rfl⟩

/-- Settles O35: a step takes the front of the queue away and puts nothing there. -/
theorem queueStaysWellFormed : Obligations.QueueStaysWellFormed := by
  rintro ⟨b, q⟩ s' hwf hs
  cases q with
  | nil =>
    obtain rfl : ⟨b, []⟩ = s' := by simpa [step_nil] using hs
    exact ⟨hwf, rfl⟩
  | cons c q =>
    obtain ⟨b', he⟩ := everyCommandAnswers c b q
    obtain rfl : ⟨b', q⟩ = s' := by simpa [step_cons, he] using hs
    exact ⟨fun x hx => hwf x (.tail c hx), rfl⟩

/-! ### Reset -/

theorem reset_ceilings : ∀ f, f < 96 → Block.reset.inForce (F.deskConfigCeiling f) = 1120 := by decide

theorem reset_image_camps : ∀ c, 1 ≤ c → c < 16 → campEnabled Block.reset.camp.live c = false := by decide

theorem reset_image_fns : ∀ fn, 1 ≤ fn → fn < 64 → fnByte Block.reset.camp.live fn = 0 := by decide

theorem reset_line (a : Nat) : Block.reset.mem.line a = none := ite_self none

/-- A thread that nothing has written reads 0 in every register, g0 as always. -/
theorem reset_thread (t r : Nat) : (Block.reset.thread t).live = false ∧ (Block.reset.thread t).rg r = 0 := ⟨rfl, ite_self 0⟩

theorem reset_memory (a : Nat) : Block.reset.mem.byte a = 0 ∧ Block.reset.mem.poisoned a = false := by
  simp only [MemPart.byte, MemPart.poisoned, reset_line]
  exact ⟨rfl, rfl⟩

/-- Settles O34: a store that lists nothing reads as its default, the registers as their Reset values and the camp table as the default image. -/
theorem resetState : Obligations.ResetState := by
  refine ⟨rfl, rfl, reset_mem_wf, fun _ => rfl, by decide, by decide, reset_ceilings, ?image, rfl, rfl, reset_thread, reset_memory⟩
  case image =>
    intro m
    exact ⟨rfl, by decide, by decide, by decide, by decide, by decide, by decide, by decide, reset_image_camps, by decide, reset_image_fns,
      by decide, by decide, by decide, by decide⟩

/-! ### BAR4 closed -/

theorem mayDebug_closed (h : fn % 16 ≠ 0 ∨ b.fnServes fn 0 = false ∨ b.boot.bringup = false) : b.mayDebug fn = false := by
  rcases h with h | h | h <;> simp [Block.mayDebug, h]

/-- An access of BAR4 that the function may not make is counted, and a read gives 0. -/
theorem bar4Access_denied (hr : Reaches b fn = true) (hd : b.mayDebug fn = false) (write : Bool) (g : Block → Block) :
    b.bar4Access fn off write g = if write then b.bump F.deniedWrites else (b.bump F.deniedReads).send (.readData fn (bar4 + off) 0) := by
  simp only [Block.bar4Access, tlp_of hr, hd, Bool.false_eq_true, if_false]

/-- Settles O43: the window and the capture buffer lie behind one access to BAR4. -/
theorem debugClosed : Obligations.DebugClosed := by
  intro b q fn off len data hr h
  have hd := mayDebug_closed h
  refine ⟨?write, ?read, fun v => ?capture⟩
  case write => rw [exec_dbgWindowAccess, dbgWindowAccessEff, bar4Access_denied hr hd, if_pos rfl]
  case read =>
    rw [exec_dbgWindowAccess, dbgWindowAccessEff, bar4Access_denied hr hd]
    rfl
  case capture => rw [exec_dbgCaptureWrite, dbgCaptureWriteEff, bar4Access_denied hr hd, if_pos rfl]

end Sys2Proof.Machine
end

section
/-! PROOFS. Yilgil ports (R444 to R446): what each command of a port does where its conditions hold. -/
namespace Sys2Proof.Machine

variable {b : Block} {p peer peerPort shape delay eye lane hits cause : Nat}

/-! ### Training -/

theorem ygLaneRequestEff_of (hen : b.boot.en.yilgil = true) (ht : (b.port p).state = 2) :
    ygLaneRequestEff p b = (b.setPort p { b.port p with asked := true }).askLanes p := by
  simp only [ygLaneRequestEff, hen, ht, Bool.true_eq_false, ne_eq, not_true_eq_false, or_self, if_false]

section PortUp
variable (hen : b.boot.en.yilgil = true) (ht : (b.port p).state = 2) (ha : (b.port p).asked = true) (hs : (b.port p).sick = 7) (hlane : 4 ≤ lane)
  (hg : b.lanesGranted p = true)
include hen ht ha hs hlane hg

/-- A trained port whose lanes all hold comes up, or finds the wrong peer or one too far away. -/
theorem ygPortUpEff_of : ygPortUpEff p peer peerPort shape delay eye lane hits b =
    if peer ≠ b.neighbour (bundleOf p) ∨ peerPort ≠ facingPort p ∨
        shape ≠ b.fget F.domainConfigDimX + 16 * b.fget F.domainConfigDimY + 256 * b.fget F.domainConfigDimZ then b.miswired p 1 peer
    else if 600 < delay then b.miswired p 2 peer
    else ((b.setPort p { YgPort.init with
      state := 3, asked := true, spareFor := (b.port p).spareFor, peer := peer, peerPort := peerPort, delay := delay, eye := eye, history := (b.port p).history,
      stream := (b.port p).stream, laneSince := b.fab.time, badSince := b.fab.time }).portEvent 0x0601 p
        (packBits [(0, 8, p), (8, 8, bundleOf p), (16, 16, peer), (32, 8, (b.port p).spareFor), (64, 32, delay)])).placeHeld.sendDigests := by
  simp only [ygPortUpEff, hen, ht, ha, hs, hg, Nat.not_lt.mpr hlane, Bool.true_eq_false, Bool.false_eq_true, ne_eq, not_true_eq_false, or_self, false_and,
    decide_false, if_false]

theorem ygPortUpEff_up (hpeer : peer = b.neighbour (bundleOf p)) (hport : peerPort = facingPort p)
    (hshape : shape = b.fget F.domainConfigDimX + 16 * b.fget F.domainConfigDimY + 256 * b.fget F.domainConfigDimZ) (hdelay : delay ≤ 600) :
    ygPortUpEff p peer peerPort shape delay eye lane hits b =
      ((b.setPort p { YgPort.init with
        state := 3, asked := true, spareFor := (b.port p).spareFor, peer := peer, peerPort := peerPort, delay := delay, eye := eye, history := (b.port p).history,
        stream := (b.port p).stream, laneSince := b.fab.time, badSince := b.fab.time }).portEvent 0x0601 p
          (packBits [(0, 8, p), (8, 8, bundleOf p), (16, 16, peer), (32, 8, (b.port p).spareFor), (64, 32, delay)])).placeHeld.sendDigests := by
  rw [ygPortUpEff_of hen ht ha hs hlane hg, if_neg (by simp [hpeer, hport, hshape]), if_neg (by omega)]

theorem ygPortUpEff_wrong (hwrong : peer ≠ b.neighbour (bundleOf p) ∨ peerPort ≠ facingPort p ∨
      shape ≠ b.fget F.domainConfigDimX + 16 * b.fget F.domainConfigDimY + 256 * b.fget F.domainConfigDimZ) :
    ygPortUpEff p peer peerPort shape delay eye lane hits b = b.miswired p 1 peer := by
  rw [ygPortUpEff_of hen ht ha hs hlane hg, if_pos hwrong]

theorem ygPortUpEff_far (hpeer : peer = b.neighbour (bundleOf p)) (hport : peerPort = facingPort p)
    (hshape : shape = b.fget F.domainConfigDimX + 16 * b.fget F.domainConfigDimY + 256 * b.fget F.domainConfigDimZ) (hdelay : 600 < delay) :
    ygPortUpEff p peer peerPort shape delay eye lane hits b = b.miswired p 2 peer := by
  rw [ygPortUpEff_of hen ht ha hs hlane hg, if_neg (by simp [hpeer, hport, hshape]), if_pos hdelay]

end PortUp

theorem ygTrainingFailedEff_of (hen : b.boot.en.yilgil = true) (ht : (b.port p).state = 2) (ha : (b.port p).asked = true) (found : Nat) :
    ygTrainingFailedEff p cause found b =
      if cause = 0 then ((b.bump (F.retrains p)).trainingFails p true).portEvent 0x0602 p (packBits [(0, 8, p), (8, 8, 4)]) else b.miswired p cause found := by
  simp only [ygTrainingFailedEff, hen, ht, ha, Bool.true_eq_false, ne_eq, not_true_eq_false, or_self, if_false]

theorem ygTrainRetryEff_of (hen : b.boot.en.yilgil = true) (hdown : (b.port p).state = 1) (hat : (b.port p).retryAt ≤ b.fab.time) :
    ygTrainRetryEff p b = b.setPort p { b.port p with state := 2 } := by
  simp only [ygTrainRetryEff, hen, hdown, Nat.not_lt.mpr hat, Bool.true_eq_false, ne_eq, not_true_eq_false, or_self, if_false]

/-! ### Retraining and holds -/

section Up
variable (hen : b.boot.en.yilgil = true) (hup : (b.port p).state = 3)
include hen hup

theorem ygRetrainEff_lock : ygRetrainEff p 1 lane b = b.retrainPort p 1 lane := by
  simp [ygRetrainEff, hen, hup]

theorem ygRetrainEff_codewords (hbad : 16 < (b.port p).bad) (hsoon : b.fab.time ≤ (b.port p).badSince + 1000000) :
    ygRetrainEff p 2 lane b = b.retrainPort p 2 7 := by
  simp [ygRetrainEff, hen, hup, hbad, hsoon]

theorem ygRetrainEff_naks (hnaks : 16 ≤ (b.port p).naks) : ygRetrainEff p 3 lane b = b.retrainPort p 3 7 := by
  simp [ygRetrainEff, hen, hup, hnaks]

theorem ygRetrainEff_peer : ygRetrainEff p 5 lane b = b.retrainPort p 5 7 := by
  simp [ygRetrainEff, hen, hup]

end Up

theorem ygPortHeldEff_of (hen : b.boot.en.yilgil = true) (hst : (b.port p).state = 1 ∨ (b.port p).state = 2)
    (hmany : max 1 (b.fget F.ygConfigRetrainLimit) ≤ b.recentRetrains p) : ygPortHeldEff p b =
    (((b.dropLanes p).setPort p { b.port p with
      state := 4, asked := false, spareFor := 7, sick := 7, retryAt := b.fab.time + 1000000000 * b.fget F.ygConfigHoldS }).bump (F.holds p)).portEvent 0x0604 p
        (packBits [(0, 8, p), (64, 32, b.recentRetrains p)]) := by
  refine if_neg ?_
  rintro (h | ⟨h1, h2⟩ | h)
  · simp [hen] at h
  · exact hst.elim h1 h2
  · exact Nat.not_lt.mpr hmany h

theorem ygHoldEndEff_of (hheld : (b.port p).state = 4) (hat : (b.port p).retryAt ≤ b.fab.time) :
    ygHoldEndEff p b = b.setPort p { b.port p with state := 2, history := [] } := by
  simp only [ygHoldEndEff, hheld, Nat.not_lt.mpr hat, ne_eq, not_true_eq_false, or_self, if_false]

/-- Settles O26: the state of the port and the time decide what each command does. -/
theorem yilgilPortsComplete : Obligations.YilgilPortsComplete := by
  intro b q p x
  refine ⟨?lanes, ?up, ?miswired, ?failed, ?retry, ?lock, ?codewords, ?naks, ?peer, ?held, ?holdEnd⟩
  case lanes =>
    intro hen ht
    rw [exec_ygLaneRequest, ygLaneRequestEff_of hen ht]
  case up =>
    intro peer peerPort shape delay eye lane hits hen ht ha hs hlane hg hpeer hport hshape hdelay
    rw [exec_ygPortUp, ygPortUpEff_up hen ht ha hs hlane hg hpeer hport hshape hdelay]
  case miswired =>
    intro peer peerPort shape delay eye lane hits hen ht ha hs hlane hg
    refine ⟨fun hwrong => ?_, fun hpeer hport hshape hdelay => ?_⟩
    · rw [exec_ygPortUp, ygPortUpEff_wrong hen ht ha hs hlane hg hwrong]
    · rw [exec_ygPortUp, ygPortUpEff_far hen ht ha hs hlane hg hpeer hport hshape hdelay]
  case failed =>
    intro hen ht ha
    refine ⟨?_, fun cause found hcause => ?_⟩
    · rw [exec_ygTrainingFailed, ygTrainingFailedEff_of hen ht ha, if_pos rfl]
    · rw [exec_ygTrainingFailed, ygTrainingFailedEff_of hen ht ha, if_neg hcause]
  case retry =>
    intro hen hdown hat
    rw [exec_ygTrainRetry, ygTrainRetryEff_of hen hdown hat]
  case lock =>
    intro lane hen hup
    rw [exec_ygRetrain, ygRetrainEff_lock hen hup]
  case codewords =>
    intro lane hen hup hbad hsoon
    rw [exec_ygRetrain, ygRetrainEff_codewords hen hup hbad hsoon]
  case naks =>
    intro lane hen hup hnaks
    rw [exec_ygRetrain, ygRetrainEff_naks hen hup hnaks]
  case peer =>
    intro lane hen hup
    rw [exec_ygRetrain, ygRetrainEff_peer hen hup]
  case held =>
    intro hen hst hmany
    rw [exec_ygPortHeld, ygPortHeldEff_of hen hst hmany]
  case holdEnd =>
    intro hheld hat
    rw [exec_ygHoldEnd, ygHoldEndEff_of hheld hat]

end Sys2Proof.Machine
end

section
/-! PROOFS. Yilgil traffic (R438 to R443): codewords, LINK flits and packets. -/
namespace Sys2Proof.Machine

variable {b : Block} {p : Nat} {room replay : Bool} {corrected flits u : List Nat} {msg : YgMsg}

/-! ### Codewords (R441) -/

theorem codewordReceiveEff_bad (hup : (b.port p).state = 3) (seq : Nat) :
    codewordReceiveEff p seq replay false corrected flits b = (b.countBad p).nak p := by
  simp only [codewordReceiveEff, hup, ne_eq, not_true_eq_false, if_true, if_false]

/-- A good codeword in its sequence, a REPLAY where one is awaited, enters the stream and is acknowledged every 16. -/
theorem codewordReceiveEff_good (hup : (b.port p).state = 3) {x : YgPort} (hx : x = (b.countCorrected p corrected).port p)
    (hreplay : x.replaying = true → replay = true) : codewordReceiveEff p x.rxSeq replay true corrected flits b =
      let b2 := (b.countCorrected p corrected).setPort p { x with
        rxSeq := (x.rxSeq + 1) % 4096, replaying := false, stream := x.stream ++ (flits ++ List.replicate (20 - flits.length) 0).take 20 }
      if (x.rxSeq + 1) % 16 = 0 then b2.sendLink p false 0 0 else b2 := by
  subst hx
  have hawaited : ¬ (((b.countCorrected p corrected).port p).replaying = true ∧ replay = false) := fun ⟨hr, hn⟩ => by simp [hreplay hr] at hn
  simp only [codewordReceiveEff, hup, hawaited, ne_eq, not_true_eq_false, or_false, Bool.true_eq_false, if_false]

/-! ### A unit of the stream (R440) -/

section Unit
variable (hup : (b.port p).state = 3) {sel : List (List Nat) → Option (List Nat)} {k : List Nat → List Nat → Block → Block}
include hup

/-- A flit of the reserved class at a boundary stops the port for a retrain. -/
theorem takeUnit_reserved (hres : hdrClass ((streamUnits (b.port p).stream (b.port p).stream.length).2.headD 0) = 3) : b.takeUnit p room sel k =
    (b.captureEntry (edgeSite p) 3 3 0 ((streamUnits (b.port p).stream (b.port p).stream.length).2.headD 0) 0 room).tick.retrainPort p
      (Config.downCause b.free).toNat 7 := by
  simp only [Block.takeUnit, hup, hres, ne_eq, not_true_eq_false, if_true, if_false]

theorem takeUnit_of (hres : hdrClass ((streamUnits (b.port p).stream (b.port p).stream.length).2.headD 0) ≠ 3)
    (hsel : sel (streamUnits (b.port p).stream (b.port p).stream.length).1 = some u) : b.takeUnit p room sel k =
    k u ((dropFirst (· == u) (streamUnits (b.port p).stream (b.port p).stream.length).1).flatten ++
      (streamUnits (b.port p).stream (b.port p).stream.length).2) b := by
  simp only [Block.takeUnit, hup, hres, hsel, ne_eq, not_true_eq_false, if_false]

end Unit

/-! ### LINK flits (R440) -/

/-- What is left of the stream when a unit has been taken out of it. -/
def YgPort.restOf (x : YgPort) (u : List Nat) : List Nat :=
  (dropFirst (· == u) (streamUnits x.stream x.stream.length).1).flatten ++ (streamUnits x.stream x.stream.length).2

section LinkFlit
variable (hup : (b.port p).state = 3) (hres : hdrClass ((streamUnits (b.port p).stream (b.port p).stream.length).2.headD 0) ≠ 3)
  (hu : (streamUnits (b.port p).stream (b.port p).stream.length).1.find? (fun u => decide (hdrClass (u.headD 0) = 0)) = some u)
  (hcredit : bitAt (u.headD 0) 4 = false)
include hup hres hu hcredit

/-- A LINK flit without a valid number acknowledges nothing. -/
theorem linkFlitEff_idle (hvalid : bitAt (u.headD 0) 2 = false) : linkFlitEff p room b =
    let b0 := b.captureEntry (edgeSite p) 3 0 0 (u.headD 0) 0 room
    (b0.setPort p { b0.port p with stream := (b.port p).restOf u }).flushPort p := by
  rw [linkFlitEff, takeUnit_of hup hres hu]
  simp only [hvalid, hcredit, Bool.false_and, Bool.false_eq_true, if_true, if_false, List.foldl_nil]
  rfl

/-- An acknowledgement frees the codewords up to its number, and clears the count of NAKs where it frees one. -/
theorem linkFlitEff_ack (hvalid : bitAt (u.headD 0) 2 = true) (hnak : bitAt (u.headD 0) 3 = false) : linkFlitEff p room b =
    let b0 := b.captureEntry (edgeSite p) 3 0 0 (u.headD 0) 0 room
    let x := { b0.port p with stream := (b.port p).restOf u }
    let kept := x.unacked.filter fun v => decide (2048 ≤ seqBehind v.1 (bitsOf (u.headD 0) 16 12))
    (b0.setPort p { x with unacked := kept, naks := if kept.length < x.unacked.length then 0 else x.naks }).flushPort p := by
  rw [linkFlitEff, takeUnit_of hup hres hu]
  simp only [hvalid, hnak, hcredit, Bool.and_false, Bool.false_and, Bool.or_false, Bool.true_and, Bool.false_eq_true, decide_eq_true_eq, if_true, if_false,
    List.foldl_nil]
  rfl

end LinkFlit

/-! ### Packets (R442, R443) -/

/-- A packet has left its receive buffer, whose flits the peer gets back as credits. -/
def Block.packetTaken (b : Block) (p : Nat) (room : Bool) (u : List Nat) : Block :=
  let b0 := b.captureEntry (edgeSite p) 3 (hdrClass (u.headD 0)) 0 (u.headD 0) ((u.drop 1).headD 0) room
  (b0.setPort p { b0.port p with stream := (b.port p).restOf u }).sendLink p false (hdrBuffer (u.headD 0)) u.length

section Packet
variable (hup : (b.port p).state = 3) (hres : hdrClass ((streamUnits (b.port p).stream (b.port p).stream.length).2.headD 0) ≠ 3)
  (hdue : b.packetDue (streamUnits (b.port p).stream (b.port p).stream.length).1 = some u)
include hup hres hdue

theorem yilgilPacketEff_transit (hdst : hdrDst (u.headD 0) ≠ b.moduleId) : yilgilPacketEff p msg room b =
    ((b.packetTaken p room u).bump F.transitPackets).placePacket
      ((b.captureEntry (edgeSite p) 3 (hdrClass (u.headD 0)) 0 (u.headD 0) ((u.drop 1).headD 0) room).withVc (u.headD 0) (some p) :: u.drop 1) := by
  rw [yilgilPacketEff, takeUnit_of hup hres hdue]
  exact if_pos hdst

/-- A packet that its flow has heard already is dropped. -/
theorem yilgilPacketEff_again (hdst : hdrDst (u.headD 0) = b.moduleId) (hflow : b.flowAhead (u.headD 0) ≠ 0) :
    yilgilPacketEff p msg room b = b.packetTaken p room u := by
  rw [yilgilPacketEff, takeUnit_of hup hres hdue]
  exact (if_neg (not_not.mpr hdst)).trans (if_pos hflow)

theorem yilgilPacketEff_hear (hdst : hdrDst (u.headD 0) = b.moduleId) (hflow : b.flowAhead (u.headD 0) = 0) (hclass : hdrClass (u.headD 0) ≠ 1) :
    yilgilPacketEff p msg room b =
      let b1 := b.packetTaken p room u
      let b2 : Block := { b1 with yg := { b1.yg with
        flowsIn := sset (fun _ => 0) b1.yg.flowsIn (flowKey (u.headD 0)) ((hdrSeqOf (u.headD 0) + 1) % 65536 + 1) } }
      (b2.send (.packet (edgeSite p) (bitAt (u.headD 0) 3) (u.headD 0) (u.drop 1))).hearMsg (hdrSrc (u.headD 0)) msg := by
  rw [yilgilPacketEff, takeUnit_of hup hres hdue]
  exact (if_neg (not_not.mpr hdst)).trans ((if_neg (not_not.mpr hflow)).trans (if_neg fun h => hclass h.1))

end Packet

/-- Settles O27: a unit is taken out of the stream, and its header says what happens to it. -/
theorem yilgilTrafficCompletes : Obligations.YilgilTrafficCompletes := by
  refine ⟨?codewords, ?link, ?packets⟩
  case codewords =>
    intro b q p replay corrected flits hup
    refine ⟨fun seq => ?_, ?_⟩
    · rw [exec_codewordReceive, codewordReceiveEff_bad hup]
    · intro b1 x hreplay b2
      rw [exec_codewordReceive, codewordReceiveEff_good hup rfl hreplay]
  case link =>
    intro b q p u room hup us hres hu h ack b0 x
    refine ⟨fun hvalid hcredit => ?_, ?_⟩
    · rw [exec_linkFlit, linkFlitEff_idle hup hres hu hcredit hvalid]
      rfl
    · intro hvalid hnak hcredit kept
      rw [exec_linkFlit, linkFlitEff_ack hup hres hu hcredit hvalid hnak]
      rfl
  case packets =>
    intro b q p msg room hup us
    refine ⟨?reserved, ?due⟩
    case reserved =>
      intro hres b1
      refine ⟨?_, ?_⟩
      · rw [exec_yilgilPacket, yilgilPacketEff, takeUnit_reserved hup hres]
      · rw [exec_linkFlit, linkFlitEff, takeUnit_reserved hup hres]
    case due =>
      intro u hres hdue h b0 b1
      refine ⟨fun hdst => ?_, fun hdst hflow => ?_, ?_⟩
      · rw [exec_yilgilPacket, yilgilPacketEff_transit hup hres hdue hdst]
        rfl
      · rw [exec_yilgilPacket, yilgilPacketEff_again hup hres hdue hdst hflow]
        rfl
      · intro hdst hflow hclass b2
        rw [exec_yilgilPacket, yilgilPacketEff_hear hup hres hdue hdst hflow hclass]
        rfl

end Sys2Proof.Machine
end

section
/-! PROOFS. Domain time (R453, R454) and collectives (R455 to R460): what each command does where its conditions hold. -/
namespace Sys2Proof.Machine

variable {b b1 : Block} {c f id part slot root rank field : Nat} {offset : Int} {p : CollPart}

/-! ### Domain time -/

theorem domainTimeMessageEff_join (hen : b.boot.en.yilgil = true) (hj : b.yg.domain.joined = false) :
    domainTimeMessageEff root offset b = b.joinDomain root (if root = b.moduleId then 0 else offset) := by
  simp only [domainTimeMessageEff, hen, hj, Bool.true_eq_false, if_true, if_false]
  split <;> rfl

theorem domainTimeMessageEff_follow (hen : b.boot.en.yilgil = true) (hj : b.yg.domain.joined = true) (hroot : root ≠ b.moduleId) :
    domainTimeMessageEff root offset b =
      let d := b.yg.domain
      let near := decide (offset.natAbs ≤ 50)
      (({ b with yg := { b.yg with domain := { d with
        root := root, locked := d.locked || near, skew := offset, slew := -offset, lastMsg := b.fab.time } } } : Block).raiseIf (near && !d.locked) 0x0608 0xFF 0xFF
          (packBits [(64, 32, (b.fab.time - d.unlockedAt) / 1000)])).sendTime root := by
  simp only [domainTimeMessageEff, hen, hj, hroot, Bool.true_eq_false, if_false]

theorem domainTimeMessageEff_root (hen : b.boot.en.yilgil = true) (hj : b.yg.domain.joined = true) (hroot : root = b.moduleId)
    (hdue : b.yg.domain.lastMsg + 1000 * b.timePeriod ≤ b.fab.time) : domainTimeMessageEff root offset b =
      ({ b with yg := { b.yg with domain := { b.yg.domain with root := root, locked := true, skew := 0, slew := 0, lastMsg := b.fab.time } } } : Block).sendTime
        root := by
  simp only [domainTimeMessageEff, hen, hj, ← hroot, Nat.not_lt.mpr hdue, Bool.true_eq_false, if_true, if_false]

theorem domainUnlockedEff_of (hj : b.yg.domain.joined = true) (hl : b.yg.domain.locked = true) (hroot : b.yg.domain.root ≠ b.moduleId)
    (hlate : b.yg.domain.lastMsg + 1000000 ≤ b.fab.time) : domainUnlockedEff b =
      ({ b with yg := { b.yg with domain := { b.yg.domain with locked := false, unlockedAt := b.fab.time } } } : Block).raise 0x0607 0xFF 0xFF
        (packBits [(64, 32, toTwos 32 b.yg.domain.skew)]) :=
  if_pos ⟨hj, hl, hroot, hlate⟩

/-! ### Parts (R455 to R458) -/

/-- Members whose digests agree, or a member alone, do not end a part (R449). -/
theorem digestsAgree (h : (b.yg.split.any fun x => x.1 == p.camp) = false ∨ p.members ≤ 1) :
    ¬ ((b.yg.split.any fun x => x.1 == p.camp) = true ∧ 1 < p.members) := fun ⟨hs, hm⟩ =>
  h.elim (fun hno => by simp [hs] at hno) fun hone => Nat.not_lt.mpr hone hm

/-- A valid entry at the head of a field's queue, its bytes read without poison, is posted; the head moves on and VALID is taken back. -/
theorem collQueueEntryEff_posts {at_ raw : Nat} (hon : b.boot.en.service = true) (hcamp : b.resetting c = false) (hq : b.queueValid c f = true)
    {g key i a : Nat} (hg : g = b.fget (F.collQueueGranule c)) (hkey : key = (16 * f + c) * 2 ^ 25 + g) (hi : i = sget (fun _ => 0) b.yg.heads key)
    (ha : a = granuleAddr f g + 64 * i) (hat : b.siteOf (bulkOp 0 c .read [a] 1 f) a = .at_ at_) (hb1 : b1 = b.check at_ 64)
    (hraw : raw = ofBytesLE (b1.readBytes at_ 64)) (hclean : b1.poisonIn at_ 64 = false) (hvalid : bitAt raw 24 = true)
    {late : Nat} {ranks : List Nat} (hlate : late = bitsOf raw 96 32)
    (hranks : ranks = b.groupRanks c (bitsOf raw 8 2) ((b.model? c (bitsOf raw 64 16)).elim 1 (·.sliceW)))
    (hpart : p = ⟨b.yg.nextPart, c, bitsOf raw 32 32, f, bitsOf raw 0 8, bitsOf raw 8 2, bitsOf raw 12 2, bitsOf raw 16 8, bitsOf raw 64 16, ranks.length,
      ranks.findIdx (· == b.ownRank c), bitsOf raw 128 64, bitsOf raw 192 64, bitsOf raw 256 40, if late = 0 then b.fget F.collConfigLateMs else late,
      b.fab.time, 0, .entry a⟩)
    (hopen : b.endedAt f c p.id = none) (hstatus : b.entryStatus raw p = 0) : collQueueEntryEff c f b =
      (({ b1 with yg := { b1.yg with heads := sset (fun _ => 0) b1.yg.heads key ((i + 1) % 512) } } : Block).entryWrite c (a + 3)
        (bytesLE 1 (bitsOf raw 24 8 - 1))).postPart p := by
  subst hg hkey hi ha hb1 hlate hranks
  have hid : b.endedAt f c (bitsOf raw 32 32) = none := by simpa only [hpart] using hopen
  simp only [collQueueEntryEff, hon, hcamp, hq, hat, ← hraw, hclean, hvalid, hid, ← hpart, hstatus, Bool.true_eq_false, Bool.false_eq_true, or_self, ne_eq,
    not_true_eq_false, if_false]

/-! ### Late parts, aborts and the settlement (R459, R460) -/

theorem collLateEff_of (hp : b.yg.parts.find? (fun p => p.serial == part) = some p)
    (hlate : p.at_ + 1000000 * max 1 p.lateMs + 1000 * p.pausedUs ≤ b.fab.time) (hstack : (b.stack p.field).state ≠ 2) :
    collLateEff part rank field b = b.sendAbort p rank field := by
  simp only [collLateEff, hp, Nat.not_lt.mpr hlate, hstack, or_self, if_false]

theorem collSettleEff_of {a : AbortSet} (ha : b.yg.aborts.find? (fun a => a.camp == c && a.id == id) = some a)
    (hdue : a.at_ + 1000 * max 1 (b.fget F.collConfigSettleUs) ≤ b.fab.time)
    (hp : (b.yg.parts.filter fun p => p.camp == c && p.id == id).head? = some p) : collSettleEff c id b =
      let k := a.culprit
      let m := b.rankModule c k.1
      let b1 : Block := { b with yg := { b.yg with aborts := b.yg.aborts.filter fun x => !(x.camp == c && x.id == id) } }
      let b2 := (b.yg.parts.filter fun p => p.camp == c && p.id == id).foldl (fun b p => b.endPart p 0x32 m k.2) b1
      let b3 := ((List.range 96).filter fun f => (b2.endedAt f c id).isNone).foldl (fun b f => b.rememberEnd f c ⟨id, 0x32, m, k.2⟩) b2
      let b4 := if m = b.moduleId then b3.bump F.culpritSelf else b3
      b4.raise 0x0609 0xFF c (packBits [(0, 8, p.op), (8, 8, p.group), (16, 16, m), (32, 8, k.2), (64, 32, id)]) := by
  simp only [collSettleEff, ha, Nat.not_lt.mpr hdue, hp, if_false]

/-- Settles O28: each command passes its own conditions; a part goes by its status, its user and its data. -/
theorem collectivesComplete : Obligations.CollectivesComplete := by
  refine ⟨?time, ?unlocked, ?entry, ?part, ?late, fun _ _ _ _ _ _ _ _ => rfl, ?settle⟩
  case time =>
    intro b q root offset hen d
    refine ⟨?join, ?follow, ?root⟩
    case join =>
      intro hj
      rw [exec_domainTimeMessage, domainTimeMessageEff_join hen hj]
    case follow =>
      intro hj hroot near
      rw [exec_domainTimeMessage, domainTimeMessageEff_follow hen hj hroot]
    case root =>
      intro hj hroot hdue
      rw [exec_domainTimeMessage, domainTimeMessageEff_root hen hj hroot hdue]
  case unlocked =>
    intro b q d hj hl hroot hlate
    rw [exec_domainUnlocked, domainUnlockedEff_of hj hl hroot hlate]
  case entry =>
    intro b q c f at_ hon hcamp hq g key i a hat b1 raw hclean hvalid group w ranks late p b2 hopen hstatus
    rw [exec_collQueueEntry, collQueueEntryEff_posts hon hcamp hq rfl rfl rfl rfl hat rfl rfl hclean hvalid rfl rfl rfl hopen hstatus]
  case part =>
    intro b q part slot p hp hab hsplit
    have hagree := digestsAgree hsplit
    refine ⟨?failed, ?entry, ?barrier, ?ring, ?attention, ?pass1, ?pass2, ?step⟩
    case failed =>
      intro failed others data hfailed
      simp only [exec_collPartComplete, collPartCompleteEff, hp, hab, hagree, hfailed, ne_eq, not_false_eq_true, Bool.false_eq_true, if_true, if_false]
    case entry =>
      intro a others data hu hop hlen hruns
      simp only [exec_collPartComplete, collPartCompleteEff, hp, hab, hagree, hu, hop, hlen, inSlot_of hruns, ne_eq, not_true_eq_false, Bool.false_eq_true, if_false]
    case barrier =>
      intro a others data hu hop
      simp only [exec_collPartComplete, collPartCompleteEff, hp, hab, hagree, hu, hop, ne_eq, not_true_eq_false, Bool.false_eq_true, if_true, if_false]
    case ring =>
      intro s layer others data hu
      simp only [exec_collPartComplete, collPartCompleteEff, hp, hab, hagree, hu, ne_eq, not_true_eq_false, Bool.false_eq_true, if_false]
    case attention =>
      intro s pair pos others parts hu hlen
      simp only [exec_collPartComplete, collPartCompleteEff, hp, hab, hagree, hu, hlen, ne_eq, not_true_eq_false, or_self, Bool.false_eq_true, if_false]
    case pass1 =>
      intro s pos others os hu hlen
      simp only [exec_collPartComplete, collPartCompleteEff, hp, hab, hagree, hu, hlen, ne_eq, not_true_eq_false, or_self, Bool.false_eq_true, if_false]
    case pass2 =>
      intro s pos others os hu hlen
      simp only [exec_collPartComplete, collPartCompleteEff, hp, hab, hagree, hu, hlen, ne_eq, not_true_eq_false, or_self, Bool.false_eq_true, if_false]
    case step =>
      intro others data hu
      simp only [exec_collPartComplete, collPartCompleteEff, hp, hab, hagree, hu, ne_eq, not_true_eq_false, Bool.false_eq_true, if_false]
  case late =>
    intro b q part rank field p hp hlate hstack
    rw [exec_collLate, collLateEff_of hp hlate hstack]
  case settle =>
    intro b q c id a p ha hdue hp k m b1 b2 b3 b4
    rw [exec_collSettle, collSettleEff_of ha hdue hp]

end Sys2Proof.Machine
end

section
/-! PROOFS. Dual consent (R474 to R485): what each command of a party does, what it decides and what it leaves. -/
namespace Sys2Proof.Machine

variable {b b' c x : Block} {q : List Instr} {mc frozen : Bool} {fn off image len code result : Nat} {data : List Nat}

/-! ### What a party's commands do -/

section Party
variable (h : mc = true ∨ Writes b fn 0x200000 = true)
include h

theorem consentCopyEff_of : consentCopyEff mc fn b =
    if b.camp.state = 0 then ({ b with camp := { b.camp with stage := b.camp.live } } : Block).consentReply mc 4 0 []
    else (b.bump F.stageLocked).consentReply mc 4 1 [] :=
  byParty_of h _

theorem writeStageEff_of (hlen : data.length ≤ 256) (hin : off + data.length ≤ imageLen) : writeStageEff mc fn off data b =
    (b.stageWrite off data).consentReply mc 3 (if b.camp.state = 0 then 0 else 1) [] := by
  rw [writeStageEff, byParty_of h, if_neg (by omega)]

theorem proposeEff_valid (hidle : b.camp.state = 0) (hvalid : b.validate = 0) : proposeEff mc fn b =
    let nonce := (Config.nonce b.free).toNat
    let n := b.camp.counter + 1
    let b1 : Block := { b.tick with camp := { b.camp with
      state := 1, proposer := party mc, errItem := 0, counter := n, nonce := nonce, digest := proposalDigest b.camp.stage nonce n
      windowEnd := b.fab.time + 1000000000 * windowS b.camp.live } }
    let b2 := (b1.bump F.proposals).consentEvent 0x0710 0 0
    b2.consentReply mc 5 0 b2.statusBytes := by
  rw [proposeEff, byParty_of h]
  exact (if_neg (not_not.mpr hidle)).trans (if_neg (not_not.mpr hvalid))

/-- A countersignature of a proposal that waits for one is the proposer's own, late, matching, or it differs. -/
theorem countersignEff_of (hlen : mc = true → data.length = 32) (hopen : b.camp.state = 1) : countersignEff mc fn data b =
    if b.camp.proposer = party mc then (b.bump F.wrongParty).consentReply mc 6 3 []
    else if b.camp.windowEnd < b.fab.time then (b.rejectProposal 3).consentReply mc 6 2 []
    else if (if mc then ofBytesLE (data.map (BitVec.ofNat 8)) else b.csDigest) = b.camp.digest then
      (({ b with camp := { b.camp with state := 2, approvedAt := b.fab.time } } : Block).consentEvent 0x0711 0 0).consentReply mc 6 0 []
    else (b.rejectProposal 2).consentReply mc 6 0 [] := by
  have hsize : ¬ (mc = true ∧ data.length ≠ 32) := fun ⟨hm, hn⟩ => hn (hlen hm)
  rw [countersignEff, byParty_of h]
  exact (if_neg hsize).trans (if_neg (not_not.mpr hopen))

theorem consentAbortEff_of : consentAbortEff mc fn b =
    if b.camp.state = 1 ∨ b.camp.state = 2 then (b.rejectProposal 5).consentReply mc 7 0 [] else b.consentReply mc 7 2 [] :=
  byParty_of h _

end Party

theorem readImageEff_of (himage : image ≤ 1) (hlen : len ≤ 256) (hin : off + len ≤ imageLen) : readImageEff image off len b =
    b.consentReply true 2 0 ((List.range len).map fun i => (imgByte (if image = 0 then b.camp.live else b.camp.stage) (off + i)).toNat) := by
  rw [readImageEff, if_neg (by omega), if_neg (by omega)]

/-- An approved change whose camps are all at a boundary is applied, or rejected where the store fails. -/
theorem consentApplyEff_approved (happr : b.camp.state = 2)
    (hat : ((affectedCamps b.camp.live b.camp.stage).any fun c => b.inStep c && !b.camp.held.contains c || b.resetting c) = false) (ok : Bool) :
    consentApplyEff ok b =
      if ok = false then b.rejectProposal 7
      else
        let b1 : Block := { b with camp := { b.camp.stored b.camp.stage with state := 3 } }
        if b.disabledCamps.isEmpty then b1.update else b.disabledCamps.foldl (fun b c => b.startCampReset c 3 0x3F) b1 := by
  simp only [consentApplyEff, happr, hat, Bool.false_eq_true, if_true, if_false]

theorem consentApplyEff_stored (hst : b.camp.state = 3) (hidle : b.disabledCamps.any b.resetting = false) (ok : Bool) : consentApplyEff ok b = b.update := by
  simp [consentApplyEff, hst, hidle]

/-- Settles O29: a party's command reaches the consent block, which goes by its state. -/
theorem consentCompletes : Obligations.ConsentCompletes := by
  refine ⟨?party, fun _ _ => rfl, ?read, ?expiry, ?approved, ?stored⟩
  case party =>
    intro b q mc fn h
    refine ⟨?copy, ?write, ?propose, ?countersign, ?abort⟩
    case copy => rw [exec_consentCopy, consentCopyEff_of h]
    case write =>
      intro off data hlen hin
      rw [exec_writeStage, writeStageEff_of h hlen hin]
    case propose =>
      intro hidle hvalid nonce n b1 b2
      rw [exec_propose, proposeEff_valid h hidle hvalid]
    case countersign =>
      intro data hopen hother hin hlen hsig
      rw [exec_countersign, countersignEff_of h hlen hopen, if_neg hother, if_neg (Nat.not_lt.mpr hin), if_pos hsig]
    case abort => rw [exec_consentAbort, consentAbortEff_of h]
  case read =>
    intro b q image off len himage hlen hin
    rw [exec_readImage, readImageEff_of himage hlen hin]
  case expiry =>
    intro b q hopen hend
    rw [exec_consentWindowExpiry, consentWindowExpiryEff, if_pos ⟨hopen, hend⟩]
  case approved =>
    intro b q happr hat b1
    refine ⟨?_, ?_⟩
    · rw [exec_consentApply, consentApplyEff_approved happr hat, if_neg (Bool.not_eq_false _ |>.mpr rfl)]
    · rw [exec_consentApply, consentApplyEff_approved happr hat, if_pos rfl]
  case stored =>
    intro b q ok hst hidle
    rw [exec_consentApply, consentApplyEff_stored hst hidle]

/-! ### The consent block's state (R474, R477) -/

theorem consentReply_camp (b : Block) (mc : Bool) (cmd code : Nat) (data : List Nat) : (b.consentReply mc cmd code data).camp = b.camp := by
  cases mc <;> rfl

theorem consentReply_state {cmd : Nat} (h : (x.consentReply mc cmd code data).camp.state = 2) : x.camp.state = 2 :=
  (congrArg CampPart.state (consentReply_camp x mc cmd code data)).symm.trans h

theorem stageWrite_state (b : Block) (o : Nat) (data : List Nat) : (b.stageWrite o data).camp.state = b.camp.state := by
  unfold Block.stageWrite
  split <;> rfl

/-- A party's command reaches the consent block, or is refused on the way. -/
theorem byParty_cases (b : Block) (mc : Bool) (fn : Nat) (f : Block → Block) :
    b.byParty mc fn f = f b ∨ b.byParty mc fn f = b ∨ b.byParty mc fn f = b.bump F.deniedWrites ∨
      b.byParty mc fn f = (b.bump (F.uncorrErrors (fn / 16))).send (.tlpStatus fn 1) := by
  cases mc with
  | true => exact .inl rfl
  | false =>
    have hbar : b.byParty false fn f = b.tlp fn fun b => if b.mayWrite fn 0x200000 then f b else b.bump F.deniedWrites := rfl
    rcases tlp_cases b fn (fun b => if b.mayWrite fn 0x200000 then f b else b.bump F.deniedWrites) with ⟨-, he⟩ | ⟨-, he⟩ | ⟨-, -, he⟩ <;> rw [hbar, he]
    · split
      · exact .inl rfl
      · exact .inr (.inr (.inl rfl))
    · exact .inr (.inl rfl)
    · exact .inr (.inr (.inr rfl))

/-- What a refused command changes is not the consent block. -/
theorem byParty_camp (b : Block) (mc : Bool) (fn : Nat) (f : Block → Block) :
    (b.byParty mc fn f).camp = (f b).camp ∨ (b.byParty mc fn f).camp = b.camp := by
  rcases byParty_cases b mc fn f with he | he | he | he <;> rw [he]
  · exact .inl rfl
  all_goals exact .inr rfl

/-- A command that does not approve by itself does not by way of its party either. -/
theorem byParty_state {f : Block → Block} (hf : (f b).camp.state = 2 → b.camp.state = 2) (h : (b.byParty mc fn f).camp.state = 2) : b.camp.state = 2 := by
  rcases byParty_camp b mc fn f with he | he <;> rw [he] at h
  · exact hf h
  · exact h

theorem consentCopy_state (h : (consentCopyEff mc fn b).camp.state = 2) : b.camp.state = 2 := by
  refine byParty_state (fun h => ?_) h
  split at h
  · exact (consentReply_state h :)
  · exact (consentReply_state h :)

theorem writeStage_state (h : (writeStageEff mc fn off data b).camp.state = 2) : b.camp.state = 2 := by
  refine byParty_state (fun h => ?_) h
  split at h
  · exact (consentReply_state h :)
  · exact (stageWrite_state b off data).symm.trans (consentReply_state h)

theorem propose_state (h : (proposeEff mc fn b).camp.state = 2) : b.camp.state = 2 := by
  refine byParty_state (fun h => ?_) h
  dsimp only at h
  split at h
  · exact (consentReply_state h :)
  · split at h
    · exact (consentReply_state h :)
    · exact absurd (consentReply_state h) (by decide : (1 : Nat) ≠ 2)

theorem consentAbort_state (h : (consentAbortEff mc fn b).camp.state = 2) : b.camp.state = 2 := by
  refine byParty_state (fun h => ?_) h
  split at h
  · exact absurd (consentReply_state h) (by decide : (0 : Nat) ≠ 2)
  · exact (consentReply_state h :)

theorem readImage_state (h : (readImageEff image off len b).camp.state = 2) : b.camp.state = 2 := by
  unfold readImageEff at h
  split at h
  · exact h
  · split at h <;> exact h

theorem consentWindowExpiry_state (h : (consentWindowExpiryEff b).camp.state = 2) : b.camp.state = 2 := by
  unfold consentWindowExpiryEff at h
  split at h
  · exact absurd h (by decide : (0 : Nat) ≠ 2)
  · exact h

/-- A countersignature approves where it is the other party's, within the window, and equal to the digest. -/
theorem countersign_state (hs : b.camp.state ≠ 2) (h : (countersignEff mc fn data b).camp.state = 2) :
    b.camp.state = 1 ∧ b.camp.proposer ≠ party mc ∧ b.fab.time ≤ b.camp.windowEnd ∧
      (if mc then ofBytesLE (data.map (BitVec.ofNat 8)) else b.csDigest) = b.camp.digest := by
  have hkept {y : Block} {cmd code : Nat} {data : List Nat} (hy : y.camp.state = b.camp.state) : (y.consentReply mc cmd code data).camp.state ≠ 2 :=
    fun h => hs (hy.symm.trans (consentReply_state h))
  have hended {result code : Nat} : ((b.rejectProposal result).consentReply mc 6 code []).camp.state ≠ 2 :=
    fun h => absurd (consentReply_state h) (by decide : (0 : Nat) ≠ 2)
  rcases byParty_camp b mc fn _ with he | he <;> rw [countersignEff, he] at h
  · by_cases hsize : mc = true ∧ data.length ≠ 32
    · exact absurd h (by rw [if_pos hsize]; exact hkept rfl)
    · rw [if_neg hsize] at h
      by_cases hopen : b.camp.state = 1
      · rw [if_neg (not_not.mpr hopen)] at h
        by_cases hown : b.camp.proposer = party mc
        · exact absurd h (by rw [if_pos hown]; exact hkept rfl)
        · rw [if_neg hown] at h
          by_cases hlate : b.camp.windowEnd < b.fab.time
          · exact absurd h (by rw [if_pos hlate]; exact hended)
          · rw [if_neg hlate] at h
            by_cases hsig : (if mc then ofBytesLE (data.map (BitVec.ofNat 8)) else b.csDigest) = b.camp.digest
            · exact ⟨hopen, hown, Nat.le_of_not_lt hlate, hsig⟩
            · exact absurd h (by rw [if_neg hsig]; exact hended)
      · exact absurd h (by rw [if_pos hopen]; exact hkept rfl)
  · exact absurd h hs

/-- Settles O55: of the consent commands only a countersignature leads to the approved state. -/
theorem countersignDecides : Obligations.CountersignDecides := by
  refine ⟨?decides, ?only⟩
  case decides =>
    intro b q fn data hopen hlen sig
    have hof := countersignEff_of (b := b) (fn := fn) (data := data) (.inl rfl) (fun _ => hlen) hopen
    refine ⟨fun hown => ?_, fun hother hin hsig => ?_⟩
    · rw [exec_countersign, hof]
      exact congrArg (fun x => Host.Outcome.next (State.mk x q)) (if_pos hown)
    · refine ⟨?_, rfl, rfl, rfl, rfl⟩
      rw [exec_countersign, hof]
      exact congrArg (fun x => Host.Outcome.next (State.mk x q)) ((if_neg hother).trans ((if_neg (Nat.not_lt.mpr hin)).trans (if_neg hsig)))
  case only =>
    intro b b' q c hc hs he h
    cases c with
    | consentCopy => cases he; exact absurd (consentCopy_state h) hs
    | writeStage => cases he; exact absurd (writeStage_state h) hs
    | propose => cases he; exact absurd (propose_state h) hs
    | countersign mc fn data => cases he; exact ⟨mc, fn, data, rfl, countersign_state hs h⟩
    | consentAbort => cases he; exact absurd (consentAbort_state h) hs
    | getStatus => cases he; exact absurd h hs
    | readImage => cases he; exact absurd (readImage_state h) hs
    | consentWindowExpiry => cases he; exact absurd (consentWindowExpiry_state h) hs
    | _ => cases hc

/-! ### What the consent commands leave (R475, R477) -/

/-- A block with the parts of `c` that a consent command may change: of the consent block all but the live image, the stored one, the resets, the camps
that are held and, while it is frozen, the stage. -/
def Block.besideConsent (c : Block) (frozen : Bool) (b : Block) : Block :=
  { b with
    regs := c.regs, ring := c.ring, boot := c.boot, out := c.out, free := c.free
    camp := { c.camp with live := b.camp.live, store := b.camp.store, resets := b.camp.resets, held := b.camp.held
                          stage := if frozen then b.camp.stage else c.camp.stage } }

section Kept
variable (h : Same (Block.besideConsent c frozen) b x)
include h

theorem besideConsent_reply (cmd code : Nat) (data : List Nat) : Same (Block.besideConsent c frozen) b (x.consentReply mc cmd code data) := .ite h h
theorem besideConsent_bump (f : Fld) : Same (Block.besideConsent c frozen) b (x.bump f) := h
theorem besideConsent_event (code result value : Nat) : Same (Block.besideConsent c frozen) b (x.consentEvent code result value) := h
theorem besideConsent_reject (result : Nat) : Same (Block.besideConsent c frozen) b (x.rejectProposal result) := h

/-- A frozen stage is not thawed by a change of it. -/
theorem besideConsent_stage (m : Sparse Byte) (hf : frozen = false) :
    Same (Block.besideConsent c frozen) b { x with camp := { x.camp with stage := m } } := by
  subst hf
  exact h

theorem besideConsent_byParty {f : Block → Block} (hf : Same (Block.besideConsent c frozen) b (f x)) :
    Same (Block.besideConsent c frozen) b (x.byParty mc fn f) := by
  rcases byParty_cases x mc fn f with he | he | he | he <;> rw [he]
  · exact hf
  all_goals exact h

end Kept

section Commands
variable (hf : frozen = true → b.camp.state ≠ 0)

include hf in
theorem besideConsent_copy : Same (Block.besideConsent c frozen) b (consentCopyEff mc fn b) :=
  besideConsent_byParty (.refl b) (.dite
    (fun hidle => besideConsent_reply (besideConsent_stage (.refl b) _ (Bool.eq_false_iff.mpr fun hfr => hf hfr hidle)) ..)
    fun _ => besideConsent_reply (besideConsent_bump (.refl b) _) ..)

include hf in
theorem besideConsent_write : Same (Block.besideConsent c frozen) b (writeStageEff mc fn off data b) :=
  besideConsent_byParty (.refl b) (.ite (besideConsent_reply (.refl b) ..) (besideConsent_reply (.dite
    (fun hidle => besideConsent_stage (.refl b) _ (Bool.eq_false_iff.mpr fun hfr => hf hfr hidle)) fun _ => besideConsent_bump (.refl b) _) ..))

theorem besideConsent_propose : Same (Block.besideConsent c frozen) b (proposeEff mc fn b) := by
  refine besideConsent_byParty (.refl b) (.ite (besideConsent_reply (besideConsent_bump (.refl b) _) ..) (.ite ?_ ?_))
  · exact besideConsent_reply (besideConsent_bump rfl _) ..
  · dsimp only
    refine besideConsent_reply (besideConsent_event (besideConsent_bump ?_ _) ..) ..
    rfl

theorem besideConsent_countersign : Same (Block.besideConsent c frozen) b (countersignEff mc fn data b) := by
  have hb : Same (Block.besideConsent c frozen) b b := .refl b
  exact besideConsent_byParty hb (.ite (besideConsent_reply hb ..) (.ite (besideConsent_reply hb ..) (.ite (besideConsent_reply (besideConsent_bump hb _) ..)
    (.ite (besideConsent_reply (besideConsent_reject hb _) ..) (.ite (besideConsent_reply (besideConsent_event rfl ..) ..)
      (besideConsent_reply (besideConsent_reject hb _) ..))))))

theorem besideConsent_abort : Same (Block.besideConsent c frozen) b (consentAbortEff mc fn b) :=
  besideConsent_byParty (.refl b) (.ite (besideConsent_reply (besideConsent_reject (.refl b) _) ..) (besideConsent_reply (.refl b) ..))

theorem besideConsent_read : Same (Block.besideConsent c frozen) b (readImageEff image off len b) :=
  .ite (besideConsent_reply (.refl b) ..) (.ite (besideConsent_reply (.refl b) ..) (besideConsent_reply (.refl b) ..))

/-- Every consent command leaves what stands beside its block, and the stage while it is frozen. -/
theorem besideConsent_command {k : Instr} (hk : k.ofConsent = true) (hf : frozen = true → b.camp.state ≠ 0) (he : exec k ⟨b, q⟩ = .next ⟨b', q⟩) :
    Same (Block.besideConsent c frozen) b b' := by
  cases k with
  | consentCopy => cases he; exact besideConsent_copy hf
  | writeStage => cases he; exact besideConsent_write hf
  | propose => cases he; exact besideConsent_propose
  | countersign => cases he; exact besideConsent_countersign
  | consentAbort => cases he; exact besideConsent_abort
  | getStatus => cases he; exact besideConsent_reply (.refl b) ..
  | readImage => cases he; exact besideConsent_read
  | consentWindowExpiry => cases he; exact .ite (besideConsent_reject (.refl b) _) (.refl b)
  | _ => cases hk

end Commands

/-- Settles O56: the frame of the consent block, with the stage frozen where the block is not IDLE. -/
theorem consentFrame : Obligations.ConsentFrame := by
  intro b b' q k hk he
  have hsame : Same (Block.besideConsent b false) b b' := besideConsent_command hk (fun h => by cases h) he
  refine ⟨congrArg (fun x => { x with camp := b.camp }) hsame, congrArg (·.camp.live) hsame, congrArg (·.camp.store) hsame,
    congrArg (·.camp.resets) hsame, congrArg (·.camp.held) hsame, fun hs => ?_⟩
  have hfrozen : Same (Block.besideConsent b true) b b' := besideConsent_command hk (fun _ => hs) he
  exact congrArg (·.camp.stage) hfrozen

end Sys2Proof.Machine
end

section
/-! PROOFS. Camp resets (R533 to R535), and power-off below 44.0 V (R503, R505). -/
namespace Sys2Proof.Machine

variable {b : Block} {q : List Instr} {c fn value vin : Nat} {r : CampReset}

/-! ### Camp resets -/

theorem campResetCmdEff_go (hw : Writes b fn 0x200080 = true) (hgo : bitAt value 31 = true) : campResetCmdEff fn value b =
    ((b.writeWord 0x200080 (BitVec.ofNat 32 value)).fset F.campResetCmdGo 0).startCampReset (bitsOf value 0 4) 2 0x3F := by
  rw [campResetCmdEff, barWrite_of hw]
  exact if_pos hgo

theorem campResetDoneEff_drained (hr : b.camp.resets.find? (fun r => r.camp == c) = some r) (hd : b.campDrained c = true) : campResetDoneEff c b =
    let us := (b.fab.time - r.start) / 1000
    let b1 := ((((b.releaseCamp c).freeCampState c).phaseAfterReset c).takeStep c).trimNow.leaveRings r
    let b2 : Block := { b1 with
      camp := { b1.camp with resets := b1.camp.resets.filter fun x => x.camp != c }
      boot := { b1.boot with lastCamp := c, lastCause := r.cause, lastMs := satTo 16 (us / 1000) }
      host := { b1.host with fns := (b1.campFns c).foldl (fun m fn => supd (fun _ => FnSt.init) m fn fun s => { s with campResetting := false }) b1.host.fns } }
    (((b2.setStepSt c StepSt.init).noteCapacity.freeCamp c).raise 0x0904 0xFF c
      (packBits [(0, 8, r.cause), (8, 8, r.fn), (32, 32, us), (64, 32, r.slots)])).rebuildIfIdle := by
  simp only [campResetDoneEff, hr, hd, Bool.true_eq_false, if_false]

/-- A camp's reset is marked as stuck. -/
def markStuck (c : Nat) (x : CampReset) : CampReset := if x.camp = c then { x with stuck := true } else x

theorem campResetStuckEff_late (hr : b.camp.resets.find? (fun r => r.camp == c) = some r) (hs : r.stuck = false)
    (hlate : max 1 (b.fget F.campResetLimitMs) ≤ (b.fab.time - r.start) / 1000000) : campResetStuckEff c b =
    ({ b with camp := { b.camp with resets := b.camp.resets.map (markStuck c) } } : Block).raise 0x0905 0xFF c
      (packBits [(32, 32, (b.fab.time - r.start) / 1000000)]) := by
  have hgo : ¬ (r.stuck = true ∨ (b.fab.time - r.start) / 1000000 < max 1 (b.fget F.campResetLimitMs)) := by
    rintro (h | h)
    · simp [hs] at h
    · omega
  simp only [campResetStuckEff, hr, hgo, if_false]
  rfl

/-- A reset that is marked already does nothing more. -/
theorem campResetStuckEff_marked (hr : b.camp.resets.find? (fun r => r.camp == c) = some r) (hs : r.stuck = true) : campResetStuckEff c b = b := by
  simp only [campResetStuckEff, hr, hs, true_or, if_true]

theorem markStuck_camp (x : CampReset) : (markStuck c x).camp = x.camp := by
  unfold markStuck
  split <;> rfl

/-- The mark stays with the camp's own reset. -/
theorem find_markStuck {rs : List CampReset} (hr : rs.find? (fun r => r.camp == c) = some r) :
    (rs.map (markStuck c)).find? (fun r => r.camp == c) = some { r with stuck := true } := by
  have hcamp : r.camp = c := by simpa using List.find?_some hr
  have hpred : ((fun r : CampReset => r.camp == c) ∘ markStuck c) = fun r => r.camp == c := funext fun x => by simp only [Function.comp, markStuck_camp]
  rw [List.find?_map, hpred, hr, Option.map_some, markStuck, if_pos hcamp]

/-- Settles O30: the command starts the reset, its end waits for the camp's operations, and its limit is looked at once. -/
theorem campResetsComplete : Obligations.CampResetsComplete := by
  refine ⟨?command, ?done, ?stuck⟩
  case command =>
    intro b q fn value hw hgo
    rw [exec_campResetCmd, campResetCmdEff_go hw hgo]
  case done =>
    intro b q c r hr hd us b1 b2
    rw [exec_campResetDone, campResetDoneEff_drained hr hd]
  case stuck =>
    intro b q c r hr hs ms hlate
    rw [exec_campResetStuck, campResetStuckEff_late hr hs hlate]
    rfl

/-- Settles O57: the event leaves the resets, where the camp's own is found marked. -/
theorem campResetStuckOnce : Obligations.CampResetStuckOnce := by
  intro b q c r hr hs ms hlate b'
  have hb' : b'.camp.resets.find? (fun r => r.camp == c) = some { r with stuck := true } := find_markStuck hr
  refine ⟨?_, ?_, ?_⟩
  · rw [exec_campResetStuck, campResetStuckEff_late hr hs hlate]
    rfl
  · rw [exec_campResetStuck, campResetStuckEff_marked hb' rfl]
  · exact List.any_eq_true.mpr ⟨_, List.mem_of_find?_eq_some hb', by simpa using List.find?_some hb'⟩

/-! ### The ramp-down (R82) -/

theorem sget_map {α : Type} {d : Nat → α} {f : α → α} (hf : ∀ k, f (d k) = d k) (m : Sparse α) (k : Nat) :
    sget d (m.map fun kv => (kv.1, f kv.2)) k = f (sget d m k) := by
  induction m with
  | nil => exact (hf k).symm
  | cons kv m ih =>
    simp only [List.map_cons, sget]
    split
    · rfl
    · exact ih

theorem desk_rampDown (b : Block) (f : Nat) : ({ b with rat := b.rat.rampDown } : Block).desk f = (b.desk f).rampDown :=
  sget_map (d := fun _ => Desk.init) (fun _ => rfl) b.rat.desks f

/-- What tapers counts in the level as what was granted or covered. -/
theorem level_rampDown (d : Desk) : d.rampDown.level = d.level := by
  simp only [Desk.rampDown, Desk.level, sumGrants, sumReqs, List.map_nil, List.foldl_nil]
  omega

/-! ### Power-off (R503, R505) -/

theorem commitField_modu (fs : List Nat) (b : Block) : Same Block.modu b (fs.foldl (fun b f => b.commitField f) b) :=
  Same.foldl (p := Block.modu) (g := fun b f => b.commitField f) (fun _ _ => rfl) fs b

theorem powerLost_modu (b : Block) : Same Block.modu b b.powerLost := .ite (commitField_modu _ b.tick) (.refl b)

theorem discardProposal_modu (b : Block) : Same Block.modu b b.discardProposal := .ite rfl rfl

theorem railsDown_vinMv (b : Block) : b.railsDown.modu.vinMv = b.modu.vinMv :=
  (congrArg ModulePart.vinMv ((powerLost_modu b).trans (discardProposal_modu b.powerLost)) :)

theorem powerOff_ramps (hon : b.modu.pwrGood = true) (hfab : b.boot.en.fabric = true) (hfl : b.atFloors = false) :
    b.powerOff = { b with modu := { b.modu with pwrGood := false, offRamp := true }, rat := b.rat.rampDown } := by
  simp only [Block.powerOff, hon, hfab, hfl, Bool.true_eq_false, and_self, if_true, if_false]

theorem powerOff_falls (hon : b.modu.pwrGood = true) (hdown : b.boot.en.fabric = false ∨ b.atFloors = true) : b.powerOff = b.railsDown.send .powerOff := by
  have hno : ¬ (b.boot.en.fabric = true ∧ b.atFloors = false) := by
    rintro ⟨hfab, hfl⟩
    rcases hdown with h | h
    · simp [h] at hfab
    · simp [h] at hfl
  simp only [Block.powerOff, hon, hno, Bool.true_eq_false, if_false]

/-- The input as measured. -/
def Block.withVin (b : Block) (vin : Nat) : Block := { b with modu := { b.modu with vinMv := vin } }

theorem undervoltPowerOffEff_of (h : vin < 44000) : undervoltPowerOffEff vin b = (b.withVin vin).powerOff :=
  if_neg (Nat.not_le.mpr h)

/-- Settles O58: the wafer ramps down where its desks stand above their floors, and the rails fall otherwise. -/
theorem undervoltPowersOff : Obligations.UndervoltPowersOff := by
  intro b q vin hvin hon
  refine ⟨_, exec_undervoltPowerOff .., ?_⟩
  rw [undervoltPowerOffEff_of hvin]
  by_cases hramp : b.boot.en.fabric = true ∧ b.atFloors = false
  · obtain ⟨hfab, hfl⟩ := hramp
    rw [powerOff_ramps (b := b.withVin vin) hon hfab hfl]
    refine ⟨rfl, rfl, fun _ _ => ⟨rfl, rfl, fun f => ?_⟩, fun h => ?_⟩
    · have hdesk := desk_rampDown b f
      exact ⟨congrArg Desk.queue hdesk, congrArg Desk.grants hdesk, (congrArg Desk.level hdesk).trans (level_rampDown _)⟩
    · simp [hfab, hfl] at h
  · have hdown : b.boot.en.fabric = false ∨ b.atFloors = true := by
      cases hfab : b.boot.en.fabric with
      | false => exact .inl rfl
      | true => exact .inr (by simpa [hfab] using hramp)
    rw [powerOff_falls (b := b.withVin vin) hon hdown]
    exact ⟨rfl, railsDown_vinMv _, fun hfab hfl => absurd ⟨hfab, hfl⟩ hramp, fun _ => ⟨rfl, rfl, rfl⟩⟩

end Sys2Proof.Machine
end

section
/-! PROOFS. The module (R499 to R517), its management (R484 to R489), start-up and debug (R520 to R550): what each command does where its conditions hold. -/
namespace Sys2Proof.Machine

variable {b : Block} {p f vin watts off len value fn : Nat}

/-! ### Management and attestation -/

theorem pldmPowerCycleEff_of (vcore : Nat) (h : 46000 ≤ b.modu.vinMv) :
    pldmPowerCycleEff vcore b = b.coldReset 2 b.modu.vinMv b.modu.iinDa b.modu.pinW b.modu.auxW vcore :=
  if_neg (Nat.not_lt.mpr h)

theorem getMeasurementsEff_of (doe : Bool) {i : Nat} (hlo : 1 ≤ i) (hhi : i ≤ 7) :
    getMeasurementsEff doe i b = b.send (.spdm doe 0x60 (i :: b.measurement i)) :=
  if_pos ⟨hlo, hhi⟩

/-- Settles O31: most of these commands have one effect; the power commands go by the input and the desks. -/
theorem managementCompletes : Obligations.ManagementCompletes := by
  intro b q
  refine ⟨fun _ => rfl, ?sensor, fun _ => rfl, fun _ _ => rfl, ?event, ?ramp, ?off, ?cycle, rfl, ?attest, fun _ => rfl, ?finish⟩
  case sensor =>
    intro kind f
    rw [exec_pldmGetSensor]
    rfl
  case event =>
    intro e r hm
    simp only [exec_pldmEventFetch, pldmEventFetchEff, hm]
  case ramp =>
    intro hon hfab hfl
    rw [exec_pldmPowerOff, pldmPowerOffEff, powerOff_ramps hon hfab hfl]
  case off =>
    intro hon hdown
    rw [exec_pldmPowerOff, pldmPowerOffEff, powerOff_falls hon hdown]
  case cycle =>
    intro vcore hvin
    rw [exec_pldmPowerCycle, pldmPowerCycleEff_of vcore hvin]
  case attest =>
    intro doe
    refine ⟨rfl, fun _ _ => rfl, rfl, fun i hlo hhi => ?_⟩
    rw [exec_getMeasurements, getMeasurementsEff_of doe hlo hhi]
  case finish =>
    intro port hs
    rw [exec_finish, finishEff, if_pos ⟨rfl, hs⟩]

/-! ### Power and the input -/

theorem powerOnEff_of (h : 46000 ≤ vin) (iin pin aux vcore : Nat) : powerOnEff vin iin pin aux vcore b = b.coldReset 1 vin iin pin aux vcore :=
  if_neg (Nat.not_lt.mpr h)

section Powered
variable (hon : b.modu.pwrGood = true)
include hon

theorem inputUndervoltEff_of (h : vin < 46000) : inputUndervoltEff vin b =
    let b1 : Block := { b with modu := { b.modu with vinMv := vin, underVolt := true } }
    if b.modu.underVolt then b1 else (b1.bump F.uvEvents).modEvent 0x0203 0xFF 0 0 0 0 0 := by
  simp only [inputUndervoltEff, Nat.not_le.mpr h, hon, Bool.true_eq_false, or_self, if_false]

theorem inputRecoverEff_of (h : 46500 ≤ vin) : inputRecoverEff vin b = { b with modu := { b.modu with vinMv := vin, underVolt := false } } := by
  simp only [inputRecoverEff, Nat.not_lt.mpr h, hon, Bool.true_eq_false, or_self, if_false]

theorem powerOverEff_of (iin slew : Nat) : powerOverEff watts iin slew b =
    let isOver := decide (20000 < watts)
    let b1 := (({ b with modu := { b.modu with pinW := watts, iinDa := iin, powerOver := isOver } } : Block).peak F.modPeakPinPeakW watts).peak
      F.modPeakSlewPeak slew
    if isOver then (b1.count F.powerOverMs 10).raiseIf (!b.modu.powerOver) 0x0205 0xFF 0xFF (packBits [(32, 16, b.modu.vinMv), (48, 16, watts)])
    else b1 := by
  simp only [powerOverEff, hon, Bool.true_eq_false, if_false]

/-! ### Cooling and temperatures -/

/-- A coolant sample is noted, a low flow is timed, and the start of an alarm raises it. -/
theorem coolantSampleEff_of (inlet outlet flow : Nat) : coolantSampleEff inlet outlet flow b =
    let low := flow < 10 * b.fget F.thermConfigFlowMinLpm
    let hot := b.fget F.thermConfigInletMaxC < inlet
    let b1 : Block := { b with modu := { b.modu with inletC := inlet, outletC := outlet, flowDlpm := flow, coolantAlarm := decide (low ∨ hot) } }
    let b2 := if low then b1.count F.flowLowMs 100 else b1
    if (low ∨ hot) ∧ b.modu.coolantAlarm = false then b2.modEvent 0x0206 0xFF inlet 0 (if low then 1 else 2) 0 flow else b2 := by
  simp only [coolantSampleEff, hon, Bool.true_eq_false, if_false, Bool.and_eq_true, Bool.or_eq_true, decide_eq_true_eq, Bool.not_eq_true', Bool.decide_or]

theorem coolantSampleEff_calm {inlet outlet flow : Nat} (hflow : 10 * b.fget F.thermConfigFlowMinLpm ≤ flow) (hin : inlet ≤ b.fget F.thermConfigInletMaxC) :
    coolantSampleEff inlet outlet flow b =
      { b with modu := { b.modu with inletC := inlet, outletC := outlet, flowDlpm := flow, coolantAlarm := false } } := by
  simp only [coolantSampleEff_of hon, Nat.not_lt.mpr hflow, Nat.not_lt.mpr hin, or_self, false_and, if_false, decide_false]

theorem logicThermalSampleEff_of (temps : List Nat) : logicThermalSampleEff temps b =
    let pairs := (List.range 96).map fun f => (f, temps.getD f (sget (fun _ => 0) b.modu.logicC f) % 256)
    let cool := pairs.all fun x => decide (x.2 ≤ 100)
    let b1 := pairs.foldl (fun b x => b.peak (F.fieldThermPeakC x.1) x.2) b
    let b2 : Block := { b1 with modu := { b1.modu with
      logicC := pairs.foldl (fun m x => sset (fun _ => 0) m x.1 x.2) b.modu.logicC
      coolSince := if cool = false then 0 else if b.modu.coolSince = 0 then b.fab.time + 1 else b.modu.coolSince } }
    if 115 ≤ b2.modu.hottest.1 then b2.logicTrip b2.modu.hottest.2 b2.modu.hottest.1 else b2 :=
  if_neg fun ⟨hoff, _⟩ => by simp [hon] at hoff

/-- A hot field steps the logic down by 10, not below 30, at most once in 1 ms. -/
theorem logicThrottleStepEff_down (hhot : 105 ≤ b.modu.hottest.1) (hpct : 30 < b.modu.logicPct) (hdue : b.modu.lastStep + 1000000 ≤ b.fab.time) :
    logicThrottleStepEff b = b.setLogicPct (max 30 (b.modu.logicPct - 10)) := by
  have hgo : ¬ (b.modu.logicPct ≤ 30 ∨ b.modu.logicPct < 100 ∧ (!b.boot.en.fabric || decide (b.modu.lastStep + 1000000 * 1 ≤ b.fab.time)) = false) := by
    rintro (h | ⟨-, h⟩)
    · omega
    · simp [hdue] at h
  simp only [logicThrottleStepEff, hon, hhot, hgo, decide_true, Bool.true_eq_false, if_true, if_false]

/-! ### Pins and stages -/

theorem perstAssertEff_of (hp : bitAt b.modu.perst p = false) : perstAssertEff p b =
    let b1 : Block := { b with modu := { b.modu with perst := setBit b.modu.perst p true } }
    let b2 := if (b1.portSt p).up then b1.leaveL0 p 0 else b1.portReset p
    if p = 0 ∧ b.fget F.hostConfigH0PerstWafer = 1 then b2.startWaferReset 4 else b2 := by
  simp only [perstAssertEff, hon, hp, Bool.true_eq_false, Bool.false_eq_true, or_self, if_false]

theorem forceThrottleAssertEff_of (hf : b.modu.force = false) : forceThrottleAssertEff b = b.setForce true := by
  simp only [forceThrottleAssertEff, hon, hf, Bool.true_eq_false, Bool.false_eq_true, or_self, if_false]

theorem fieldStageFaultEff_of {rail : Nat} (hs : bitAt b.modu.stages f = true) (hr : rail = 1 ∨ rail = 2 ∨ rail = 3) : fieldStageFaultEff f rail watts b =
    let b1 := if rail = 1 then b.fieldPowerless f else b
    let b2 := (b1.shuntOn watts).modEvent 0x0209 f 0 0 rail 0 0
    if (b2.stack f).state = 4 then b2 else if b2.boot.en.dram then (b2.stackFault f true).stackParts f (b2.stack f).state else b2.stackDark f 3 0 := by
  have hrail : ¬ (rail = 0 ∨ 3 < rail) := by omega
  simp only [fieldStageFaultEff, hon, hs, hrail, Bool.true_eq_false, or_false, if_false]
  rfl

end Powered

/-- An accepted deassertion of a pin ends its stuck state; H0's lets the waiting wafer start up. -/
theorem perstDeassertEff_of (hp : bitAt b.modu.perst p = true) : perstDeassertEff p b =
    let b1 : Block := { b with modu := { b.modu with perst := setBit b.modu.perst p false, perstStuck := setBit b.modu.perstStuck p false } }
    if p = 0 ∧ b.boot.ramped = true then b1.leaveRamp else b1 :=
  if_neg (by simp [hp])

theorem perstStuckEff_of (hp : bitAt b.modu.perst p = true) (hs : bitAt b.modu.perstStuck p = false) : perstStuckEff p b =
    ({ b with modu := { b.modu with perstStuck := setBit b.modu.perstStuck p true } } : Block).toController 0x0208
      (packBits [(16, 4, p), (32, 16, b.modu.vinMv)]) :=
  if_neg (by simp [hp, hs])

/-- Settles O32: each command passes its own conditions. -/
theorem moduleCompletes : Obligations.ModuleCompletes := by
  intro b q
  refine ⟨?on, ?off, ?taper, fun _ => rfl, ?deassert, ?stuck, ?unforce, ?held, ?powered⟩
  case on =>
    intro vin iin pin aux vcore hvin
    rw [exec_powerOn, powerOnEff_of hvin]
  case off =>
    intro vin hvin
    rw [exec_undervoltPowerOff, undervoltPowerOffEff_of hvin]
    rfl
  case taper =>
    intro hshunt
    rw [exec_shuntTaperEnd, shuntTaperEndEff, if_pos hshunt]
  case deassert =>
    intro p hp b1
    rw [exec_perstDeassert, perstDeassertEff_of hp]
  case stuck =>
    intro p hp hs
    rw [exec_perstStuck, perstStuckEff_of hp hs]
  case unforce =>
    intro hforce
    rw [exec_forceThrottleDeassert, forceThrottleDeassertEff, if_pos hforce]
  case held =>
    intro hforce hlong
    rw [exec_forceThrottleHeld, forceThrottleHeldEff]
    exact congrArg (fun x => Host.Outcome.next (State.mk x q)) (if_pos ⟨hforce, hlong⟩)
  case powered =>
    intro hon
    refine ⟨?under, ?recover, ?shunt, ?overPower, ?coolant, ?thermal, ?throttle, ?perst, ?force, ?stage, ?perstGlitch, ?forceGlitch⟩
    case under =>
      intro vin hvin b1
      rw [exec_inputUndervolt, inputUndervoltEff_of hon hvin]
    case recover =>
      intro vin hvin
      rw [exec_inputRecover, inputRecoverEff_of hon hvin]
    case shunt =>
      intro watts
      rw [exec_shuntCatch, shuntCatchEff, if_pos hon]
    case overPower =>
      intro watts iin slew isOver b1
      rw [exec_powerOver, powerOverEff_of hon]
    case coolant =>
      intro inlet outlet flow hflow hin
      rw [exec_coolantSample, coolantSampleEff_calm hon hflow hin]
    case thermal =>
      intro temps pairs cool b1 b2
      rw [exec_logicThermalSample, logicThermalSampleEff_of hon]
    case throttle =>
      intro hhot hpct hdue
      rw [exec_logicThrottleStep, logicThrottleStepEff_down hon hhot hpct hdue]
    case perst =>
      intro p hp b1 b2
      rw [exec_perstAssert, perstAssertEff_of hon hp]
    case force =>
      intro hf
      rw [exec_forceThrottleAssert, forceThrottleAssertEff_of hon hf]
    case stage =>
      intro f rail watts hs hr b1 b2
      rw [exec_fieldStageFault, fieldStageFaultEff_of hon hs hr]
    case perstGlitch => rw [exec_perstGlitch, perstGlitchEff, if_pos hon]
    case forceGlitch => rw [exec_forceThrottleGlitch, forceThrottleGlitchEff, if_pos hon]

/-- Settles O59: on a powered module the sample's two alarms decide. -/
theorem coolantOnly : Obligations.CoolantOnly := by
  intro b q inlet outlet flow hon low hot b1 b2
  rw [exec_coolantSample, coolantSampleEff_of hon]

/-! ### Start-up and debug -/

/-- A stage that can end does its work and is recorded; then start-up halts, waits, or goes on. -/
theorem startupStageDoneEff_of {w : StageWork} (hon : b.modu.pwrGood = true) (hk : b.boot.stage < 10) (hh : b.boot.hold = false)
    (hr : b.boot.ramped = false) (hramp : b.stageRamping b.boot.stage = false) : startupStageDoneEff w b =
    let k := b.boot.stage
    let b1 := (b.stageWork k w).recordStage k w.us
    if b1.boot.stage = 15 then b1
    else if k = 0 then (if b1.perstHolds then { b1 with boot := { b1.boot with ramped := true } } else b1.leaveRamp)
    else b1.beginStage (b1.nextStage k) :=
  if_neg (by simp [hon, hh, hr, hramp, hk])

theorem bootContinueEff_of {us : Nat} (hw : Writes b fn 0x100008 = true) (hc : bitAt value 0 = true) (hh : b.boot.hold = true) :
    bootContinueEff fn value us b =
      let k := b.boot.stage
      let b1 := ({ b with boot := { b.boot with hold := false } } : Block).recordStage k us
      b1.beginStage (b1.nextStage k) := by
  rw [bootContinueEff, barWrite_of hw]
  exact if_pos ⟨hc, hh⟩

section Debug
variable (hd : Debugs b fn = true)
include hd

theorem dbgWindowAccessEff_window (write : Bool) (data : Nat) (h : off < 0x8000000) :
    dbgWindowAccessEff fn off len write data b = b.windowAccess fn off len write data := by
  rw [dbgWindowAccessEff, bar4Access_of hd]
  exact if_pos h

theorem dbgWindowAccessEff_capture (data : Nat) (hlo : 0x8000000 ≤ off) (hhi : off < 0x9000000) :
    dbgWindowAccessEff fn off len false data b = b.captureRead fn off len := by
  rw [dbgWindowAccessEff, bar4Access_of hd]
  exact (if_neg (Nat.not_lt.mpr hlo)).trans (if_pos hhi)

theorem dbgWindowAccessEff_page (write : Bool) (data : Nat) (h : 0xFFFF000 ≤ off) :
    dbgWindowAccessEff fn off len write data b = b.pageAccess fn off len write data := by
  rw [dbgWindowAccessEff, bar4Access_of hd]
  exact (if_neg (by omega)).trans ((if_neg (by omega)).trans (if_pos h))

end Debug

/-- Settles O33: the register writes by their function's right, the stage by what it waits for, BAR4 by the range of the access. -/
theorem bootAndDebugComplete : Obligations.BootAndDebugComplete := by
  refine ⟨?reset, ?stage, ?go, ?stopped, ?debug⟩
  case reset =>
    intro b q fn value hw
    rw [exec_resetCtrl, resetCtrlEff, barWrite_of hw]
  case stage =>
    intro b q w k hon hk hh hr hramp b1
    rw [exec_startupStageDone, startupStageDoneEff_of hon hk hh hr hramp]
  case go =>
    intro b q fn value us hw hc hh k b1
    rw [exec_bootContinue, bootContinueEff_of hw hc hh]
  case stopped =>
    intro b q hrun
    rw [exec_fwStopped, fwStoppedEff, if_pos hrun]
  case debug =>
    intro b q fn hd
    refine ⟨?window, ?capture, ?page, ?restart⟩
    case window =>
      intro off len write data h
      rw [exec_dbgWindowAccess, dbgWindowAccessEff_window hd write data h]
    case capture =>
      intro off len data hlo hhi
      rw [exec_dbgWindowAccess, dbgWindowAccessEff_capture hd data hlo hhi]
    case page =>
      intro off len write data h
      rw [exec_dbgWindowAccess, dbgWindowAccessEff_page hd write data h]
    case restart =>
      intro value b1
      rw [exec_dbgCaptureWrite, dbgCaptureWriteEff, bar4Access_of hd]

end Sys2Proof.Machine
end

section
/-! PROOFS. Stores in a core's local memory (R149, R153): the bytes of a run below the SRAM and DRAM windows are written word by word, past every cache. -/
namespace Sys2Proof.Machine

variable {b b' b'' : Block} {p k n : Nat} {xs : List Byte}

/-! ### Addresses below DRAM -/

theorem isDram_below (h : p < dramBase) : isDram p = false := by
  simp [isDram, Nat.not_le.mpr h]

theorem wordBytes_below (h : p < dramBase) : wordBytes p = 8 := by
  simp [wordBytes, isDram_below h]

theorem wordOf_below (h : p < dramBase) : wordOf p = p / 8 * 8 := by
  rw [wordOf, wordBytes_below h]

theorem line_below (m : MemPart) (h : p < dramBase) : m.line p = none := by
  simp [MemPart.line, isDram_below h]

theorem darkAt_below (b : Block) (h : p < dramBase) : b.darkAt p = false := by
  simp [Block.darkAt, isDram_below h]

theorem put_bad : ∀ (xs : List Byte) (m : MemPart) (p : Nat), (m.put p xs).bad = m.bad
  | [], _, _ => rfl
  | _ :: xs, _, _ => put_bad xs _ _

/-! ### What a store of a run leaves -/

/-- A run of bytes stands in the memory, its codewords without an error; the other bytes, the lines, and the words without poison or an error are as they
were. -/
structure Leaves (p : Nat) (xs : List Byte) (b b' : Block) : Prop where
  armed : b'.fget F.flipCtrlArm = b.fget F.flipCtrlArm
  lines : b'.mem.lines = b.mem.lines
  bytes : ∀ a, sget (fun _ => 0) b'.mem.bytes a = if p ≤ a ∧ a < p + xs.length then xs.getD (a - p) 0 else sget (fun _ => 0) b.mem.bytes a
  poison : ∀ w, sget (fun _ => false) b.mem.poison w = false → sget (fun _ => false) b'.mem.poison w = false
  clean : ∀ w, sget (fun _ => 0) b.mem.bad w = 0 → sget (fun _ => 0) b'.mem.bad w = 0
  good : ∀ i, i < xs.length → sget (fun _ => 0) b'.mem.bad (wordOf (p + i)) = 0

theorem Leaves.nothing (p : Nat) (b : Block) : Leaves p [] b b where
  armed := rfl
  lines := rfl
  bytes a := (if_neg (by simp only [List.length_nil]; omega)).symm
  poison _ h := h
  clean _ h := h
  good i h := absurd h (Nat.not_lt_zero i)

/-- A run is stored by storing its first bytes, then the others. -/
theorem Leaves.append (h : Leaves p (xs.take k) b b') (h' : Leaves (p + k) (xs.drop k) b' b'') : Leaves p xs b b'' where
  armed := h'.armed.trans h.armed
  lines := h'.lines.trans h.lines
  bytes a := by
    rw [h'.bytes, h.bytes, List.length_drop, List.length_take]
    by_cases hlo : a < p + k
    · have hdrop : ¬ (p + k ≤ a ∧ a < p + k + (xs.length - k)) := by omega
      have hin : (p ≤ a ∧ a < p + min k xs.length) ↔ (p ≤ a ∧ a < p + xs.length) := by omega
      simp only [hdrop, hin, if_false]
      split
      · rw [List.getD_eq_getElem?_getD, List.getD_eq_getElem?_getD, List.getElem?_take_of_lt (by omega)]
      · rfl
    · by_cases hhi : a < p + xs.length
      · have hdrop : p + k ≤ a ∧ a < p + k + (xs.length - k) := by omega
        have hin : p ≤ a ∧ a < p + xs.length := by omega
        rw [if_pos hdrop, if_pos hin, List.getD_eq_getElem?_getD, List.getD_eq_getElem?_getD, List.getElem?_drop]
        congr 2
        omega
      · rw [if_neg (by omega), if_neg (by omega), if_neg (by omega)]
  poison w hw := h'.poison w (h.poison w hw)
  clean w hw := h'.clean w (h.clean w hw)
  good i hi := by
    by_cases hk : i < k
    · exact h'.clean _ (h.good i (by rw [List.length_take]; omega))
    · have hrest := h'.good (i - k) (by rw [List.length_drop]; omega)
      rwa [show p + k + (i - k) = p + i by omega] at hrest

/-! ### Storing below DRAM -/

/-- No mask is armed, and no word of a run holds poison. -/
structure Plain (p : Nat) (xs : List Byte) (b : Block) : Prop where
  unarmed : b.fget F.flipCtrlArm ≠ 1
  sound : ∀ i, i < xs.length → sget (fun _ => false) b.mem.poison (wordOf (p + i)) = false

theorem Plain.take (h : Plain p xs b) (k : Nat) : Plain p (xs.take k) b where
  unarmed := h.unarmed
  sound i hi := h.sound i (by rw [List.length_take] at hi; omega)

theorem Plain.drop (h : Plain p xs b) (hb : Leaves p (xs.take k) b b') : Plain (p + k) (xs.drop k) b' where
  unarmed := hb.armed ▸ h.unarmed
  sound i hi := hb.poison _ (Nat.add_assoc p k i ▸ h.sound (k + i) (by rw [List.length_drop] at hi; omega))

/-- A word, or a part of one, is stored. -/
theorem putWord_leaves (hp : p < dramBase) (hb : Plain p xs b) (hne : xs ≠ []) (hlen : xs.length ≤ 8 - p % 8) : Leaves p xs b (b.putWord p xs) := by
  have hlive : sget (fun _ => false) b.mem.poison (wordOf p) = false := hb.sound 0 (List.length_pos_iff.mpr hne)
  have hunarmed : b.flipArmed p = false := Bool.and_eq_false_iff.mpr (.inl (decide_eq_false hb.unarmed))
  have hput : b.putWord p xs = { b with mem := b.mem.putWord p xs } := by
    simp only [Block.putWord, hlive, Bool.false_and, Bool.false_eq_true, if_false]
    exact if_neg (Bool.not_eq_true _ ▸ hunarmed)
  have hmem : b.mem.putWord p xs = { b.mem.put p xs with
      poison := sset (fun _ => false) b.mem.poison (wordOf p) false, bad := sset (fun _ => 0) b.mem.bad (wordOf p) 0 } := by
    simp only [MemPart.putWord, hlive, Bool.false_and, Bool.false_eq_true, if_false, put_poison, put_bad]
  rw [hput, hmem]
  refine ⟨rfl, put_lines xs b.mem p, bytes_put xs b.mem p, fun w hw => ?_, fun w hw => ?_, fun i hi => ?_⟩
  · simp only [sget_sset, hw, ite_self]
  · simp only [sget_sset, hw, ite_self]
  · have hword : wordOf (p + i) = wordOf p := by
      have hin : p + i < dramBase := by
        simp only [dramBase] at hp ⊢
        omega
      rw [wordOf_below hin, wordOf_below hp]
      omega
    simp only [sget_sset, hword, if_true]

theorem putBytes_leaves (n : Nat) : ∀ {p : Nat} {xs : List Byte} {b : Block}, xs.length ≤ n → p + xs.length ≤ dramBase → Plain p xs b →
    Leaves p xs b (b.putBytes p n xs) := by
  induction n with
  | zero =>
    intro p xs b hlen hp hb
    obtain rfl : xs = [] := List.length_eq_zero_iff.mp (by omega)
    exact .nothing p b
  | succ n ih =>
    intro p xs b hlen hp hb
    cases xs with
    | nil => exact .nothing p b
    | cons x xs =>
      have hin : p < dramBase := by simp only [List.length_cons] at hp; omega
      have hword := wordBytes_below hin
      have hfirst : Leaves p ((x :: xs).take (8 - p % 8)) b (b.putWord p ((x :: xs).take (8 - p % 8))) :=
        putWord_leaves hin (hb.take _) (by simp; omega) (by rw [List.length_take]; omega)
      simp only [Block.putBytes, List.isEmpty_cons, Bool.false_eq_true, if_false, hword]
      refine hfirst.append (ih ?_ ?_ (hb.drop hfirst)) <;> rw [List.length_drop] <;> simp only [List.length_cons, dramBase] at * <;> omega

theorem storePart_below (b : Block) (xs : List Byte) (hp : p < dramBase) : b.storePart p xs = b.putBytes p xs.length xs := by
  simp only [Block.storePart, darkAt_below b hp, isDram_below hp, Bool.false_and, Bool.false_eq_true, if_false]

theorem storeBytes_leaves (n : Nat) : ∀ {p : Nat} {xs : List Byte} {b : Block}, xs.length ≤ n → p + xs.length ≤ dramBase → Plain p xs b →
    Leaves p xs b (b.storeBytes p n xs) := by
  induction n with
  | zero =>
    intro p xs b hlen hp hb
    obtain rfl : xs = [] := List.length_eq_zero_iff.mp (by omega)
    exact .nothing p b
  | succ n ih =>
    intro p xs b hlen hp hb
    cases xs with
    | nil => exact .nothing p b
    | cons x xs =>
      have hin : p < dramBase := by simp only [List.length_cons] at hp; omega
      have hfirst : Leaves p ((x :: xs).take (128 - p % 128)) b (b.storePart p ((x :: xs).take (128 - p % 128))) := by
        rw [storePart_below b _ hin]
        exact putBytes_leaves _ le_rfl (by rw [List.length_take]; omega) (hb.take _)
      simp only [Block.storeBytes, List.isEmpty_cons, Bool.false_eq_true, if_false]
      refine hfirst.append (ih ?_ ?_ (hb.drop hfirst)) <;> rw [List.length_drop] <;> simp only [List.length_cons, dramBase] at * <;> omega

/-! ### Reading back -/

/-- A reader gets the byte that stands below DRAM, where its codeword has no error. -/
theorem readByte_below (b : Block) (hp : p < dramBase) (hbad : sget (fun _ => 0) b.mem.bad (wordOf p) = 0) :
    b.readByte p = sget (fun _ => 0) b.mem.bytes p := by
  have hw : wordOf p < dramBase := by rw [wordOf_below hp]; omega
  have hcode : b.codeAt p = wordOf p := by simp only [Block.codeAt, line_below b.mem hp]
  have hright : b.decodeAt (wordOf p) ≠ .wrong := by
    have hzero : badUnits (isDram (wordOf p)) 0 = 0 := by rw [isDram_below hw]; decide
    simp only [Block.decodeAt, hbad, hzero, if_true]
    split <;> exact fun h => by cases h
  simp only [Block.readByte, darkAt_below b hp, hcode, hright, Bool.false_eq_true, if_false, MemPart.byte, line_below b.mem hp]

theorem Leaves.read (h : Leaves p xs b b') (hp : p + xs.length ≤ dramBase) : b'.readBytes p xs.length = xs := by
  refine List.ext_getElem (by simp [Block.readBytes]) fun i hi hi' => ?_
  simp only [Block.readBytes, List.getElem_map, List.getElem_range]
  rw [readByte_below b' (by omega) (h.good i hi'), h.bytes, if_pos (by omega), Nat.add_sub_cancel_left, List.getD_eq_getElem?_getD,
    List.getElem?_eq_getElem hi', Option.getD_some]

theorem localAddr_below {f core off len : Nat} (hf : f < 96) (hc : core < 288) (ho : off + len ≤ 0x40000) : localAddr f core off + len ≤ dramBase := by
  simp only [localAddr, localBase, dramBase]
  omega

/-- Settles O49: the run lies in the local memory, which no cache and no DRAM code word holds. -/
theorem storeThenLoad : Obligations.StoreThenLoad := by
  intro b f core off xs hf hc ho hpoison harm p b'
  have hp : p + xs.length ≤ dramBase := localAddr_below hf hc ho
  have hb : Plain p xs b := ⟨harm, fun i hi => by
    have hsound := hpoison (p + i)
    rwa [MemPart.poisoned, line_below b.mem (by omega)] at hsound⟩
  have hleaves : Leaves p xs b b' := storeBytes_leaves xs.length le_rfl hp hb
  have hline (a : Nat) : b'.mem.line a = b.mem.line a := by simp only [MemPart.line, hleaves.lines]
  refine ⟨fun i x hx => ?_, fun _ => hleaves.read hp, fun a ha => ?_, fun a => ?_⟩
  · obtain ⟨hi, rfl⟩ := List.getElem?_eq_some_iff.mp hx
    refine ⟨?_, hleaves.good i hi⟩
    rw [hleaves.bytes, if_pos (by omega), Nat.add_sub_cancel_left, List.getD_eq_getElem?_getD, List.getElem?_eq_getElem hi, Option.getD_some]
  · rw [MemPart.byte, MemPart.byte, hline, hleaves.bytes, if_neg (by omega)]
  · have hsound := hpoison a
    rw [MemPart.poisoned] at hsound ⊢
    rw [hline]
    cases hl : b.mem.line a with
    | some l => rwa [hl] at hsound
    | none =>
      rw [hl] at hsound
      exact hleaves.poison _ hsound

end Sys2Proof.Machine
end

section
/-! PROOFS. What the ration commands of a desk leave (R61 to R84, R241). -/
namespace Sys2Proof.Machine

variable {b b' c x : Block} {q : List Instr} {f n unit thread sub cls camp amount : Nat} {who : Asker} {standing : Bool}

/-- A block with the parts of `c` that a desk's ration command may change: the desks, the threads and cores that wait for grants, counters and events. -/
def Block.besideDesk (c b : Block) : Block :=
  { b with regs := c.regs, ring := c.ring, boot := c.boot, rat := { b.rat with desks := c.rat.desks }
           tc := { b.tc with threads := c.tc.threads, cores := c.tc.cores } }

/-- What is apart from those parts, and every desk but `f`. -/
def Block.offDesk (c : Block) (f : Nat) (b : Block) : Block × (Nat → Desk) := (c.besideDesk b, fun g => if g = f then Desk.init else b.desk g)

section Kept
variable (h : Same (Block.offDesk c f) b x)
include h

theorem offDesk_count (e : Fld) (n : Nat) : Same (Block.offDesk c f) b (x.count e n) := h
theorem offDesk_bump (e : Fld) : Same (Block.offDesk c f) b (x.bump e) := h
theorem offDesk_raise (code source camp payload : Nat) : Same (Block.offDesk c f) b (x.raise code source camp payload) := h

theorem offDesk_setDesk (d : Desk) : Same (Block.offDesk c f) b (x.setDesk f d) := by
  refine h.trans (Prod.ext rfl (funext fun g => ?_))
  by_cases hg : g = f
  · simp only [Block.offDesk, hg, if_true]
  · simp only [Block.offDesk, hg, if_false, desk_setDesk_ne x d hg]

theorem offDesk_granted (g : Nat) (r : Req) (now : Nat) : Same (Block.offDesk c f) b { x with tc := x.tc.granted g r now } := by
  obtain ⟨th, co, he⟩ := granted_frame x.tc g r now
  rw [he]
  exact h

theorem offDesk_delivered (g : Nat) (rs : List Req) : Same (Block.offDesk c f) b (x.delivered g rs) := by
  obtain ⟨r, th, co, he⟩ := delivered_frame g rs x
  rw [he]
  exact h

theorem offDesk_giveBack (n : Nat) : Same (Block.offDesk c f) b (x.giveBack f n) :=
  .ite (offDesk_count (offDesk_setDesk h _) ..) (offDesk_delivered (offDesk_count (offDesk_setDesk h _) ..) ..)

theorem offDesk_removeReqs (out : Req → Bool) : Same (Block.offDesk c f) b (x.removeReqs f out) :=
  .ite h (offDesk_giveBack (offDesk_setDesk h _) _)

theorem offDesk_release : Same (Block.offDesk c f) b (x.release f who) := by
  unfold Block.release
  split
  · exact offDesk_giveBack (offDesk_setDesk (offDesk_removeReqs h _) _) _
  · exact h

theorem offDesk_request (cls camp amount : Nat) (standing : Bool) : Same (Block.offDesk c f) b (x.request f who cls camp amount standing) := by
  have hrefused := offDesk_raise (offDesk_bump h (F.deskRefused f)) 0x0302 f camp (x.reqPayload f who cls (x.refusal f who amount) amount 0)
  refine .ite ?refused (.ite (offDesk_setDesk h _) (offDesk_delivered (offDesk_setDesk (offDesk_setDesk h _) _) ..))
  split
  · exact offDesk_granted hrefused ..
  · exact hrefused

theorem offDesk_catchDrop (unit camp lost : Nat) : Same (Block.offDesk c f) b (x.catchDrop f unit camp lost) := by
  have hcaught : Same (Block.offDesk c f) b (x.setDesk f { x.desk f with caught := (x.desk f).caught + min lost (512 - (x.desk f).ballast) }) :=
    offDesk_setDesk h _
  unfold Block.catchDrop
  dsimp only
  split <;> split
  · exact hcaught
  · exact offDesk_raise (offDesk_bump hcaught _) ..
  · exact offDesk_raise (offDesk_bump hcaught _) ..
  · exact offDesk_raise (offDesk_bump (offDesk_raise (offDesk_bump hcaught _) ..) _) ..

theorem offDesk_dropDraw : Same (Block.offDesk c f) b (x.dropDraw f who) := by
  unfold Block.dropDraw
  split
  · exact offDesk_catchDrop (offDesk_setDesk (offDesk_removeReqs h _) _) ..
  · exact h

end Kept

theorem offDesk_rationStarved : Same (Block.offDesk c f) b (rationStarvedEff f unit thread sub b) := by
  have hb : Same (Block.offDesk c f) b b := .refl b
  unfold rationStarvedEff
  split
  · exact .ite (offDesk_raise (offDesk_bump (offDesk_setDesk hb _) _) ..) hb
  · exact hb

/-! ### The arrays (R241) -/

/-- A request's array passes to its camp, and the rest stays. -/
theorem passTo_cases (b : Block) (f : Nat) (who : Asker) (camp : Nat) :
    b.passTo f who camp = b ∨ (0x140 ≤ who.unit ∧ who.unit < 0x14C ∧ who.sub = 2) ∧ ∃ a, b.passTo f who camp = b.setArray f (who.unit - 0x140) a := by
  unfold Block.passTo
  split
  · next hw =>
    unfold Block.passArray
    dsimp only
    split
    · exact .inl rfl
    · exact .inr ⟨hw, _, rfl⟩
  · exact .inl rfl

/-- What a desk's command leaves, with the arrays but one, which changes only where it passes. -/
def Block.keptByDesk (b b' : Block) (f k : Nat) (passes : Prop) : Prop :=
  { b' with regs := b.regs, ring := b.ring, boot := b.boot, rat := b.rat, tc := b.tc, arr := b.arr } = b ∧ (¬ passes → b'.arr = b.arr) ∧
  (∀ j, j ≠ k → sget (fun _ => ArrSt.init) b'.arr j = sget (fun _ => ArrSt.init) b.arr j) ∧
  (∀ g, g ≠ f → b'.desk g = b.desk g) ∧ b'.rat.plans = b.rat.plans ∧ b'.tc.jobs = b.tc.jobs ∧ b'.tc.ops = b.tc.ops

theorem keptByDesk_of (h : Same (Block.offDesk b f) b b') (k : Nat) (passes : Prop) : b.keptByDesk b' f k passes := by
  have hbeside : b.besideDesk b' = b.besideDesk b := congrArg Prod.fst h
  have harr : b'.arr = b.arr := congrArg (·.arr) hbeside
  refine ⟨congrArg (fun x => { x with rat := b.rat, tc := b.tc, arr := b.arr }) hbeside, fun _ => harr, fun j _ => by rw [harr], fun g hg => ?_,
    congrArg (·.rat.plans) hbeside, congrArg (·.tc.jobs) hbeside, congrArg (·.tc.ops) hbeside⟩
  simpa only [Block.offDesk, hg, if_false] using congrFun (congrArg Prod.snd h) g

/-- The same where an array has passed before: of the arrays only its own has changed. -/
theorem keptByDesk_passed {a : ArrSt} {passes : Prop} (hp : passes) (h : (b.setArray f n a).keptByDesk b' f (arrKey f n) False) :
    b.keptByDesk b' f (arrKey f n) passes := by
  obtain ⟨hrest, harr, -, hdesks, hplans, hjobs, hops⟩ := h
  refine ⟨congrArg (fun x => { x with arr := b.arr }) hrest, fun hn => absurd hp hn, fun j hj => ?_, hdesks, hplans, hjobs, hops⟩
  rw [harr not_false]
  exact sget_sset_ne hj

theorem keptByDesk_request (b : Block) : b.keptByDesk (rationRequestEff f unit thread sub cls camp amount standing b) f (arrKey f (unit - 0x140))
    (0x140 ≤ unit ∧ unit < 0x14C ∧ sub = 2) := by
  have hstays : b.keptByDesk (b.request f ⟨unit, thread, sub⟩ cls camp amount standing) f (arrKey f (unit - 0x140)) (0x140 ≤ unit ∧ unit < 0x14C ∧ sub = 2) :=
    keptByDesk_of (offDesk_request (.refl b) ..) _ _
  unfold rationRequestEff
  dsimp only
  split
  · rcases passTo_cases b f ⟨unit, thread, sub⟩ camp with he | ⟨hp, a, he⟩ <;> rw [he]
    · exact hstays
    · exact keptByDesk_passed hp (keptByDesk_of (offDesk_request (.refl _) ..) _ _)
  · exact hstays

/-- Settles O38: a request may pass its array first; otherwise the arrays stay. -/
theorem rationFrame : Obligations.RationFrame := by
  intro b b' q f unit thread sub cls camp amount standing k hk he
  rcases hk with rfl | rfl | rfl | rfl | rfl <;> cases he
  · exact keptByDesk_request b
  · exact keptByDesk_of (offDesk_release (.refl b)) _ _
  · exact keptByDesk_of offDesk_rationStarved _ _
  · exact keptByDesk_of (offDesk_dropDraw (.refl b)) _ _
  · exact keptByDesk_of (offDesk_setDesk (.refl b) _) _ _

end Sys2Proof.Machine
end

section
/-! PROOFS. What the commands of one Yilgil port leave (R439 to R446). -/
namespace Sys2Proof.Machine

variable {b b' c x : Block} {q : List Instr} {p seq : Nat} {replay good room : Bool} {corrected flits : List Nat}

/-- A block with the parts of `c` that a port's command may change: the ports, their lanes' rations with what waits for those, counters, events, what is
captured and what goes outward. -/
def Block.besidePorts (c b : Block) : Block :=
  { b with regs := c.regs, rat := c.rat, tc := c.tc, ring := c.ring, boot := c.boot, dbg := c.dbg, out := c.out, yg := { b.yg with ports := c.yg.ports } }

/-- What is apart from those parts, and every port but `p`. -/
def Block.offPort (c : Block) (p : Nat) (b : Block) : Block × (Nat → YgPort) := (c.besidePorts b, fun j => if j = p then YgPort.init else b.port j)

section Kept
variable (h : Same (Block.offPort c p) b x)
include h

theorem offPort_count (e : Fld) (n : Nat) : Same (Block.offPort c p) b (x.count e n) := h
theorem offPort_bump (e : Fld) : Same (Block.offPort c p) b (x.bump e) := h
theorem offPort_send (o : Out) : Same (Block.offPort c p) b (x.send o) := h

theorem offPort_setPort (s : YgPort) : Same (Block.offPort c p) b (x.setPort p s) := by
  refine h.trans (Prod.ext rfl (funext fun j => ?_))
  by_cases hj : j = p
  · simp only [Block.offPort, hj, if_true]
  · simp only [Block.offPort, hj, if_false, port_setPort_ne x s hj]

theorem offPort_captureEntry (site kind cls port header payload : Nat) (room : Bool) :
    Same (Block.offPort c p) b (x.captureEntry site kind cls port header payload room) :=
  .ite (.ite h (offPort_bump h _)) h

/-- A desk's ration command keeps the ports. -/
theorem offPort_request (f : Nat) (who : Asker) (cls camp amount : Nat) (standing : Bool) :
    Same (Block.offPort c p) b (x.request f who cls camp amount standing) := by
  have hdesk : x.besideDesk (x.request f who cls camp amount standing) = x.besideDesk x :=
    congrArg Prod.fst (offDesk_request (c := x) (.refl x) cls camp amount standing : Same _ _ (x.request f who cls camp amount standing))
  have hport : Block.offPort c p (x.besideDesk (x.request f who cls camp amount standing)) = Block.offPort c p (x.besideDesk x) :=
    congrArg (Block.offPort c p) hdesk
  exact h.trans hport

end Kept

/-- A fold of steps that each keep what is apart from a port keeps it. -/
theorem offPort_foldl {α : Type} {g : Block → α → Block} (hg : ∀ x a, Same (Block.offPort c p) b x → Same (Block.offPort c p) b (g x a)) (as : List α)
    (h : Same (Block.offPort c p) b x) : Same (Block.offPort c p) b (as.foldl g x) :=
  List.foldlRecOn as g h fun y hy a _ => hg y a hy

section Kept
variable (h : Same (Block.offPort c p) b x)
include h

theorem offPort_askLanes : Same (Block.offPort c p) b (x.askLanes p) :=
  offPort_foldl (fun _ _ hx => .ite hx (offPort_request hx ..)) _ h

theorem offPort_flushPort : Same (Block.offPort c p) b (x.flushPort p) :=
  offPort_foldl (fun _ _ hx => .ite hx (offPort_send (offPort_setPort (offPort_setPort hx _) _) _)) _ h

theorem offPort_sendLink (nak : Bool) (buffer freed : Nat) : Same (Block.offPort c p) b (x.sendLink p nak buffer freed) :=
  .ite (offPort_flushPort (offPort_setPort h _)) h

theorem offPort_nak : Same (Block.offPort c p) b (x.nak p) := offPort_sendLink (offPort_bump (offPort_setPort h _) _) ..

theorem offPort_countBad : Same (Block.offPort c p) b (x.countBad p) := offPort_bump (offPort_setPort h _) _

theorem offPort_countCorrected (corrected : List Nat) : Same (Block.offPort c p) b (x.countCorrected p corrected) := offPort_count (offPort_setPort h _) ..

end Kept

/-! ### The commands of a port -/

theorem offPort_codewordReceive : Same (Block.offPort c p) b (codewordReceiveEff p seq replay good corrected flits b) := by
  have hb : Same (Block.offPort c p) b b := .refl b
  have hcounted := offPort_countCorrected hb corrected
  exact .ite hb (.ite (offPort_nak (offPort_countBad hb)) (.ite hcounted (.ite (offPort_nak hcounted)
    (.ite (offPort_sendLink (offPort_setPort hcounted _) ..) (offPort_setPort hcounted _)))))

theorem offPort_linkFlit (hres : hdrClass ((streamUnits (b.port p).stream (b.port p).stream.length).2.headD 0) ≠ 3) :
    Same (Block.offPort c p) b (linkFlitEff p room b) := by
  have hb : Same (Block.offPort c p) b b := .refl b
  refine .ite hb (.dite (fun h => absurd h hres) fun _ => ?_)
  split
  · exact hb
  · exact offPort_flushPort (offPort_foldl (fun _ _ hx => offPort_send hx _) _ (offPort_setPort (offPort_captureEntry hb ..) _))

/-- Settles O60: each of the commands works on its port by these steps. -/
theorem yilgilFrame : Obligations.YilgilFrame := by
  intro b b' q k p seq replay good room corrected flits hk he
  have hb : Same (Block.offPort b p) b b := .refl b
  have hsame : Same (Block.offPort b p) b b' := by
    rcases hk with rfl | rfl | rfl | rfl | ⟨rfl, hres⟩ <;> cases he
    · exact offPort_codewordReceive
    · exact .ite hb (offPort_askLanes (offPort_setPort hb _))
    · exact .ite hb (offPort_setPort hb _)
    · exact .ite hb (offPort_setPort hb _)
    · exact offPort_linkFlit hres
  have hbeside : b.besidePorts b' = b.besidePorts b := congrArg Prod.fst hsame
  refine ⟨congrArg (fun x => { x with yg := b.yg }) hbeside, congrArg (·.yg) hbeside, fun j hj => ?_⟩
  simpa only [Block.offPort, hj, if_false] using congrFun (congrArg Prod.snd hsame) j

end Sys2Proof.Machine
end
